-- ==== Sys2Proof/Word.lean ====
section
/-! DEFINITION. The word types of the device and their plainest arithmetic: bit slices, sign extension and the
integer views of register values (spec/00_scope.md R1, R5). -/

namespace Sys2Proof

/-- A 64-bit general-register value (00 "data sizes": dword). -/
abbrev Word := BitVec 64
/-- A byte. -/
abbrev Byte := BitVec 8
/-- A 512-bit vector-register value. -/
abbrev VWord := BitVec 512

/-- `x[lo + n - 1 : lo]` of an unbounded value (00 R5). -/
def bitsOf (x lo n : Nat) : Nat := x / 2 ^ lo % 2 ^ n

/-- The value of a slice read as two's complement: `SX` of n bits (00 "Pseudocode"). -/
def sxNat (x n : Nat) : Int :=
  if x % 2 ^ n < 2 ^ (n - 1) then (x % 2 ^ n : Nat) else (x % 2 ^ n : Nat) - (2 ^ n : Nat)

/-- An integer cut to a 64-bit word (00 R5: a value is truncated only where a slice states it). -/
def wordOfInt (x : Int) : Word := BitVec.ofInt 64 x

end Sys2Proof
end

