-- ==== Sys2Proof/Machine/Cipher.lean ====
section
/-! DEFINITION. AES-XTS over the 64-byte line (03 R76, R77): AES-256 as FIPS 197 defines it and XTS as IEEE 1619 defines it,
both named by the spec and laid out by their standards (log 53). Bytes are numbers below 256, first byte first. -/

namespace Sys2Proof.Cipher

/-- The AES S-box, entry x in bits [8x + 7 : 8x]. -/
def sbox : Nat :=
  0xc072a49cafa2d4adf04759fa7dc982ca76abd7fe2b670130c56f6bf27b777c63 +
  0x75b227ebe28012079a059618c323c7041531d871f1e5a534ccf73f362693fdb7 * 2 ^ 256 +
  0xcf584c4a39becb6a5bb1fc20ed00d153842fe329b3d63b52a05a6e1b1a2c8309 * 2 ^ 512 +
  0xd2f3ff1021dab6bcf5389d928f40a351a89f3c507f02f94585334d43fbaaefd0 * 2 ^ 768 +
  0xdb0b5ede14b8ee4688902a22dc4f816073195d643d7ea7c41744975fec130ccd * 2 ^ 1024 +
  0x8ae7a65eaf4566ca94ed58d6d37c8e779e4959162acd3c25c2406490a3a32e0 * 2 ^ 1280 +
  0x9e1dc186b95735610ef6034866b53e708a8bbd4b1f74dde8c6b4a61c2e2578ba * 2 ^ 1536 +
  0x16bb54b00f2d99416842e6bf0d89a18cdf2855cee9871e9b948ed9691198f8e1 * 2 ^ 1792

/-- The inverse S-box, laid out likewise. -/
def sboxInv : Nat :=
  0xcbe9dec444438e3487ff2f9b8239e37cfbd7f3819ea340bf38a53630d56a0952 +
  0x25d18b6d49a25b76b224d92866a12e084ec3fa420b954cee3d23c2a632947b54 * 2 ^ 256 +
  0x849d8da75746155edab9edfd5048706c92b6655dcc5ca4d41698688664f6f872 * 2 ^ 512 +
  0x6b8a130103bdafc1020f3fca8f1e2cd00645b3b80558e4f70ad3bc8c00abd890 * 2 ^ 768 +
  0x6edf751ce837f9e28535ade72274ac9673e6b4f0cecff297eadc674f4111913a * 2 ^ 1024 +
  0xf45acd78fec0db9a2079d2c64b3e56fc1bbe18aa0e62b76f89c5291d711af147 * 2 ^ 1280 +
  0xef9cc9939f7ae52d0d4ab519a97f51605fec8027591012b131c7078833a8dd1f * 2 ^ 1536 +
  0x7d0c2155631469e126d677ba7e042b17619953833cbbebc8b0f52aae4d3be0a0 * 2 ^ 1792

/-- An entry of a table of bytes. -/
def look (t x : Nat) : Nat := t / 2 ^ (8 * x) % 256

/-- Twice a byte in the field of AES. -/
def xtime (b : Nat) : Nat := if b < 128 then 2 * b else (2 * b) ^^^ 0x11B

/-- A byte times a number below 16 in the field of AES. -/
def times (k b : Nat) : Nat :=
  let b2 := xtime b
  let b4 := xtime b2
  (if k % 2 = 1 then b else 0) ^^^ (if k / 2 % 2 = 1 then b2 else 0) ^^^ (if k / 4 % 2 = 1 then b4 else 0) ^^^
    (if k / 8 % 2 = 1 then xtime b4 else 0)

/-- Two lists of bytes added. -/
def addBytes (a b : List Nat) : List Nat := List.zipWith (· ^^^ ·) a b

/-- Bytes permuted: byte i of the result is byte k × i mod 16. -/
def shiftRows (k : Nat) (s : List Nat) : List Nat := (List.range 16).map (fun i => s.getD (k * i % 16) 0)

/-- One column of a block times a circulant matrix, given by its first row. -/
def mixColumn (r : List Nat) (c : List Nat) : List Nat :=
  (List.range 4).map (fun i => (List.range 4).foldl (fun x j => x ^^^ times (r.getD ((j + 4 - i) % 4) 0) (c.getD j 0)) 0)

/-- The four columns of a block mixed. -/
def mixColumns (r : List Nat) (s : List Nat) : List Nat :=
  (List.range 4).flatMap (fun c => mixColumn r ((s.drop (4 * c)).take 4))

/-- The key schedule of AES-256, newest word first: n more words, the next of them word i; `rc` is the round constant. -/
def schedule : Nat → Nat → Nat → List (List Nat) → List (List Nat)
  | 0, _, _, w => w
  | n + 1, i, rc, w =>
    let t := w.getD 0 []
    let t := if i % 8 = 0 then addBytes ((t.drop 1 ++ t.take 1).map (look sbox)) [rc, 0, 0, 0]
      else if i % 8 = 4 then t.map (look sbox) else t
    schedule n (i + 1) (if i % 8 = 0 then xtime rc else rc) (addBytes t (w.getD 7 []) :: w)

/-- The fifteen round keys of a 32-byte key, first round first. -/
def roundKeys (key : List Nat) : List (List Nat) :=
  let w := ((List.range 8).map (fun i => (key.drop (4 * i)).take 4)).reverse
  let w := (schedule 52 8 1 w).reverse
  (List.range 15).map (fun r => (w.drop (4 * r)).take 4 |>.flatten)

/-- The rounds of an encryption after the first key: the last round mixes no columns. -/
def encRounds : List (List Nat) → List Nat → List Nat
  | [], s => s
  | [k], s => addBytes (shiftRows 5 (s.map (look sbox))) k
  | k :: t, s => encRounds t (addBytes (mixColumns [2, 3, 1, 1] (shiftRows 5 (s.map (look sbox)))) k)

/-- A 16-byte block encrypted under a key schedule. -/
def encBlock (ks : List (List Nat)) (s : List Nat) : List Nat := encRounds (ks.drop 1) (addBytes s (ks.headD []))

/-- The rounds of a decryption after the last key, the round keys in reverse. -/
def decRounds : List (List Nat) → List Nat → List Nat
  | [], s => s
  | [k], s => addBytes ((shiftRows 13 s).map (look sboxInv)) k
  | k :: t, s => decRounds t (mixColumns [14, 11, 13, 9] (addBytes ((shiftRows 13 s).map (look sboxInv)) k))

/-- A 16-byte block decrypted under a key schedule. -/
def decBlock (ks : List (List Nat)) (s : List Nat) : List Nat :=
  let r := ks.reverse
  decRounds (r.drop 1) (addBytes s (r.headD []))

/-- The next tweak: twice the 128-bit little-endian number. -/
def nextTweak (t : Nat) : Nat := if t < 2 ^ 127 then 2 * t else (2 * t % 2 ^ 128) ^^^ 0x87

/-- The little-endian bytes of a number. -/
def bytesOf : Nat → Nat → List Nat
  | 0, _ => []
  | n + 1, x => x % 256 :: bytesOf n (x / 256)

/-- The number of little-endian bytes. -/
def numOf : List Nat → Nat
  | [] => 0
  | b :: t => b + 256 * numOf t

/-- The blocks of a data unit under a block function and a tweak. -/
def xtsBlocks (f : List Nat → List Nat) : Nat → Nat → List Nat → List Nat
  | 0, _, _ => []
  | n + 1, t, s =>
    let w := bytesOf 16 t
    addBytes (f (addBytes (s.take 16) w)) w ++ xtsBlocks f n (nextTweak t) (s.drop 16)

/-- The 64 bytes of a line encrypted, or decrypted, under a key pair; with no key they stand as they are (03 R76, R77). The
tweak is the line's number, bits [51:6] of its device physical address. -/
def line (enc : Bool) (key : List Byte) (l : Nat) (bytes : List Byte) : List Byte :=
  if key.isEmpty then bytes
  else
    let k := key.map BitVec.toNat
    let k1 := roundKeys (k.take 32)
    let t := numOf (encBlock (roundKeys ((k.drop 32).take 32)) (bytesOf 16 l))
    (xtsBlocks (if enc then encBlock k1 else decBlock k1) 4 t (bytes.map BitVec.toNat)).map (BitVec.ofNat 8)

end Sys2Proof.Cipher
end

