-- ==== Sys2Proof/Config.lean ====
section
/-! DEFINITION. What an implementation fixes and the free values. A free value has no body, so nothing can be proved
about it; it is drawn with a counter that the state holds (log 21). -/

namespace Sys2Proof

/-- The free value of a width at a draw: a result that the spec leaves open (log 21). -/
opaque Config.freeBits (w : Nat) : Nat → BitVec w

/-- A free choice at a draw: an order or a candidate that the spec leaves open (log 21). -/
opaque Config.freeChoice : Nat → Nat

/-- The measurement of an index on a package, a SHA3-384 digest of what 15 R390 names (log 30). -/
opaque Config.measurement : Nat → Nat → Nat → BitVec 384

/-- Whether a signed image or table verifies under the fused key (13 R344, R358; 15 R389; log 30). -/
opaque Config.signatureValid : Nat → List (BitVec 8) → Bool

/-- The signature that the device makes of a message (15 R390; log 30). -/
opaque Config.sign : Nat → List (BitVec 8) → List (BitVec 8)

/-- The body of the answer to an SPDM request, whose form the SPDM standard gives (15 R390; log 30). -/
opaque Config.spdmBody : Nat → Nat → List (BitVec 8)

/-- Whether the pod configuration assigns a context id to a package (01 R8; log 10). -/
opaque Config.ctxAssigned : Nat → Nat → Bool

/-- Core cycles in a microsecond: the core clock is 3.6 GHz (00 R2). -/
def Config.cyclesPerMicro : Nat := 3600

/-- Mesh cycles run at 2.4 GHz: two for three core cycles (00 R2). -/
def Config.coreCyclesOfMesh (n : Nat) : Nat := n * 3 / 2

/-- Entries of each hardware queue (04 R92). -/
def Config.queueDepth : Nat := 64
/-- Messages of the outbound port (11 R296). -/
def Config.portDepth : Nat := 8
/-- Walks of a die at once, and the most of one context while another waits (03 R70). -/
def Config.dieWalks : Nat := 128
/-- Lines of the cluster's wait table (04 R109). -/
def Config.waitLines : Nat := 64
/-- Chains a copy unit walks, and chains its queue holds (12 R322). -/
def Config.chainsWalked : Nat := 16
/-- Chains that wait in a copy unit's queue (12 R322). -/
def Config.chainsQueued : Nat := 64
/-- Entries of a cluster's Pantry (07 R181). -/
def Config.pantryEntries : Nat := 256
/-- Entries of a cluster's commit queue (07 R182). -/
def Config.commitEntries : Nat := 512
/-- Entries of a core's activation table (07 R175). -/
def Config.activations : Nat := 32
/-- Cellar nodes of a package (02 R65). -/
def Config.cellarNodes : Nat := 67108864
/-- Messages that the LATE section of an image has room for (14 R372; log 68). -/
def Config.lateCapacity : Nat := 1024
/-- The first frame of the Cellar: local address 0x7F_0000_0000 (01 R10). -/
def Config.cellarFrame : Nat := 0x7F00000
/-- Frames of HBM with the Cellar: 512 GiB (01 R10). -/
def Config.hbmFrames : Nat := 0x8000000
/-- The first frame of the CXL range, where the host-window range ends (01 R10). -/
def Config.cxlFrame : Nat := 0x40000000
/-- Tenant contexts live on a package (01 R8). -/
def Config.contextLimit : Nat := 1024

end Sys2Proof
end

