-- ==== Sys2Proof/Syntax.lean ====
section
/-! DEFINITION. The instructions and steps of the device: one constructor for each row of spec/opcode_table.json.
Fields of an encoded row are named and sized as the row gives them; `ext` is the EXT word of a lone bundle for the
instructions that take one (09 R223), `none` standing for L = 0. A step or event has no fields: the numbers that name
its agent, listed with each, stand in the agenda entry that makes it due and in `State.args` while it runs (log 4). -/

namespace Sys2Proof

/-- One constructor for each row of the opcode table. -/
inductive Instr where
  -- C-slot instructions (09 R222 to R229)
  /-- R266: C-slot no-operation that changes no state beyond the issue of its bundle. -/
  | cnop
  /-- R262: Always branches to PC plus the signed bundle offset. -/
  | br (off : BitVec 22) (ext : Option (BitVec 32))
  /-- R263: Compares two general registers and branches when the condition holds. -/
  | bcc (cnd : BitVec 3) (a : BitVec 5) (b : BitVec 5) (off : BitVec 9) (ext : Option (BitVec 32))
  /-- R264: Writes PC + 8 to a register and branches by a bundle offset. -/
  | jal (d : BitVec 5) (off : BitVec 17) (ext : Option (BitVec 32))
  /-- R264: Writes PC + 8 to a register and branches to a register plus offset. -/
  | jalr (d : BitVec 5) (r : BitVec 5) (off : BitVec 12)
  /-- R265: Decrements a counter register and branches while it is not zero. -/
  | loop (d : BitVec 5) (off : BitVec 17) (ext : Option (BitVec 32))
  /-- R242: Loads a sign-extended immediate, from IMM or EXT, into a general register. -/
  | li (d : BitVec 5) (imm : BitVec 16) (ext : Option (BitVec 32))
  /-- R242: Sets the upper 32 bits of a general register from EXT, keeping the lower half. -/
  | liHi (d : BitVec 5) (ext : BitVec 32)
  /-- R276: Loads one byte, sign-extended, through a capability. -/
  | ldI8 (g : BitVec 5) (cap : BitVec 4) (idx : BitVec 5) (sh : BitVec 2) (disp : BitVec 6) (ext : Option (BitVec 32))
  /-- R276: Loads one byte, zero-extended, through a capability. -/
  | ldN8 (g : BitVec 5) (cap : BitVec 4) (idx : BitVec 5) (sh : BitVec 2) (disp : BitVec 6) (ext : Option (BitVec 32))
  /-- R276: Loads a half, sign-extended, through a capability. -/
  | ldI16 (g : BitVec 5) (cap : BitVec 4) (idx : BitVec 5) (sh : BitVec 2) (disp : BitVec 6) (ext : Option (BitVec 32))
  /-- R276: Loads a half, zero-extended, through a capability. -/
  | ldN16 (g : BitVec 5) (cap : BitVec 4) (idx : BitVec 5) (sh : BitVec 2) (disp : BitVec 6) (ext : Option (BitVec 32))
  /-- R276: Loads a word, sign-extended, through a capability. -/
  | ldI32 (g : BitVec 5) (cap : BitVec 4) (idx : BitVec 5) (sh : BitVec 2) (disp : BitVec 6) (ext : Option (BitVec 32))
  /-- R276: Loads a word, zero-extended, through a capability. -/
  | ldN32 (g : BitVec 5) (cap : BitVec 4) (idx : BitVec 5) (sh : BitVec 2) (disp : BitVec 6) (ext : Option (BitVec 32))
  /-- R276: Loads a dword through a capability. -/
  | ld64 (g : BitVec 5) (cap : BitVec 4) (idx : BitVec 5) (sh : BitVec 2) (disp : BitVec 6) (ext : Option (BitVec 32))
  /-- R276: Stores the low byte of a register through a capability. -/
  | st8 (g : BitVec 5) (cap : BitVec 4) (idx : BitVec 5) (sh : BitVec 2) (disp : BitVec 6) (ext : Option (BitVec 32))
  /-- R276: Stores the low half of a register through a capability. -/
  | st16 (g : BitVec 5) (cap : BitVec 4) (idx : BitVec 5) (sh : BitVec 2) (disp : BitVec 6) (ext : Option (BitVec 32))
  /-- R276: Stores the low word of a register through a capability. -/
  | st32 (g : BitVec 5) (cap : BitVec 4) (idx : BitVec 5) (sh : BitVec 2) (disp : BitVec 6) (ext : Option (BitVec 32))
  /-- R276: Stores a dword through a capability. -/
  | st64 (g : BitVec 5) (cap : BitVec 4) (idx : BitVec 5) (sh : BitVec 2) (disp : BitVec 6) (ext : Option (BitVec 32))
  /-- R279: Loads the active words of a 64-byte aligned block into a vector register. -/
  | vld (v : BitVec 5) (cap : BitVec 4) (k : BitVec 3) (idx : BitVec 5) (disp : BitVec 5) (ext : Option (BitVec 32))
  /-- R279: Stores the active words of a vector register to a 64-byte block, or pushes a matrix command through QWIN. -/
  | vst (v : BitVec 5) (cap : BitVec 4) (k : BitVec 3) (idx : BitVec 5) (disp : BitVec 5) (ext : Option (BitVec 32))
  /-- R280: Strided vector load of 8, 16 or 32-bit elements. -/
  | vlds (d : BitVec 5) (cap : BitVec 4) (r : BitVec 5) (k : BitVec 3) (sz : BitVec 2) (ext : Option (BitVec 32))
  /-- R280: Gather vector load indexed by a vector register. -/
  | vldx (d : BitVec 5) (cap : BitVec 4) (r : BitVec 5) (k : BitVec 3) (sz : BitVec 2) (ext : Option (BitVec 32))
  /-- R280: Scatter vector store indexed by a vector register. -/
  | vstx (d : BitVec 5) (cap : BitVec 4) (r : BitVec 5) (k : BitVec 3) (sz : BitVec 2) (ext : Option (BitVec 32))
  /-- R281: Loads a 16-byte capability with its tag into a capability register. -/
  | ldc (d : BitVec 4) (cap : BitVec 4) (r : BitVec 5) (ext : Option (BitVec 32))
  /-- R281: Stores a capability register and its tag as one single-copy-atomic write. -/
  | stc (d : BitVec 4) (cap : BitVec 4) (r : BitVec 5) (ext : Option (BitVec 32))
  /-- R277: Scalar load of 32 or 64 bits that is an acquire at the named scope. -/
  | ldacq (d : BitVec 5) (cap : BitVec 4) (r : BitVec 5) (scope : BitVec 3) (sz : BitVec 2) (ext : Option (BitVec 32))
  /-- R277: Scalar store of 32 or 64 bits that is a release at the named scope. -/
  | strel (d : BitVec 5) (cap : BitVec 4) (r : BitVec 5) (scope : BitVec 3) (sz : BitVec 2) (ext : Option (BitVec 32))
  /-- R283: Arms a monitor on a line and parks the slot while the word equals the comparand. -/
  | waita (d : BitVec 5) (cap : BitVec 4) (r : BitVec 5) (sz : BitVec 2) (ext : Option (BitVec 32))
  /-- R282: Performs one indivisible read-modify-write at the location's home. -/
  | amo (d : BitVec 5) (cap : BitVec 4) (r : BitVec 5) (op : BitVec 4) (w : BitVec 1) (ord : BitVec 2) (ext : Option (BitVec 32))
  /-- R284: Copies a capability register with its tag. -/
  | cmov (cd : BitVec 4) (cs : BitVec 4)
  /-- R284: Adds a register and immediate to a capability's offset, clearing the tag on overflow. -/
  | cadd (cd : BitVec 4) (cs : BitVec 4) (g : BitVec 5) (imm : BitVec 7)
  /-- R284: Narrows a capability's bounds to the cursor and a rounded-down length. -/
  | cbnd (cd : BitVec 4) (cs : BitVec 4) (g : BitVec 5) (imm : BitVec 7)
  /-- R284: Clears permission bits of a capability by an immediate mask. -/
  | cprm (cd : BitVec 4) (cs : BitVec 4) (imm : BitVec 7)
  /-- R285: Changes a capability's space, keeping the tag only for a PEER-to-LOCAL change in the own slice. -/
  | cspc (d : BitVec 4) (cs : BitVec 4) (spc : BitVec 3)
  /-- R285: Reads one field or the tag of a capability into a general register. -/
  | cget (d : BitVec 5) (cs : BitVec 4) (fld : BitVec 4)
  /-- R285: Copies a capability with its tag cleared. -/
  | ctag (d : BitVec 4) (cs : BitVec 4)
  /-- R290: Takes a job and sends a map request unit to the mapping engine of the frames' home package. -/
  | map (j : BitVec 5) (cap : BitVec 4) (a : BitVec 5) (b : BitVec 5) (t : BitVec 1)
  /-- R290: Takes a job and sends a grant request unit to the mapping engine. -/
  | grant (j : BitVec 5) (cap : BitVec 4) (a : BitVec 5) (b : BitVec 5) (t : BitVec 1)
  /-- R290: Takes a job and sends an unmap request unit to the mapping engine. -/
  | unmap (j : BitVec 5) (cap : BitVec 4) (b : BitVec 5) (t : BitVec 1)
  /-- R291: Takes a job and sends a window-entry request to the context's home engine. -/
  | rwin (j : BitVec 5) (cap : BitVec 4) (a : BitVec 5) (b : BitVec 5)
  /-- R292: Queries a leaf entry or node image into a vector register. -/
  | mq (j : BitVec 5) (cap : BitVec 4) (a : BitVec 5) (b : BitVec 5)
  /-- R294: At TL2, takes a harvest job on one dirty-tracking group dword. -/
  | dharv (j : BitVec 5) (cap : BitVec 4) (a : BitVec 5) (b : BitVec 5)
  /-- R295: Writes the whole PKPERM register of the issuing slot. -/
  | pkset (a : BitVec 5)
  /-- R295: Writes one key's pair of bits in the slot's PKPERM. -/
  | pksetKey (j : BitVec 5) (a : BitVec 5)
  /-- R296: Builds and sends an untimed message of 1 to 4 units, as a release. -/
  | send (a : BitVec 5) (v : BitVec 5) (un : BitVec 2)
  /-- R296: Builds and sends a timed message to QT with its VRT set under R173. -/
  | sendt (a : BitVec 5) (v : BitVec 5) (un : BitVec 2) (t : BitVec 5)
  /-- R297: Arms a counter of the cluster with a count and a task, possibly firing it at once. -/
  | ctrarm (a : BitVec 5) (n : BitVec 5) (g : BitVec 5)
  /-- R298: Ends the activation once its accesses have reached core scope. -/
  | done
  /-- R298: Passes the slot over in the issue rotation. -/
  | yield
  /-- R298: Returns the queue occupancy and spill pool state. -/
  | qstat (d : BitVec 5)
  /-- R192: Ends a speculative activation by rollback, retrying or discarding it. -/
  | abort (m : BitVec 1)
  /-- R298: Returns GVT.VRT of the core's timeline as held at its cluster. -/
  | gvtrd (d : BitVec 5)
  /-- R298: Returns the core's local virtual time. -/
  | lvtrd (d : BitVec 5)
  /-- R299: Stores a dword at once, or defers it to commit in a speculative activation. -/
  | stdef (g : BitVec 5) (cap : BitVec 4) (idx : BitVec 5) (sh : BitVec 2) (disp : BitVec 6) (ext : Option (BitVec 32))
  /-- R288: Parks until a job completes, then acquires and returns its result word and frees the entry. -/
  | jobwait (d : BitVec 5) (j : BitVec 5)
  /-- R288: Reports without waiting whether a job is pending, complete or stale. -/
  | jobq (d : BitVec 5) (j : BitVec 5)
  /-- R322: Takes a copy-chain job and starts a chain at a local head, as a release at clus. -/
  | copygo (j : BitVec 5) (cap : BitVec 4)
  /-- R330: Takes a collective job and kicks the die's collective engine with a descriptor. -/
  | clgo (j : BitVec 5) (cap : BitVec 4)
  /-- R320: Makes the issuing core the cluster's scale keeper. -/
  | skeep (a : BitVec 5)
  /-- R321: Writes one scale-table entry from two block-scale codes. -/
  | sksum (a : BitVec 5) (b : BitVec 5)
  /-- R267: Requests formation of a gang of 2, 4 or 8 cores and parks until the cluster decides. -/
  | gang (d : BitVec 5) (sz : BitVec 2)
  /-- R269: Ends the leader's gang. -/
  | disband
  /-- R270: All-to-all element exchange among the members of a gang. -/
  | xchg (vd : BitVec 5) (vs : BitVec 5) (esz : BitVec 2)
  /-- R271: Joins a barrier episode at gang, cluster or block level and parks until it completes. -/
  | bar (lvl : BitVec 2)
  /-- R334: Reads and checks a launch record and submits the grid to the pod dispatcher. -/
  | glaunch (j : BitVec 5) (cap : BitVec 4)
  /-- R335: Marks the core triggered for its block's grid, as a release at sys. -/
  | gtrig
  /-- R335: Ends the activation and counts as the core's exit from its block with a status. -/
  | gexit (g : BitVec 5)
  /-- R336: Returns a block, grid, core or context identifier selected by SEL. -/
  | gid (d : BitVec 5) (sel : BitVec 3)
  /-- R337: Requests cancellation of a grid of the issuing context. -/
  | gcancel (g : BitVec 5)
  /-- R338: Takes TRAPINS with the immediate as XVAL. -/
  | trap (imm : BitVec 12)
  /-- R338: Returns from a trap level to the previous one at XPC. -/
  | xret
  /-- R338: Takes BREAK, or halts the core when the debug module catches breakpoints. -/
  | brk (imm : BitVec 12)
  /-- R338: Parks the slot until a message is accepted into a queue, a trap or a switch point. -/
  | idle
  /-- R278: Acquire, release or full fence at a scope. -/
  | fence (kind : BitVec 2) (scope : BitVec 3)
  /-- R339: Reads a control register into a general register. -/
  | csrr (d : BitVec 5) (csr : BitVec 10)
  /-- R339: Writes a control register, returning its old value. -/
  | csrw (d : BitVec 5) (r : BitVec 5) (csr : BitVec 10)
  /-- R339: Sets bits of a control register, returning its old value. -/
  | csrs (d : BitVec 5) (r : BitVec 5) (csr : BitVec 10)
  /-- R339: Clears bits of a control register, returning its old value. -/
  | csrc (d : BitVec 5) (r : BitVec 5) (csr : BitVec 10)
  -- A-slot instructions (09 R225, R230)
  /-- R266: A-slot no-operation. -/
  | anop
  /-- R240: 64-bit integer add. -/
  | add (d : BitVec 5) (a : BitVec 5) (b : BitVec 5)
  /-- R240: 64-bit integer subtract. -/
  | sub (d : BitVec 5) (a : BitVec 5) (b : BitVec 5)
  /-- R240: Bitwise and. -/
  | and (d : BitVec 5) (a : BitVec 5) (b : BitVec 5)
  /-- R240: Bitwise or. -/
  | or (d : BitVec 5) (a : BitVec 5) (b : BitVec 5)
  /-- R240: Bitwise exclusive or. -/
  | xor (d : BitVec 5) (a : BitVec 5) (b : BitVec 5)
  /-- R240: Shift left by a register amount. -/
  | shl (d : BitVec 5) (a : BitVec 5) (b : BitVec 5)
  /-- R240: Logical shift right by a register amount. -/
  | shr (d : BitVec 5) (a : BitVec 5) (b : BitVec 5)
  /-- R240: Arithmetic shift right by a register amount. -/
  | sra (d : BitVec 5) (a : BitVec 5) (b : BitVec 5)
  /-- R240: Signed set-less-than. -/
  | slt (d : BitVec 5) (a : BitVec 5) (b : BitVec 5)
  /-- R240: Unsigned set-less-than. -/
  | sltn (d : BitVec 5) (a : BitVec 5) (b : BitVec 5)
  /-- R240: Signed minimum. -/
  | min (d : BitVec 5) (a : BitVec 5) (b : BitVec 5)
  /-- R240: Signed maximum. -/
  | max (d : BitVec 5) (a : BitVec 5) (b : BitVec 5)
  /-- R240: Unsigned minimum. -/
  | minn (d : BitVec 5) (a : BitVec 5) (b : BitVec 5)
  /-- R240: Unsigned maximum. -/
  | maxn (d : BitVec 5) (a : BitVec 5) (b : BitVec 5)
  /-- R240: Low 64 bits of a product. -/
  | mul (d : BitVec 5) (a : BitVec 5) (b : BitVec 5)
  /-- R240: High 64 bits of a signed product. -/
  | mulh (d : BitVec 5) (a : BitVec 5) (b : BitVec 5)
  /-- R240: High 64 bits of an unsigned product. -/
  | mulhn (d : BitVec 5) (a : BitVec 5) (b : BitVec 5)
  /-- R240: Signed division truncating towards zero, without trapping. -/
  | div (d : BitVec 5) (a : BitVec 5) (b : BitVec 5)
  /-- R240: Unsigned division, without trapping. -/
  | divn (d : BitVec 5) (a : BitVec 5) (b : BitVec 5)
  /-- R240: Signed remainder with the sign of the dividend. -/
  | rem (d : BitVec 5) (a : BitVec 5) (b : BitVec 5)
  /-- R240: Unsigned remainder. -/
  | remn (d : BitVec 5) (a : BitVec 5) (b : BitVec 5)
  /-- R240: Counts leading zero bits. -/
  | clz (d : BitVec 5) (a : BitVec 5)
  /-- R240: Counts trailing zero bits. -/
  | ctz (d : BitVec 5) (a : BitVec 5)
  /-- R240: Counts one bits. -/
  | popc (d : BitVec 5) (a : BitVec 5)
  /-- R241: Adds a sign-extended immediate. -/
  | addi (d : BitVec 5) (a : BitVec 5) (imm : BitVec 16)
  /-- R241: Ands with a sign-extended immediate. -/
  | andi (d : BitVec 5) (a : BitVec 5) (imm : BitVec 16)
  /-- R241: Ors with a zero-extended immediate. -/
  | ori (d : BitVec 5) (a : BitVec 5) (imm : BitVec 16)
  /-- R241: Exclusive-ors with a zero-extended immediate. -/
  | xori (d : BitVec 5) (a : BitVec 5) (imm : BitVec 16)
  /-- R241: Shifts left by an immediate amount. -/
  | shli (d : BitVec 5) (a : BitVec 5) (imm : BitVec 6)
  /-- R241: Logical shift right by an immediate amount. -/
  | shri (d : BitVec 5) (a : BitVec 5) (imm : BitVec 6)
  /-- R241: Arithmetic shift right by an immediate amount. -/
  | srai (d : BitVec 5) (a : BitVec 5) (imm : BitVec 6)
  /-- R241: Signed set-less-than against an immediate. -/
  | slti (d : BitVec 5) (a : BitVec 5) (imm : BitVec 16)
  /-- R243: Scalar float add rounded once. -/
  | fadd (d : BitVec 5) (a : BitVec 5) (b : BitVec 5) (rnd : BitVec 3) (ty : BitVec 1)
  /-- R243: Scalar float subtract rounded once. -/
  | fsub (d : BitVec 5) (a : BitVec 5) (b : BitVec 5) (rnd : BitVec 3) (ty : BitVec 1)
  /-- R243: Scalar float multiply rounded once. -/
  | fmul (d : BitVec 5) (a : BitVec 5) (b : BitVec 5) (rnd : BitVec 3) (ty : BitVec 1)
  /-- R243: Scalar fused multiply-add rounded once. -/
  | ffma (d : BitVec 5) (a : BitVec 5) (b : BitVec 5) (c : BitVec 5) (rnd : BitVec 3) (ty : BitVec 1)
  /-- R244: Scalar float minimum. -/
  | fmin (d : BitVec 5) (a : BitVec 5) (b : BitVec 5) (ty : BitVec 1)
  /-- R244: Scalar float maximum. -/
  | fmax (d : BitVec 5) (a : BitVec 5) (b : BitVec 5) (ty : BitVec 1)
  /-- R244: Sign injection from a second operand. -/
  | fsgn (d : BitVec 5) (a : BitVec 5) (b : BitVec 5) (sbf : BitVec 3) (ty : BitVec 1)
  /-- R244: Scalar float comparison returning 0 or 1. -/
  | fcmp (d : BitVec 5) (a : BitVec 5) (b : BitVec 5) (sbf : BitVec 3) (ty : BitVec 1)
  /-- R244: Returns a one-hot class mask of a float. -/
  | fclass (d : BitVec 5) (a : BitVec 5) (ty : BitVec 1)
  /-- R245: Converts one scalar value between formats. -/
  | fcvt (d : BitVec 5) (a : BitVec 5) (tof : BitVec 5) (frf : BitVec 5) (rnd : BitVec 3) (sat : BitVec 1)
  /-- R246: Element-wise vector add. -/
  | vadd (d : BitVec 5) (a : BitVec 5) (b : BitVec 5) (k : BitVec 3) (ty : BitVec 4) (sat : BitVec 1) (rnd : BitVec 3)
  /-- R246: Element-wise vector subtract. -/
  | vsub (d : BitVec 5) (a : BitVec 5) (b : BitVec 5) (k : BitVec 3) (ty : BitVec 4) (sat : BitVec 1) (rnd : BitVec 3)
  /-- R246: Element-wise vector multiply. -/
  | vmul (d : BitVec 5) (a : BitVec 5) (b : BitVec 5) (k : BitVec 3) (ty : BitVec 4) (sat : BitVec 1) (rnd : BitVec 3)
  /-- R246: Element-wise fused multiply-add into the destination. -/
  | vfma (d : BitVec 5) (a : BitVec 5) (b : BitVec 5) (k : BitVec 3) (ty : BitVec 4) (sat : BitVec 1) (rnd : BitVec 3)
  /-- R246: Element-wise minimum. -/
  | vmin (d : BitVec 5) (a : BitVec 5) (b : BitVec 5) (k : BitVec 3) (ty : BitVec 4) (rnd : BitVec 3)
  /-- R246: Element-wise maximum. -/
  | vmax (d : BitVec 5) (a : BitVec 5) (b : BitVec 5) (k : BitVec 3) (ty : BitVec 4) (rnd : BitVec 3)
  /-- R246: Element-wise absolute value. -/
  | vabs (d : BitVec 5) (a : BitVec 5) (k : BitVec 3) (ty : BitVec 4) (sat : BitVec 1) (rnd : BitVec 3)
  /-- R246: Element-wise negation. -/
  | vneg (d : BitVec 5) (a : BitVec 5) (k : BitVec 3) (ty : BitVec 4) (sat : BitVec 1) (rnd : BitVec 3)
  /-- R247: Bitwise and of vectors, predicated per 32-bit lane. -/
  | vand (d : BitVec 5) (a : BitVec 5) (b : BitVec 5) (k : BitVec 3)
  /-- R247: Bitwise or of vectors. -/
  | vor (d : BitVec 5) (a : BitVec 5) (b : BitVec 5) (k : BitVec 3)
  /-- R247: Bitwise exclusive or of vectors. -/
  | vxor (d : BitVec 5) (a : BitVec 5) (b : BitVec 5) (k : BitVec 3)
  /-- R248: Element-wise shift left. -/
  | vshl (d : BitVec 5) (a : BitVec 5) (b : BitVec 5) (k : BitVec 3) (ty : BitVec 4)
  /-- R248: Element-wise logical shift right. -/
  | vshr (d : BitVec 5) (a : BitVec 5) (b : BitVec 5) (k : BitVec 3) (ty : BitVec 4)
  /-- R248: Element-wise arithmetic shift right. -/
  | vsra (d : BitVec 5) (a : BitVec 5) (b : BitVec 5) (k : BitVec 3) (ty : BitVec 4)
  /-- R249: Clamps destination elements into per-element bounds. -/
  | vclamp (d : BitVec 5) (a : BitVec 5) (b : BitVec 5) (k : BitVec 3) (ty : BitVec 4) (rnd : BitVec 3)
  /-- R250: Element-wise compare writing a predicate register. -/
  | vcmp (kd : BitVec 3) (a : BitVec 5) (b : BitVec 5) (k : BitVec 3) (ty : BitVec 4) (cnd : BitVec 3)
  /-- R251: Selects elements from two vectors by a predicate. -/
  | vsel (d : BitVec 5) (a : BitVec 5) (b : BitVec 5) (k : BitVec 3) (ty : BitVec 4) (rnd : BitVec 3)
  /-- R252: Element-wise format conversion without saturation. -/
  | vcvt (d : BitVec 5) (a : BitVec 5) (tof : BitVec 5) (k : BitVec 3) (frf : BitVec 5) (rnd : BitVec 3)
  /-- R252: Element-wise format conversion with saturation. -/
  | vcvtSat (d : BitVec 5) (a : BitVec 5) (tof : BitVec 5) (k : BitVec 3) (frf : BitVec 5) (rnd : BitVec 3)
  /-- R253: Applies a correctly rounded special function to each element. -/
  | vsfu (d : BitVec 5) (a : BitVec 5) (fn : BitVec 5) (k : BitVec 3) (ty : BitVec 4) (rnd : BitVec 3)
  /-- R254: Reduces 16 lanes in a fixed tree into element 0. -/
  | vred (d : BitVec 5) (a : BitVec 5) (fn : BitVec 5) (k : BitVec 3) (ty : BitVec 4) (rnd : BitVec 3)
  /-- R255: Dot product of two vectors through the fixed tree. -/
  | vdot (d : BitVec 5) (a : BitVec 5) (b : BitVec 5) (k : BitVec 3) (ty : BitVec 4) (rnd : BitVec 3)
  /-- R256: Permutes elements by an index vector. -/
  | vperm (d : BitVec 5) (a : BitVec 5) (b : BitVec 5) (k : BitVec 3) (ty : BitVec 4) (rnd : BitVec 3)
  /-- R257: Broadcasts a general register into every active element. -/
  | vsplat (d : BitVec 5) (a : BitVec 5) (k : BitVec 3) (ty : BitVec 4) (rnd : BitVec 3)
  /-- R258: Moves one vector element into a general register. -/
  | vmovg (d : BitVec 5) (r : BitVec 5) (idx : BitVec 6) (ty : BitVec 4)
  /-- R258: Writes a general register into one vector element. -/
  | vmovl (d : BitVec 5) (r : BitVec 5) (idx : BitVec 6) (ty : BitVec 4)
  /-- R259: And of two predicate registers. -/
  | kand (d : BitVec 3) (a : BitVec 3) (b : BitVec 3)
  /-- R259: Or of two predicate registers. -/
  | kor (d : BitVec 3) (a : BitVec 3) (b : BitVec 3)
  /-- R259: Exclusive or of two predicate registers. -/
  | kxor (d : BitVec 3) (a : BitVec 3) (b : BitVec 3)
  /-- R259: Inverts a predicate register. -/
  | knot (d : BitVec 3) (a : BitVec 3)
  /-- R259: Copies one predicate register to another. -/
  | kmovK (d : BitVec 3) (a : BitVec 3)
  /-- R260: Counts one bits of a predicate into a general register. -/
  | kpop (g : BitVec 5) (k : BitVec 3)
  /-- R260: Sets a predicate register from a general register. -/
  | kmovKg (g : BitVec 5) (k : BitVec 3)
  /-- R260: Copies a predicate register into a general register. -/
  | kmovGk (g : BitVec 5) (k : BitVec 3)
  -- policy words (13 R353)
  /-- R353: Ends the policy program with p(A) as the event's result. -/
  | policyRet (a : BitVec 3)
  /-- R353: Loads a sign-extended immediate into a policy register. -/
  | policyLi (d : BitVec 3) (imm : BitVec 17)
  /-- R353: Adds two policy registers. -/
  | policyAdd (d : BitVec 3) (a : BitVec 3) (b : BitVec 3)
  /-- R353: Subtracts two policy registers. -/
  | policySub (d : BitVec 3) (a : BitVec 3) (b : BitVec 3)
  /-- R353: Bitwise and of two policy registers. -/
  | policyAnd (d : BitVec 3) (a : BitVec 3) (b : BitVec 3)
  /-- R353: Bitwise or of two policy registers. -/
  | policyOr (d : BitVec 3) (a : BitVec 3) (b : BitVec 3)
  /-- R353: Shifts a policy register left by an immediate. -/
  | policyShli (d : BitVec 3) (a : BitVec 3) (imm : BitVec 17)
  /-- R353: Shifts a policy register logically right by an immediate. -/
  | policyShri (d : BitVec 3) (a : BitVec 3) (imm : BitVec 17)
  /-- R353: Unsigned minimum of two policy registers. -/
  | policyMinn (d : BitVec 3) (a : BitVec 3) (b : BitVec 3)
  /-- R353: Unsigned maximum of two policy registers. -/
  | policyMaxn (d : BitVec 3) (a : BitVec 3) (b : BitVec 3)
  /-- R353: Loads a field of a candidate queue. -/
  | policyLdf (d : BitVec 3) (a : BitVec 3) (imm : BitVec 17)
  /-- R353: Loads a policy state dword. -/
  | policyLds (d : BitVec 3) (imm : BitVec 17)
  /-- R353: Stores a policy state dword. -/
  | policySts (a : BitVec 3) (imm : BitVec 17)
  /-- R353: Branches forward when p(A) is unsigned-less than p(B). -/
  | policyBltn (a : BitVec 3) (b : BitVec 3) (imm : BitVec 17)
  /-- R353: Branches forward when p(A) equals p(B). -/
  | policyBeq (a : BitVec 3) (b : BitVec 3) (imm : BitVec 17)
  /-- R353: Returns the index of the candidate with the largest field value. -/
  | policyArgmax (d : BitVec 3) (imm : BitVec 17)
  /-- R353: Returns the index of the candidate with the smallest field value. -/
  | policyArgmin (d : BitVec 3) (imm : BitVec 17)
  -- steps and events of the other agents (95_what_each_step_holds)
  /-- R217: A bundle's stall count elapses and the slot may issue again. Arguments: core, slot. -/
  | stallExpire
  /-- R218: A fixed-latency result is written to its register when its latency has elapsed. Arguments: core, slot. -/
  | fixedLatencyWriteback
  /-- R219: A variable-latency result lands and releases the scoreboard interlock. Arguments: core, slot. -/
  | variableResultLand
  /-- R146: An empty slot takes the best-ranked queue candidate and activates its handler. Arguments: core, slot. -/
  | activate
  /-- R365: A slot's ELAPSED reaches LIMIT and the activation is rolled back, stopped or made fatal. Arguments: core, slot. -/
  | hwdogExpire
  /-- R107: A parked waita or idle slot wakes for no stated cause. Arguments: core, slot. -/
  | spuriousWake
  /-- R116: The reference machine issues an operation from an agent's issue queue. Arguments: agent, pos. -/
  | memoryIssue
  /-- R117: A write advances to the next reach point on its way home. Arguments: id. -/
  | writeReach
  /-- R115: A write performs at its home and enters the arrival order. Arguments: id. -/
  | writePerform
  /-- R119: A read returns a candidate write and joins it into the reader's view. Arguments: agent, op. -/
  | readReturn
  /-- R121: The machine adds a readable write to an agent's view. Arguments: agent, id. -/
  | viewAdd
  /-- R10: A PCIe completion from the host answers a device host-window read. Arguments: core, slot, value, status. -/
  | hostCompletion
  /-- R70: A waiting TLB miss begins its walk when one of the die's walks frees. Arguments: die. -/
  | walkStart
  /-- R69: A walk finishes, installing entries or faulting the parked access NOTMAPPED. Arguments: die, pos. -/
  | walkComplete
  /-- R296: A message leaves the core's outbound port, dropped NOTCORE if its destination is no core. Arguments: core. -/
  | outboundDepart
  /-- R143: A message arrives at the destination fabric port, is checked and enters a queue or the spill pool. Arguments: sender, core, queue. -/
  | messageArrive
  /-- R92: A message waiting in an eject buffer is accepted once the spill pool has room. Arguments: core. -/
  | ejectAccept
  /-- R187: An anti-message meets its twin, annihilating it or rolling it back. Arguments: sender, core. -/
  | antiMessageArrive
  /-- R155: The cluster forms or refuses a requested gang in one step. Arguments: core, slot. -/
  | gangDecision
  /-- R160: A barrier episode completes once every member has arrived or exited. Arguments: core, level. -/
  | barrierComplete
  /-- R189: The GVT period elapses and a new round starts for the context. Arguments: ctx. -/
  | gvtRoundStart
  /-- R188: A reduction pass collects counts, floors and MINSENT, closing the round when balanced. Arguments: ctx. -/
  | gvtPass
  /-- R189: A cluster adopts a new GVT when the broadcast reaches it. Arguments: cluster, timeline. -/
  | gvtAdopt
  /-- R190: The commit agent commits a finished activation below GVT. Arguments: cluster. -/
  | commit
  /-- R48: The source mapping engine checks and performs a map request. Arguments: pkg. -/
  | mapRequest
  /-- R53: The source mapping engine splits and moves nodes for a grant request. Arguments: pkg. -/
  | grantRequest
  /-- R55: A grant's job completes when every shootdown acknowledgement has arrived. Arguments: pkg. -/
  | grantComplete
  /-- R58: The mapping engine cuts the subtree roots of an unmap at its point. Arguments: pkg. -/
  | unmapRequest
  /-- R59: A die acknowledges a shootdown once its entries are invalid and their accesses have performed. Arguments: pkg, die. -/
  | shootdownAck
  /-- R59: All acknowledgements are in; withdrawn nodes are freed and the unmap job completes. Arguments: pkg. -/
  | unmapComplete
  /-- R46: The destination home engine checks windows and records a reservation for a map or grant. Arguments: pkg. -/
  | reservation
  /-- R46: A refused request's reservation is dropped and a ONCE window reopened. Arguments: pkg. -/
  | reservationDrop
  /-- R291: The home engine writes a receive-window entry at its point in order. Arguments: pkg. -/
  | windowUpdate
  /-- R292: The engine takes a leaf entry or node image at one point for an mq. Arguments: pkg. -/
  | mqQuery
  /-- R44: A space request's result arrives at a slot holding for trap-on-refusal. Arguments: core, slot. -/
  | mapResult
  /-- R64: A retiring context returns to FREE when its last withdrawal completes. Arguments: ctx. -/
  | contextFree
  /-- R83: After cached dirty state is removed, a harvest swaps the group dword with zero. Arguments: pkg. -/
  | harvestSwap
  /-- R83: A harvest completes with the old dword once reported writes have performed. Arguments: pkg. -/
  | harvestComplete
  /-- R81: Tracking enable completes after its shootdown of cached dirty state. Arguments: ctx. -/
  | trackEnableComplete
  /-- R130: The matrix engine accepts a command from a core queue and joins its view. Arguments: cluster. -/
  | matrixAccept
  /-- R310: Matrix multiply-accumulate command. Arguments: cluster, core. -/
  | mma
  /-- R310: Matrix multiply command that zeroes its rows first. Arguments: cluster, core. -/
  | mmz
  /-- R310: One 64-element K-step of a running MMA or MMZ. Arguments: cluster, core. -/
  | kStep
  /-- R311: Loads accumulator rows from local memory. Arguments: cluster, core. -/
  | accld
  /-- R313: Stores accumulator rows through the epilogue, optionally releasing them. Arguments: cluster, core. -/
  | accst
  /-- R314: Copies lines into the weight buffer. Arguments: cluster, core. -/
  | wld
  /-- R316: Writes the pushing core's format context. Arguments: cluster, core. -/
  | fctx
  /-- R315: Loads scale-table entries from local memory. Arguments: cluster, core. -/
  | stab
  /-- R315: Loads the pushing core's activation table. Arguments: cluster, core. -/
  | atab
  /-- R317: Completes once earlier commands have completed, as a release at its scope. Arguments: cluster, core. -/
  | msync
  /-- R306: After a command's last source read returns, the engine writes SEVAL as a release. Arguments: cluster, core. -/
  | stageEmptyWrite
  /-- R302: A matrix command completes by writing JRES and JSTAT as a release. Arguments: cluster, core. -/
  | matrixCommandComplete
  /-- R318: A store to MCTL resumes a held matrix job from its cursor. Arguments: core, job. -/
  | mctlResume
  /-- R318: A store to MCTL cancels a held matrix job. Arguments: core, job. -/
  | mctlCancel
  /-- R323: A store to CUKICK starts a copy chain at a local head. Arguments: core, slot, value. -/
  | cukick
  /-- R323: A store to CLKICK starts a collective from a GLOBAL descriptor. Arguments: core, slot, value. -/
  | clkick
  /-- R132: The copy unit begins walking a started or queued chain. Arguments: cluster. -/
  | chainStart
  /-- R329: Copies the window of a tensor layout record. Arguments: cluster, chain. -/
  | copy
  /-- R104: Deals a burst over several cores' local memories under a pattern. Arguments: cluster, chain. -/
  | deal
  /-- R326: Gathers rows by an index list. Arguments: cluster, chain. -/
  | gath
  /-- R326: Chain loop entry that advances a record and jumps back. Arguments: cluster, chain. -/
  | loopEntry
  /-- R326: Reads a dword and jumps when a test holds. Arguments: cluster, chain. -/
  | cond
  /-- R326: Chain entry that jumps to a target. Arguments: cluster, chain. -/
  | jump
  /-- R106: Writes an arrival flag as a release at pod scope after the payload. Arguments: cluster, chain. -/
  | flag
  /-- R326: Sends a one-unit message from the chain. Arguments: cluster, chain. -/
  | note
  /-- R326: Ends the chain and completes its job. Arguments: cluster, chain. -/
  | stop
  /-- R370: A chain carried on past switch-out stops 2 ms after ST. Arguments: cluster, chain. -/
  | chainCarryOnStop
  /-- R331: The rendezvous handshake completes or fails with COLLRDV. Arguments: ctx, tag. -/
  | collectiveRendezvous
  /-- R355: After 100 ms of running time, waiting participants end FAULTED with COLLRDV. Arguments: ctx, tag. -/
  | rendezvousTimeout
  /-- R332: Collective allreduce operation. Arguments: die, job. -/
  | allreduce
  /-- R332: Collective reduce-scatter operation. Arguments: die, job. -/
  | reduceScatter
  /-- R332: Collective allgather operation. Arguments: die, job. -/
  | allgather
  /-- R332: Collective broadcast operation. Arguments: die, job. -/
  | broadcast
  /-- R332: Collective all-to-all operation. Arguments: die, job. -/
  | allToAll
  /-- R332: A participant's collective job completes as a release at sys. Arguments: die, job. -/
  | collectiveComplete
  /-- R161: The pod dispatcher accepts a launch and sends it to the package dispatchers. Arguments: ctx. -/
  | launchAccept
  /-- R351: A lower dispatcher asks its parent for as many blocks as it has room for. Arguments: die. -/
  | roomRequest
  /-- R162: A parent dispatcher grants the lowest undealt block indices. Arguments: die. -/
  | blockGrant
  /-- R159: A die dispatcher places a block, loads its image and sends start messages. Arguments: die. -/
  | blockRelease
  /-- R159: A block retires once all cores have exited and its jobs completed. Arguments: cluster. -/
  | blockRetire
  /-- R166: A block's first fault is reported up the dispatcher hierarchy. Arguments: cluster. -/
  | blockFaultReport
  /-- R164: A grid triggers and its TRIG word is written. Arguments: ctx, gridId. -/
  | gridTrigger
  /-- R165: The pod dispatcher writes the grid's completion record. Arguments: ctx, gridId. -/
  | gridComplete
  /-- R167: Cancellation takes effect at one point at the pod dispatcher. Arguments: ctx, gridId. -/
  | gridCancelPoint
  /-- R167: A cancel reaches a dispatcher, dropping undealt blocks and marking released blocks stopping. Arguments: ctx, gridId, pkg. -/
  | cancelArrive
  /-- R396: A package dispatcher acknowledges a cancel to the pod dispatcher. Arguments: ctx, gridId, pkg. -/
  | cancelAck
  /-- R167: A core of a stopping block acts as gexit once its untimed activations have ended. Arguments: core. -/
  | blockStop
  /-- R169: A ready grid node launches its record. Arguments: queue, node. -/
  | graphGridNode
  /-- R169: A ready copy node runs its chain. Arguments: queue, node. -/
  | graphCopyNode
  /-- R169: A ready signal node writes its value as a release. Arguments: queue, node. -/
  | graphSignalNode
  /-- R169: A ready conditional node runs its THEN or ELSE graph. Arguments: queue, node. -/
  | graphConditionalNode
  /-- R169: A ready loop node runs its body while its word is nonzero. Arguments: queue, node. -/
  | graphLoopNode
  /-- R169: A ready switch node runs the selected case graph. Arguments: queue, node. -/
  | graphSwitchNode
  /-- R348: A finished graph's result record is written. Arguments: queue. -/
  | graphFinish
  /-- R346: A doorbell TAIL write lets the firmware consume ring entries. Arguments: queue, value. -/
  | tailWrite
  /-- R352: The policy picks which ready queue's grid is accepted next. Arguments: ctx. -/
  | policyPick
  /-- R347: Ring entry that is done when consumed. Arguments: queue. -/
  | nop
  /-- R347: Ring entry that launches a grid. Arguments: queue. -/
  | grid
  /-- R347: Ring entry that checks and runs a graph. Arguments: queue. -/
  | graph
  /-- R347: Ring entry that writes a value once earlier entries and grids are done. Arguments: queue. -/
  | signal
  /-- R347: Ring entry done once an acquire reads a value at least VALUE. Arguments: queue. -/
  | wait
  /-- R349: A destroyed queue's state is released once its grids have retired. Arguments: queue. -/
  | queueRelease
  /-- R350: A running context's slice expires and a switch is scheduled. Arguments: ctx. -/
  | sliceEnd
  /-- R350: Scheduling clusters of the partition agree a switch point over Ovkoun. Arguments: ctx, st. -/
  | stAgreement
  /-- R366: At ST each core stops taking entries and wakes parked slots. Arguments: ctx. -/
  | switchPoint
  /-- R367: An overrunning slot is stopped and saved as a SLOT section. Arguments: core, slot. -/
  | overrunStop
  /-- R366: A core saves its section once every slot is empty or stopped. Arguments: core. -/
  | coreSectionSave
  /-- R368: The switch-out completes and VALID is written. Arguments: ctx. -/
  | switchOutComplete
  /-- R373: A Loft image is checked and restored and the context resumes. Arguments: ctx. -/
  | switchIn
  /-- R376: The dump firmware begins a primary record in an EMPTY Attic. Arguments: pkg. -/
  | dumpStart
  /-- R376: The dump writes STATE DONE as a release and tells the host. Arguments: pkg. -/
  | dumpComplete
  /-- R357: Every 1 ms the firmware increments the heartbeat dword. Arguments: pkg. -/
  | heartbeat
  /-- R357: Ladder rung 1 reloads the command-processing cores. Arguments: pkg. -/
  | commandProcessorRestart
  /-- R357: Ladder rung 2 reloads every Garret core. Arguments: pkg. -/
  | garretReload
  /-- R357: Ladder rung 3 saves running contexts and resets the engines. Arguments: pkg. -/
  | contextPreservingEngineReset
  /-- R357: Ladder rung 4 resets a die, putting its running contexts in RESET. Arguments: die. -/
  | dieReset
  /-- R33: The package resets, writing root nodes and clearing keys and stamps. Arguments: pkg. -/
  | packageReset
  /-- R358: A loaded image is checked and the inactive slot marked STAGED. Arguments: pkg, addr, len, ok. -/
  | firmwareImageStage
  /-- R358: A FWCTL GO write quiesces the queues and hands over to the staged image. Arguments: pkg. -/
  | liveUpdate
  /-- R358: With no heartbeat within 5 ms of handover, control returns to the old slot. Arguments: pkg. -/
  | liveUpdateRollback
  /-- R380: Creates a context with its seed capabilities and first Loft image. Arguments: pkg. -/
  | create
  /-- R381: Resets a context on every package of its partition. Arguments: pkg. -/
  | reset
  /-- R398: Returns a context in RESET to SAVED as a fresh context. Arguments: pkg. -/
  | reinit
  /-- R380: Moves a context to RETIRING. Arguments: pkg. -/
  | destroy
  /-- R56: Freezes every node a context holds and marks it frozen. Arguments: pkg. -/
  | freeze
  /-- R56: Clears a context's frozen flags and mark. Arguments: pkg. -/
  | unfreeze
  /-- R76: Loads an AES-XTS key pair into a key slot. Arguments: pkg. -/
  | keyload
  /-- R380: Sets a key slot EMPTY. Arguments: pkg. -/
  | keyclear
  /-- R81: Enables or disables dirty tracking of ranges for a context. Arguments: pkg. -/
  | track
  /-- R393: Allocates a timeline id to a context with GVT (0,0,0). Arguments: pkg. -/
  | timelineAllocate
  /-- R380: Frees a timeline id of a context. Arguments: pkg. -/
  | timelineFree
  /-- R350: Names a context's partition, slice and cap, setting eligibility. Arguments: pkg. -/
  | partition
  /-- R371: Names a context's Loft area on a package. Arguments: pkg. -/
  | loft
  /-- R375: Names a context's Attic. Arguments: pkg. -/
  | attic
  /-- R377: Rearms a context's Attic. Arguments: pkg. -/
  | atticrearm
  /-- R346: Creates a host queue with its ring. Arguments: pkg. -/
  | qcreate
  /-- R349: Destroys a host queue at one point. Arguments: pkg. -/
  | qdestroy
  /-- R354: Loads and checks a scheduling policy program. Arguments: pkg. -/
  | policy
  /-- R384: Sets a context's time offset. Arguments: pkg. -/
  | timeoff
  /-- R386: Arranges a pod-wide sample at a named pod time. Arguments: pkg. -/
  | sample
  /-- R386: At the named pod time, cores latch slot state and the record is written. Arguments: pkg. -/
  | sampleLatch
  /-- R387: Halts every slot of a core at its next bundle boundary. Arguments: pkg. -/
  | dbgHalt
  /-- R387: Returns halted slots to their earlier states. Arguments: pkg. -/
  | dbgResume
  /-- R387: Issues one bundle and halts the core again. Arguments: pkg. -/
  | dbgStep
  /-- R387: Makes brk halt the core instead of trapping. Arguments: pkg. -/
  | dbgBrken
  /-- R387: Turns on trace records for the core. Arguments: pkg. -/
  | dbgTrace
  /-- R389: Checks an unlock token and opens the debug port after resetting contexts. Arguments: pkg. -/
  | unlock
  /-- R400: Sends a root map or unmap request unit to the package's mapping engine. Arguments: pkg. -/
  | spacereq
  /-- R380: Reads dwords 0-4 of a Cellar node into the mailbox arguments. Arguments: pkg. -/
  | noderead
  /-- R399: Writes a tagged handler-table entry of a context. Arguments: pkg. -/
  | htwrite
  /-- R399: Writes a context's HTBASE. Arguments: pkg. -/
  | htwriteBase
  /-- R380: An unassigned command code completes with ARG and changes nothing. Arguments: pkg. -/
  | mailboxUnassignedCode
  /-- R384: A write to PMREQ starts a performance-count request. Arguments: ctx, value. -/
  | pmreq
  /-- R384: The performance-count answer arrives in PMVAL. Arguments: ctx. -/
  | pmAnswer
  /-- R385: A 32-bit read of the low half of PMVAL or TIMEMIR latches the high half. Arguments: core, slot, value. -/
  | halfReadLatch
  /-- R16: A store to a register with no behaviour of its own sets its fields. Arguments: core, slot, addr, len, value. -/
  | controlRegisterWrite
  /-- R134: A service core performs a host posted write as a release at sys. Arguments: pkg, barNo, addr, len, value. -/
  | hostPostedWrite
  /-- R134: A service core performs a host read at the home. Arguments: pkg, barNo, addr, len. -/
  | hostRead
  /-- R390: SPDM request answered through DOE. Arguments: pkg. -/
  | getVersion
  /-- R390: SPDM request answered through DOE. Arguments: pkg. -/
  | getCapabilities
  /-- R390: SPDM request answered through DOE. Arguments: pkg. -/
  | negotiateAlgorithms
  /-- R390: SPDM request answered through DOE. Arguments: pkg. -/
  | getDigests
  /-- R390: SPDM request answered through DOE. Arguments: pkg. -/
  | getCertificate
  /-- R390: SPDM challenge signed with ML-DSA-65. Arguments: pkg, nonce. -/
  | challenge
  /-- R390: SPDM request returning the measurement indices. Arguments: pkg, index. -/
  | getMeasurements
  /-- R391: One cluster leaves reset every 64 mesh cycles in row-major order. Arguments: die. -/
  | clusterResetRelease
  /-- R391: A matrix engine raises its MAC rate by one quarter after at least 2 µs. Arguments: cluster. -/
  | matrixRampStep
  /-- R391: After 100 µs without a K-step, an engine must ramp again. Arguments: cluster. -/
  | matrixIdleTimeout
  /-- R392: Every 1 ms the device lowers or raises a die's engines by one ramp step. Arguments: die, temp, power. -/
  | thermalThrottleStep
  /-- R392: At 110 °C or a rail out of range the device reports a fatal error and holds reset. Arguments: pkg. -/
  | thermalFatal
  /-- R392: The host resets the PCIe link and the package starts as at power-on. Arguments: pkg. -/
  | pcieLinkReset
  /-- R48: The source mapping engine receives the destination home engine's reservation answer and then creates or splits the nodes, or refuses CELLARFULL or OVERLAP and has the reservation dropped. Arguments: pkg. -/
  | reservationAnswer
  /-- R47: When a map or grant completes DONE, the destination home engine ends the reservation that held the pages and records the new node in its order. Arguments: pkg. -/
  | reservationRelease
  deriving DecidableEq, Repr

/-- A bundle (09 R212): the L bit, the stall count, the C-slot and the A-slot instruction. -/
structure Bundle where
  lone  : Bool
  stall : BitVec 3
  c     : Instr
  a     : Instr
  deriving DecidableEq, Repr

end Sys2Proof
end

