-- ==== Sys2Proof/WellFormed.lean ====
section
/-! DEFINITION. Which field values an encoded instruction may hold: the reserved values of 09 R215, R223, R226, R227,
R229 and of the entries of files 10 to 12. A value that fails is trapped by the decoder (ILLEGAL or RESFIELD). -/

namespace Sys2Proof

/-- 09 R223: with L = 1 the short field must be zero. -/
def extOk (ext : Option (BitVec 32)) (zero : Bool) : Bool :=
  match ext with
  | none => true
  | some _ => zero

/-- 08 R202, 10 R238: rounding codes 5 and 6 are reserved. -/
def rndOk (r : BitVec 3) : Bool := r != 5 && r != 6

/-- 09 R226: format codes that name a format. -/
def fmtOk (f : BitVec 5) : Bool :=
  decide (f.toNat < 10) || (decide (0x11 ≤ f.toNat) && decide (f.toNat < 0x18)) || decide (0x19 ≤ f.toNat)

/-- 10 R252: format codes that `vcvt` admits. -/
def vfmtOk (f : BitVec 5) : Bool := fmtOk f && f != 3 && f != 7

/-- 09 R226, 10 R246: vector types 0 to 2, 4 to 6, 8 and 9. -/
def vtyOk (t : BitVec 4) : Bool := decide (t.toNat < 10) && t != 3 && t != 7

/-- `bf16` or `f32` (09 R226). -/
def tyFloat (t : BitVec 4) : Bool := t == 8 || t == 9

/-- Element width in bits of a vector type (10 R237). -/
def tyWidth (t : BitVec 4) : Nat :=
  if t == 0 || t == 4 then 8 else if t == 1 || t == 5 || t == 8 then 16 else 32

/-- Elements of a vector of a type (10 R237). -/
def tyElems (t : BitVec 4) : Nat := 512 / tyWidth t

/-- 09 R231: the control registers that exist. -/
def csrOk (c : BitVec 10) : Bool :=
  decide (c.toNat ≤ 6) || (decide (0x10 ≤ c.toNat) && decide (c.toNat ≤ 0x16)) || c == 0x20 ||
    (decide (0x40 ≤ c.toNat) && decide (c.toNat ≤ 0x47))

/-- The field values that no trap of 09 R214 steps 1 to 3 refuses. -/
def Instr.wf : Instr → Bool
  | .cnop => true
  | .br off ext => extOk ext (off == 0)
  | .bcc cnd _ _ off ext => extOk ext (off == 0) && decide (cnd.toNat < 6)
  | .jal _ off ext => extOk ext (off == 0)
  | .jalr _ _ _ => true
  | .loop d off ext => extOk ext (off == 0) && d != 0
  | .li _ imm ext => extOk ext (imm == 0)
  | .liHi _ _ => true
  | .ldI8 _ _ _ _ disp ext => extOk ext (disp == 0)
  | .ldN8 _ _ _ _ disp ext => extOk ext (disp == 0)
  | .ldI16 _ _ _ _ disp ext => extOk ext (disp == 0)
  | .ldN16 _ _ _ _ disp ext => extOk ext (disp == 0)
  | .ldI32 _ _ _ _ disp ext => extOk ext (disp == 0)
  | .ldN32 _ _ _ _ disp ext => extOk ext (disp == 0)
  | .ld64 _ _ _ _ disp ext => extOk ext (disp == 0)
  | .st8 _ _ _ _ disp ext => extOk ext (disp == 0)
  | .st16 _ _ _ _ disp ext => extOk ext (disp == 0)
  | .st32 _ _ _ _ disp ext => extOk ext (disp == 0)
  | .st64 _ _ _ _ disp ext => extOk ext (disp == 0)
  | .vld _ _ _ _ disp ext => extOk ext (disp == 0)
  | .vst _ _ _ _ disp ext => extOk ext (disp == 0)
  | .vlds _ _ _ _ sz _ => sz != 3
  | .vldx _ _ _ _ sz _ => sz != 3
  | .vstx _ _ _ _ sz _ => sz != 3
  | .ldc _ _ _ _ => true
  | .stc _ _ _ _ => true
  | .ldacq _ _ _ _ sz _ => decide (2 ≤ sz.toNat)
  | .strel _ _ _ _ sz _ => decide (2 ≤ sz.toNat)
  | .waita _ _ _ sz _ => decide (2 ≤ sz.toNat)
  | .amo _ _ _ op _ _ _ => decide (op.toNat < 10)
  | .cmov _ _ => true
  | .cadd _ _ _ _ => true
  | .cbnd _ _ _ _ => true
  | .cprm _ _ _ => true
  | .cspc _ _ spc => decide (spc.toNat < 6)
  | .cget _ _ fld => decide (fld.toNat < 11)
  | .ctag _ _ => true
  | .map _ _ _ _ _ => true
  | .grant _ _ _ _ _ => true
  | .unmap _ _ _ _ => true
  | .rwin _ _ _ _ => true
  | .mq _ _ _ _ => true
  | .dharv _ _ _ _ => true
  | .pkset _ => true
  | .pksetKey _ _ => true
  | .send _ v un => decide (v.toNat + un.toNat ≤ 31)
  | .sendt _ v un _ => decide (v.toNat + un.toNat ≤ 31)
  | .ctrarm _ _ _ => true
  | .done => true
  | .yield => true
  | .qstat _ => true
  | .abort _ => true
  | .gvtrd _ => true
  | .lvtrd _ => true
  | .stdef _ _ _ _ disp ext => extOk ext (disp == 0)
  | .jobwait _ _ => true
  | .jobq _ _ => true
  | .copygo _ _ => true
  | .clgo _ _ => true
  | .skeep _ => true
  | .sksum _ _ => true
  | .gang _ sz => sz != 3
  | .disband => true
  | .xchg _ _ esz => esz != 3
  | .bar lvl => lvl != 3
  | .glaunch _ _ => true
  | .gtrig => true
  | .gexit _ => true
  | .gid _ _ => true
  | .gcancel _ => true
  | .trap _ => true
  | .xret => true
  | .brk _ => true
  | .idle => true
  | .fence kind _ => kind != 0
  | .csrr _ csr => csrOk csr
  | .csrw _ _ csr => csrOk csr
  | .csrs _ _ csr => csrOk csr
  | .csrc _ _ csr => csrOk csr
  | .anop => true
  | .add _ _ _ => true
  | .sub _ _ _ => true
  | .and _ _ _ => true
  | .or _ _ _ => true
  | .xor _ _ _ => true
  | .shl _ _ _ => true
  | .shr _ _ _ => true
  | .sra _ _ _ => true
  | .slt _ _ _ => true
  | .sltn _ _ _ => true
  | .min _ _ _ => true
  | .max _ _ _ => true
  | .minn _ _ _ => true
  | .maxn _ _ _ => true
  | .mul _ _ _ => true
  | .mulh _ _ _ => true
  | .mulhn _ _ _ => true
  | .div _ _ _ => true
  | .divn _ _ _ => true
  | .rem _ _ _ => true
  | .remn _ _ _ => true
  | .clz _ _ => true
  | .ctz _ _ => true
  | .popc _ _ => true
  | .addi _ _ _ => true
  | .andi _ _ _ => true
  | .ori _ _ _ => true
  | .xori _ _ _ => true
  | .shli _ _ _ => true
  | .shri _ _ _ => true
  | .srai _ _ _ => true
  | .slti _ _ _ => true
  | .fadd _ _ _ rnd _ => rndOk rnd
  | .fsub _ _ _ rnd _ => rndOk rnd
  | .fmul _ _ _ rnd _ => rndOk rnd
  | .ffma _ _ _ _ rnd _ => rndOk rnd
  | .fmin _ _ _ _ => true
  | .fmax _ _ _ _ => true
  | .fsgn _ _ _ sbf _ => decide (sbf.toNat < 3)
  | .fcmp _ _ _ sbf _ => decide (sbf.toNat < 7)
  | .fclass _ _ _ => true
  | .fcvt _ _ tof frf rnd _ => fmtOk tof && fmtOk frf && rndOk rnd
  | .vadd _ _ _ _ ty _ rnd => vtyOk ty && rndOk rnd
  | .vsub _ _ _ _ ty _ rnd => vtyOk ty && rndOk rnd
  | .vmul _ _ _ _ ty _ rnd => vtyOk ty && rndOk rnd
  | .vfma _ _ _ _ ty _ rnd => vtyOk ty && rndOk rnd
  | .vmin _ _ _ _ ty rnd => vtyOk ty && rndOk rnd
  | .vmax _ _ _ _ ty rnd => vtyOk ty && rndOk rnd
  | .vabs _ _ _ ty sat rnd => vtyOk ty && rndOk rnd && (!tyFloat ty || sat == 0)
  | .vneg _ _ _ ty sat rnd => vtyOk ty && rndOk rnd && (!tyFloat ty || sat == 0)
  | .vand _ _ _ _ => true
  | .vor _ _ _ _ => true
  | .vxor _ _ _ _ => true
  | .vshl _ _ _ _ ty => vtyOk ty && !tyFloat ty
  | .vshr _ _ _ _ ty => vtyOk ty && !tyFloat ty
  | .vsra _ _ _ _ ty => vtyOk ty && !tyFloat ty
  | .vclamp _ _ _ _ ty rnd => vtyOk ty && rndOk rnd
  | .vcmp _ _ _ _ ty cnd => vtyOk ty && decide (cnd.toNat < 7)
  | .vsel _ _ _ _ ty rnd => vtyOk ty && rndOk rnd
  | .vcvt _ _ tof _ frf rnd => vfmtOk tof && vfmtOk frf && rndOk rnd
  | .vcvtSat _ _ tof _ frf rnd => vfmtOk tof && vfmtOk frf && rndOk rnd
  | .vsfu _ _ fn _ ty rnd => decide (fn.toNat < 8) && tyFloat ty && rndOk rnd
  | .vred _ _ fn _ ty rnd => decide (fn.toNat < 3) && (ty == 2 || ty == 6 || ty == 9) && rndOk rnd
  | .vdot _ _ _ _ ty rnd => tyFloat ty && rndOk rnd
  | .vperm _ _ _ _ ty rnd => vtyOk ty && rndOk rnd
  | .vsplat _ _ _ ty rnd => vtyOk ty && rndOk rnd
  | .vmovg _ _ idx ty => vtyOk ty && decide (idx.toNat < tyElems ty)
  | .vmovl _ _ idx ty => vtyOk ty && decide (idx.toNat < tyElems ty)
  | .kand _ _ _ => true
  | .kor _ _ _ => true
  | .kxor _ _ _ => true
  | .knot _ _ => true
  | .kmovK _ _ => true
  | .kpop _ _ => true
  | .kmovKg _ _ => true
  | .kmovGk _ _ => true
  | .policyRet _ => true
  | .policyLi _ _ => true
  | .policyAdd _ _ _ => true
  | .policySub _ _ _ => true
  | .policyAnd _ _ _ => true
  | .policyOr _ _ _ => true
  | .policyShli _ _ _ => true
  | .policyShri _ _ _ => true
  | .policyMinn _ _ _ => true
  | .policyMaxn _ _ _ => true
  | .policyLdf _ _ _ => true
  | .policyLds _ _ => true
  | .policySts _ _ => true
  | .policyBltn _ _ _ => true
  | .policyBeq _ _ _ => true
  | .policyArgmax _ _ => true
  | .policyArgmin _ _ => true
  | .stallExpire => true
  | .fixedLatencyWriteback => true
  | .variableResultLand => true
  | .activate => true
  | .hwdogExpire => true
  | .spuriousWake => true
  | .memoryIssue => true
  | .writeReach => true
  | .writePerform => true
  | .readReturn => true
  | .viewAdd => true
  | .hostCompletion => true
  | .walkStart => true
  | .walkComplete => true
  | .outboundDepart => true
  | .messageArrive => true
  | .ejectAccept => true
  | .antiMessageArrive => true
  | .gangDecision => true
  | .barrierComplete => true
  | .gvtRoundStart => true
  | .gvtPass => true
  | .gvtAdopt => true
  | .commit => true
  | .mapRequest => true
  | .grantRequest => true
  | .grantComplete => true
  | .unmapRequest => true
  | .shootdownAck => true
  | .unmapComplete => true
  | .reservation => true
  | .reservationDrop => true
  | .windowUpdate => true
  | .mqQuery => true
  | .mapResult => true
  | .contextFree => true
  | .harvestSwap => true
  | .harvestComplete => true
  | .trackEnableComplete => true
  | .matrixAccept => true
  | .mma => true
  | .mmz => true
  | .kStep => true
  | .accld => true
  | .accst => true
  | .wld => true
  | .fctx => true
  | .stab => true
  | .atab => true
  | .msync => true
  | .stageEmptyWrite => true
  | .matrixCommandComplete => true
  | .mctlResume => true
  | .mctlCancel => true
  | .cukick => true
  | .clkick => true
  | .chainStart => true
  | .copy => true
  | .deal => true
  | .gath => true
  | .loopEntry => true
  | .cond => true
  | .jump => true
  | .flag => true
  | .note => true
  | .stop => true
  | .chainCarryOnStop => true
  | .collectiveRendezvous => true
  | .rendezvousTimeout => true
  | .allreduce => true
  | .reduceScatter => true
  | .allgather => true
  | .broadcast => true
  | .allToAll => true
  | .collectiveComplete => true
  | .launchAccept => true
  | .roomRequest => true
  | .blockGrant => true
  | .blockRelease => true
  | .blockRetire => true
  | .blockFaultReport => true
  | .gridTrigger => true
  | .gridComplete => true
  | .gridCancelPoint => true
  | .cancelArrive => true
  | .cancelAck => true
  | .blockStop => true
  | .graphGridNode => true
  | .graphCopyNode => true
  | .graphSignalNode => true
  | .graphConditionalNode => true
  | .graphLoopNode => true
  | .graphSwitchNode => true
  | .graphFinish => true
  | .tailWrite => true
  | .policyPick => true
  | .nop => true
  | .grid => true
  | .graph => true
  | .signal => true
  | .wait => true
  | .queueRelease => true
  | .sliceEnd => true
  | .stAgreement => true
  | .switchPoint => true
  | .overrunStop => true
  | .coreSectionSave => true
  | .switchOutComplete => true
  | .switchIn => true
  | .dumpStart => true
  | .dumpComplete => true
  | .heartbeat => true
  | .commandProcessorRestart => true
  | .garretReload => true
  | .contextPreservingEngineReset => true
  | .dieReset => true
  | .packageReset => true
  | .firmwareImageStage => true
  | .liveUpdate => true
  | .liveUpdateRollback => true
  | .create => true
  | .reset => true
  | .reinit => true
  | .destroy => true
  | .freeze => true
  | .unfreeze => true
  | .keyload => true
  | .keyclear => true
  | .track => true
  | .timelineAllocate => true
  | .timelineFree => true
  | .partition => true
  | .loft => true
  | .attic => true
  | .atticrearm => true
  | .qcreate => true
  | .qdestroy => true
  | .policy => true
  | .timeoff => true
  | .sample => true
  | .sampleLatch => true
  | .dbgHalt => true
  | .dbgResume => true
  | .dbgStep => true
  | .dbgBrken => true
  | .dbgTrace => true
  | .unlock => true
  | .spacereq => true
  | .noderead => true
  | .htwrite => true
  | .htwriteBase => true
  | .mailboxUnassignedCode => true
  | .pmreq => true
  | .pmAnswer => true
  | .halfReadLatch => true
  | .controlRegisterWrite => true
  | .hostPostedWrite => true
  | .hostRead => true
  | .getVersion => true
  | .getCapabilities => true
  | .negotiateAlgorithms => true
  | .getDigests => true
  | .getCertificate => true
  | .challenge => true
  | .getMeasurements => true
  | .clusterResetRelease => true
  | .matrixRampStep => true
  | .matrixIdleTimeout => true
  | .thermalThrottleStep => true
  | .thermalFatal => true
  | .pcieLinkReset => true
  | .reservationAnswer => true
  | .reservationRelease => true

/-- The constructors of the C slot (09 R228). -/
def Instr.isC (i : Instr) : Bool := decide (i.ctorIdx < 79)
/-- The constructors of the A slot (09 R230). -/
def Instr.isA (i : Instr) : Bool := decide (79 ≤ i.ctorIdx) && decide (i.ctorIdx < 156)
/-- The policy words (13 R353). -/
def Instr.isPolicy (i : Instr) : Bool := decide (156 ≤ i.ctorIdx) && decide (i.ctorIdx < 173)

/-- The EXT word an instruction carries, if it is lone for its own sake (09 R223). -/
def Instr.ext? : Instr → Option (BitVec 32)
  | .br _ ext => ext
  | .bcc _ _ _ _ ext => ext
  | .jal _ _ ext => ext
  | .loop _ _ ext => ext
  | .li _ _ ext => ext
  | .liHi _ ext => some ext
  | .ldI8 _ _ _ _ _ ext => ext
  | .ldN8 _ _ _ _ _ ext => ext
  | .ldI16 _ _ _ _ _ ext => ext
  | .ldN16 _ _ _ _ _ ext => ext
  | .ldI32 _ _ _ _ _ ext => ext
  | .ldN32 _ _ _ _ _ ext => ext
  | .ld64 _ _ _ _ _ ext => ext
  | .st8 _ _ _ _ _ ext => ext
  | .st16 _ _ _ _ _ ext => ext
  | .st32 _ _ _ _ _ ext => ext
  | .st64 _ _ _ _ _ ext => ext
  | .vld _ _ _ _ _ ext => ext
  | .vst _ _ _ _ _ ext => ext
  | .vlds _ _ _ _ _ ext => ext
  | .vldx _ _ _ _ _ ext => ext
  | .vstx _ _ _ _ _ ext => ext
  | .ldc _ _ _ ext => ext
  | .stc _ _ _ ext => ext
  | .ldacq _ _ _ _ _ ext => ext
  | .strel _ _ _ _ _ ext => ext
  | .waita _ _ _ _ ext => ext
  | .amo _ _ _ _ _ _ ext => ext
  | .stdef _ _ _ _ _ ext => ext
  | _ => none

/-- The instructions that take EXT in a lone bundle (09 R223). -/
def Instr.takesExt : Instr → Bool
  | .br _ _ => true
  | .bcc _ _ _ _ _ => true
  | .jal _ _ _ => true
  | .loop _ _ _ => true
  | .li _ _ _ => true
  | .liHi _ _ => true
  | .ldI8 _ _ _ _ _ _ => true
  | .ldN8 _ _ _ _ _ _ => true
  | .ldI16 _ _ _ _ _ _ => true
  | .ldN16 _ _ _ _ _ _ => true
  | .ldI32 _ _ _ _ _ _ => true
  | .ldN32 _ _ _ _ _ _ => true
  | .ld64 _ _ _ _ _ _ => true
  | .st8 _ _ _ _ _ _ => true
  | .st16 _ _ _ _ _ _ => true
  | .st32 _ _ _ _ _ _ => true
  | .st64 _ _ _ _ _ _ => true
  | .vld _ _ _ _ _ _ => true
  | .vst _ _ _ _ _ _ => true
  | .vlds _ _ _ _ _ _ => true
  | .vldx _ _ _ _ _ _ => true
  | .vstx _ _ _ _ _ _ => true
  | .ldc _ _ _ _ => true
  | .stc _ _ _ _ => true
  | .ldacq _ _ _ _ _ _ => true
  | .strel _ _ _ _ _ _ => true
  | .waita _ _ _ _ _ => true
  | .amo _ _ _ _ _ _ _ => true
  | .stdef _ _ _ _ _ _ => true
  | _ => false

/-- A bundle that the decoder can give: slots filled by their own constructors, fields well formed, a lone bundle's A
slot `anop`, and EXT carried by an instruction that takes it exactly where L = 1 (09 R212, R223). -/
def Bundle.wf (b : Bundle) : Bool :=
  b.c.isC && b.a.isA && b.c.wf && b.a.wf && (!b.c.takesExt || b.c.ext?.isSome == b.lone) && (!b.lone || decide (b.a = Instr.anop))

end Sys2Proof
end

