-- ==== Sys2Proof/Decode.lean ====
section
/-! DEFINITION. The decoder and the encoder of bundles and policy words (09 R212 to R231, 13 R353), written from the
encoding tables of the spec. Decoding is total: every word that is no instruction is refused with the trap that R214
and R215 give it. The encoder stands after it, and the registers that a bundle reads and writes (R213, R220). -/

namespace Sys2Proof

/-- The encoding traps of a bundle, in the order of 09 R214: which trap it is and the XVAL2 it reports. -/
inductive EncTrap where
  /-- ILLEGAL in word 0. -/
  | illegalC
  /-- RESFIELD in word 0. -/
  | resC
  /-- RESFIELD in EXT. -/
  | resExt
  /-- ILLEGAL in the A word. -/
  | illegalA
  /-- RESFIELD in the A word. -/
  | resA
  /-- A bundle-combination check: a duplicate destination, or `trap` beside an A instruction (ILLEGAL). -/
  | combo
  deriving DecidableEq, Repr

/-- The XVAL2 of an encoding trap (09 R214). -/
def EncTrap.xval2 : EncTrap → Nat
  | .illegalC => 0
  | .resC => 0
  | .resExt => 1
  | .illegalA => 2
  | .resA => 2
  | .combo => 3

/-- An encoding trap is ILLEGAL (true) or RESFIELD (09 R214). -/
def EncTrap.isIllegal : EncTrap → Bool
  | .illegalC => true
  | .resC => false
  | .resExt => false
  | .illegalA => true
  | .resA => false
  | .combo => true

/-- A register by file and index (09 R216). -/
inductive RegName where
  | g (i : BitVec 5)
  | v (i : BitVec 5)
  | k (i : BitVec 3)
  | c4 (i : BitVec 4)
  deriving DecidableEq, Repr

/-- The bits [lo + n - 1 : lo] of a word as a field. -/
def fld (w lo n : Nat) : BitVec n := BitVec.ofNat n (w / 2 ^ lo)

/-- A C instruction that takes no EXT: its reserved fields, then a nonzero EXT (09 R214 steps 1 and 2, R215). -/
def take (lone : Bool) (e : Nat) (resOk : Bool) (i : Instr) : Except EncTrap Instr :=
  if !(resOk && i.wf) then .error .resC
  else if lone && e != 0 then .error .resExt
  else .ok i

/-- A C instruction that takes EXT (09 R223). -/
def takeX (resOk : Bool) (i : Instr) : Except EncTrap Instr :=
  if resOk && i.wf then .ok i else .error .resC

/-- An A instruction (09 R214 step 3). -/
def takeA (resOk : Bool) (i : Instr) : Except EncTrap Instr :=
  if resOk && i.wf then .ok i else .error .resA

/-- The C-slot instruction of word 0 (bits 27:0), with the L bit and word 1 (09 R222, R223, R228, R229; fates R215). -/
def decodeC (w : Nat) (lone : Bool) (e : Nat) : Except EncTrap Instr :=
  let ext := if lone then some (BitVec.ofNat 32 e) else none
  match bitsOf w 22 6 with
  | 0x00 => take lone e (bitsOf w 0 22 == 0) (.cnop)
  | 0x01 => takeX (true) (.br (fld w 0 22) ext)
  | 0x02 => if bitsOf w 19 3 < 6 then takeX (true) (.bcc (fld w 19 3) (fld w 14 5) (fld w 9 5) (fld w 0 9) ext) else .error .illegalC
  | 0x03 => takeX (true) (.jal (fld w 17 5) (fld w 0 17) ext)
  | 0x04 => take lone e (true) (.jalr (fld w 17 5) (fld w 12 5) (fld w 0 12))
  | 0x05 => if 0 < bitsOf w 17 5 then takeX (true) (.loop (fld w 17 5) (fld w 0 17) ext) else .error .illegalC
  | 0x06 =>
    if bitsOf w 16 1 == 0 then takeX true (.li (fld w 17 5) (fld w 0 16) ext)
    else if lone && bitsOf w 0 16 == 0 then .ok (.liHi (fld w 17 5) (BitVec.ofNat 32 e)) else .error .resC
  | 0x08 => takeX (true) (.ldI8 (fld w 17 5) (fld w 13 4) (fld w 8 5) (fld w 6 2) (fld w 0 6) ext)
  | 0x09 => takeX (true) (.ldN8 (fld w 17 5) (fld w 13 4) (fld w 8 5) (fld w 6 2) (fld w 0 6) ext)
  | 0x0A => takeX (true) (.ldI16 (fld w 17 5) (fld w 13 4) (fld w 8 5) (fld w 6 2) (fld w 0 6) ext)
  | 0x0B => takeX (true) (.ldN16 (fld w 17 5) (fld w 13 4) (fld w 8 5) (fld w 6 2) (fld w 0 6) ext)
  | 0x0C => takeX (true) (.ldI32 (fld w 17 5) (fld w 13 4) (fld w 8 5) (fld w 6 2) (fld w 0 6) ext)
  | 0x0D => takeX (true) (.ldN32 (fld w 17 5) (fld w 13 4) (fld w 8 5) (fld w 6 2) (fld w 0 6) ext)
  | 0x0E => takeX (true) (.ld64 (fld w 17 5) (fld w 13 4) (fld w 8 5) (fld w 6 2) (fld w 0 6) ext)
  | 0x0F => takeX (true) (.st8 (fld w 17 5) (fld w 13 4) (fld w 8 5) (fld w 6 2) (fld w 0 6) ext)
  | 0x10 => takeX (true) (.st16 (fld w 17 5) (fld w 13 4) (fld w 8 5) (fld w 6 2) (fld w 0 6) ext)
  | 0x11 => takeX (true) (.st32 (fld w 17 5) (fld w 13 4) (fld w 8 5) (fld w 6 2) (fld w 0 6) ext)
  | 0x12 => takeX (true) (.st64 (fld w 17 5) (fld w 13 4) (fld w 8 5) (fld w 6 2) (fld w 0 6) ext)
  | 0x13 => takeX (true) (.vld (fld w 17 5) (fld w 13 4) (fld w 10 3) (fld w 5 5) (fld w 0 5) ext)
  | 0x14 => takeX (true) (.vst (fld w 17 5) (fld w 13 4) (fld w 10 3) (fld w 5 5) (fld w 0 5) ext)
  | 0x15 => match bitsOf w 0 3 with
    | 0 => takeX (true) (.vlds (fld w 17 5) (fld w 13 4) (fld w 8 5) (fld w 5 3) (fld w 3 2) ext)
    | 1 => takeX (true) (.vldx (fld w 17 5) (fld w 13 4) (fld w 8 5) (fld w 5 3) (fld w 3 2) ext)
    | 2 => takeX (true) (.vstx (fld w 17 5) (fld w 13 4) (fld w 8 5) (fld w 5 3) (fld w 3 2) ext)
    | 3 => takeX (bitsOf w 3 5 == 0 && bitsOf w 21 1 == 0) (.ldc (fld w 17 4) (fld w 13 4) (fld w 8 5) ext)
    | 4 => takeX (bitsOf w 3 5 == 0 && bitsOf w 21 1 == 0) (.stc (fld w 17 4) (fld w 13 4) (fld w 8 5) ext)
    | 5 => takeX (true) (.ldacq (fld w 17 5) (fld w 13 4) (fld w 8 5) (fld w 5 3) (fld w 3 2) ext)
    | 6 => takeX (true) (.strel (fld w 17 5) (fld w 13 4) (fld w 8 5) (fld w 5 3) (fld w 3 2) ext)
    | 7 => takeX (bitsOf w 5 3 == 0) (.waita (fld w 17 5) (fld w 13 4) (fld w 8 5) (fld w 3 2) ext)
    | _ => .error .illegalC
  | 0x16 => if bitsOf w 4 4 < 10 then takeX (bitsOf w 0 1 == 0) (.amo (fld w 17 5) (fld w 13 4) (fld w 8 5) (fld w 4 4) (fld w 3 1) (fld w 1 2) ext) else .error .illegalC
  | 0x18 => match bitsOf w 0 2 with
    | 0 => take lone e (bitsOf w 2 12 == 0) (.cmov (fld w 18 4) (fld w 14 4))
    | 1 => take lone e (true) (.cadd (fld w 18 4) (fld w 14 4) (fld w 9 5) (fld w 2 7))
    | 2 => take lone e (true) (.cbnd (fld w 18 4) (fld w 14 4) (fld w 9 5) (fld w 2 7))
    | 3 => take lone e (bitsOf w 9 5 == 0) (.cprm (fld w 18 4) (fld w 14 4) (fld w 2 7))
    | _ => .error .illegalC
  | 0x19 => match bitsOf w 0 2 with
    | 0 => take lone e (bitsOf w 2 8 == 0 && bitsOf w 21 1 == 0) (.cspc (fld w 17 4) (fld w 13 4) (fld w 10 3))
    | 1 => take lone e (bitsOf w 2 4 == 0 && bitsOf w 10 3 == 0) (.cget (fld w 17 5) (fld w 13 4) (fld w 6 4))
    | 2 => take lone e (bitsOf w 2 11 == 0 && bitsOf w 21 1 == 0) (.ctag (fld w 17 4) (fld w 13 4))
    | _ => .error .illegalC
  | 0x1C => match bitsOf w 0 2 with
    | 0 => take lone e (true) (.map (fld w 17 5) (fld w 13 4) (fld w 8 5) (fld w 3 5) (fld w 2 1))
    | 1 => take lone e (true) (.grant (fld w 17 5) (fld w 13 4) (fld w 8 5) (fld w 3 5) (fld w 2 1))
    | 2 => take lone e (bitsOf w 8 5 == 0) (.unmap (fld w 17 5) (fld w 13 4) (fld w 3 5) (fld w 2 1))
    | 3 => take lone e (bitsOf w 2 1 == 0) (.rwin (fld w 17 5) (fld w 13 4) (fld w 8 5) (fld w 3 5))
    | _ => .error .illegalC
  | 0x1D => match bitsOf w 0 2 with
    | 0 => take lone e (bitsOf w 2 1 == 0) (.mq (fld w 17 5) (fld w 13 4) (fld w 8 5) (fld w 3 5))
    | 1 => take lone e (bitsOf w 2 1 == 0) (.dharv (fld w 17 5) (fld w 13 4) (fld w 8 5) (fld w 3 5))
    | 2 =>
      if bitsOf w 13 4 == 0 then take lone e (bitsOf w 17 5 == 0 && bitsOf w 2 6 == 0) (.pkset (fld w 8 5))
      else take lone e (bitsOf w 13 4 == 1 && bitsOf w 2 6 == 0) (.pksetKey (fld w 17 5) (fld w 8 5))
    | _ => .error .illegalC
  | 0x20 => take lone e (bitsOf w 0 10 == 0) (.send (fld w 17 5) (fld w 12 5) (fld w 10 2))
  | 0x21 => take lone e (bitsOf w 0 5 == 0) (.sendt (fld w 17 5) (fld w 12 5) (fld w 10 2) (fld w 5 5))
  | 0x22 => take lone e (bitsOf w 0 7 == 0) (.ctrarm (fld w 17 5) (fld w 12 5) (fld w 7 5))
  | 0x23 => match bitsOf w 0 3 with
    | 0 => take lone e (bitsOf w 3 19 == 0) (.done)
    | 1 => take lone e (bitsOf w 3 19 == 0) (.yield)
    | 2 => take lone e (bitsOf w 3 14 == 0) (.qstat (fld w 17 5))
    | 3 => take lone e (bitsOf w 4 18 == 0) (.abort (fld w 3 1))
    | 4 => take lone e (bitsOf w 3 14 == 0) (.gvtrd (fld w 17 5))
    | 5 => take lone e (bitsOf w 3 14 == 0) (.lvtrd (fld w 17 5))
    | _ => .error .illegalC
  | 0x24 => takeX (true) (.stdef (fld w 17 5) (fld w 13 4) (fld w 8 5) (fld w 6 2) (fld w 0 6) ext)
  | 0x28 => match bitsOf w 0 2 with
    | 0 => take lone e (bitsOf w 2 10 == 0) (.jobwait (fld w 17 5) (fld w 12 5))
    | 1 => take lone e (bitsOf w 2 10 == 0) (.jobq (fld w 17 5) (fld w 12 5))
    | _ => .error .illegalC
  | 0x29 => take lone e (bitsOf w 0 13 == 0) (.copygo (fld w 17 5) (fld w 13 4))
  | 0x2A => take lone e (bitsOf w 0 13 == 0) (.clgo (fld w 17 5) (fld w 13 4))
  | 0x2B => match bitsOf w 0 2 with
    | 0 => take lone e (bitsOf w 2 15 == 0) (.skeep (fld w 17 5))
    | 1 => take lone e (bitsOf w 2 10 == 0) (.sksum (fld w 17 5) (fld w 12 5))
    | _ => .error .illegalC
  | 0x2C => take lone e (bitsOf w 0 15 == 0) (.gang (fld w 17 5) (fld w 15 2))
  | 0x2D => take lone e (bitsOf w 0 22 == 0) (.disband)
  | 0x2E => take lone e (bitsOf w 0 10 == 0) (.xchg (fld w 17 5) (fld w 12 5) (fld w 10 2))
  | 0x2F => take lone e (bitsOf w 0 20 == 0) (.bar (fld w 20 2))
  | 0x30 => take lone e (bitsOf w 0 13 == 0) (.glaunch (fld w 17 5) (fld w 13 4))
  | 0x31 => match bitsOf w 0 2 with
    | 0 => take lone e (bitsOf w 2 20 == 0) (.gtrig)
    | 1 => take lone e (bitsOf w 2 15 == 0) (.gexit (fld w 17 5))
    | 2 => take lone e (bitsOf w 5 12 == 0) (.gid (fld w 17 5) (fld w 2 3))
    | _ => .error .illegalC
  | 0x32 => take lone e (bitsOf w 0 17 == 0) (.gcancel (fld w 17 5))
  | 0x34 => match bitsOf w 0 3 with
    | 0 => take lone e (bitsOf w 3 7 == 0) (.trap (fld w 10 12))
    | 1 => take lone e (bitsOf w 3 19 == 0) (.xret)
    | 2 => take lone e (bitsOf w 3 7 == 0) (.brk (fld w 10 12))
    | 3 => take lone e (bitsOf w 3 19 == 0) (.idle)
    | 4 => take lone e (bitsOf w 8 14 == 0) (.fence (fld w 6 2) (fld w 3 3))
    | _ => .error .illegalC
  | 0x35 => match bitsOf w 0 2 with
    | 0 => take lone e (bitsOf w 12 5 == 0) (.csrr (fld w 17 5) (fld w 2 10))
    | 1 => take lone e (true) (.csrw (fld w 17 5) (fld w 12 5) (fld w 2 10))
    | 2 => take lone e (true) (.csrs (fld w 17 5) (fld w 12 5) (fld w 2 10))
    | 3 => take lone e (true) (.csrc (fld w 17 5) (fld w 12 5) (fld w 2 10))
    | _ => .error .illegalC
  | _ => .error .illegalC

/-- The A-slot instruction of word 1 (09 R225, R230; fates R215). -/
def decodeA (w : Nat) : Except EncTrap Instr :=
  match bitsOf w 26 6 with
  | 0x00 => takeA (bitsOf w 0 26 == 0) (.anop)
  | 0x01 => match bitsOf w 0 5 with
    | 0 => takeA (bitsOf w 5 6 == 0) (.add (fld w 21 5) (fld w 16 5) (fld w 11 5))
    | 1 => takeA (bitsOf w 5 6 == 0) (.sub (fld w 21 5) (fld w 16 5) (fld w 11 5))
    | 2 => takeA (bitsOf w 5 6 == 0) (.and (fld w 21 5) (fld w 16 5) (fld w 11 5))
    | 3 => takeA (bitsOf w 5 6 == 0) (.or (fld w 21 5) (fld w 16 5) (fld w 11 5))
    | 4 => takeA (bitsOf w 5 6 == 0) (.xor (fld w 21 5) (fld w 16 5) (fld w 11 5))
    | 5 => takeA (bitsOf w 5 6 == 0) (.shl (fld w 21 5) (fld w 16 5) (fld w 11 5))
    | 6 => takeA (bitsOf w 5 6 == 0) (.shr (fld w 21 5) (fld w 16 5) (fld w 11 5))
    | 7 => takeA (bitsOf w 5 6 == 0) (.sra (fld w 21 5) (fld w 16 5) (fld w 11 5))
    | 8 => takeA (bitsOf w 5 6 == 0) (.slt (fld w 21 5) (fld w 16 5) (fld w 11 5))
    | 9 => takeA (bitsOf w 5 6 == 0) (.sltn (fld w 21 5) (fld w 16 5) (fld w 11 5))
    | 10 => takeA (bitsOf w 5 6 == 0) (.min (fld w 21 5) (fld w 16 5) (fld w 11 5))
    | 11 => takeA (bitsOf w 5 6 == 0) (.max (fld w 21 5) (fld w 16 5) (fld w 11 5))
    | 12 => takeA (bitsOf w 5 6 == 0) (.minn (fld w 21 5) (fld w 16 5) (fld w 11 5))
    | 13 => takeA (bitsOf w 5 6 == 0) (.maxn (fld w 21 5) (fld w 16 5) (fld w 11 5))
    | 14 => takeA (bitsOf w 5 6 == 0) (.mul (fld w 21 5) (fld w 16 5) (fld w 11 5))
    | 15 => takeA (bitsOf w 5 6 == 0) (.mulh (fld w 21 5) (fld w 16 5) (fld w 11 5))
    | 16 => takeA (bitsOf w 5 6 == 0) (.mulhn (fld w 21 5) (fld w 16 5) (fld w 11 5))
    | 17 => takeA (bitsOf w 5 6 == 0) (.div (fld w 21 5) (fld w 16 5) (fld w 11 5))
    | 18 => takeA (bitsOf w 5 6 == 0) (.divn (fld w 21 5) (fld w 16 5) (fld w 11 5))
    | 19 => takeA (bitsOf w 5 6 == 0) (.rem (fld w 21 5) (fld w 16 5) (fld w 11 5))
    | 20 => takeA (bitsOf w 5 6 == 0) (.remn (fld w 21 5) (fld w 16 5) (fld w 11 5))
    | 21 => takeA (bitsOf w 5 11 == 0) (.clz (fld w 21 5) (fld w 16 5))
    | 22 => takeA (bitsOf w 5 11 == 0) (.ctz (fld w 21 5) (fld w 16 5))
    | 23 => takeA (bitsOf w 5 11 == 0) (.popc (fld w 21 5) (fld w 16 5))
    | _ => .error .illegalA
  | 0x02 => takeA (true) (.addi (fld w 21 5) (fld w 16 5) (fld w 0 16))
  | 0x03 => takeA (true) (.andi (fld w 21 5) (fld w 16 5) (fld w 0 16))
  | 0x04 => takeA (true) (.ori (fld w 21 5) (fld w 16 5) (fld w 0 16))
  | 0x05 => takeA (true) (.xori (fld w 21 5) (fld w 16 5) (fld w 0 16))
  | 0x06 => takeA (bitsOf w 6 10 == 0) (.shli (fld w 21 5) (fld w 16 5) (fld w 0 6))
  | 0x07 => takeA (bitsOf w 6 10 == 0) (.shri (fld w 21 5) (fld w 16 5) (fld w 0 6))
  | 0x08 => takeA (bitsOf w 6 10 == 0) (.srai (fld w 21 5) (fld w 16 5) (fld w 0 6))
  | 0x09 => takeA (true) (.slti (fld w 21 5) (fld w 16 5) (fld w 0 16))
  | 0x10 => match bitsOf w 0 2 with
    | 0 => takeA (bitsOf w 6 5 == 0) (.fadd (fld w 21 5) (fld w 16 5) (fld w 11 5) (fld w 3 3) (fld w 2 1))
    | 1 => takeA (bitsOf w 6 5 == 0) (.fsub (fld w 21 5) (fld w 16 5) (fld w 11 5) (fld w 3 3) (fld w 2 1))
    | 2 => takeA (bitsOf w 6 5 == 0) (.fmul (fld w 21 5) (fld w 16 5) (fld w 11 5) (fld w 3 3) (fld w 2 1))
    | 3 => takeA (true) (.ffma (fld w 21 5) (fld w 16 5) (fld w 11 5) (fld w 6 5) (fld w 3 3) (fld w 2 1))
    | _ => .error .illegalA
  | 0x11 => match bitsOf w 0 3 with
    | 0 => takeA (bitsOf w 4 7 == 0) (.fmin (fld w 21 5) (fld w 16 5) (fld w 11 5) (fld w 3 1))
    | 1 => takeA (bitsOf w 4 7 == 0) (.fmax (fld w 21 5) (fld w 16 5) (fld w 11 5) (fld w 3 1))
    | 2 => takeA (bitsOf w 4 4 == 0) (.fsgn (fld w 21 5) (fld w 16 5) (fld w 11 5) (fld w 8 3) (fld w 3 1))
    | 3 => takeA (bitsOf w 4 4 == 0) (.fcmp (fld w 21 5) (fld w 16 5) (fld w 11 5) (fld w 8 3) (fld w 3 1))
    | 4 => takeA (bitsOf w 4 12 == 0) (.fclass (fld w 21 5) (fld w 16 5) (fld w 3 1))
    | _ => .error .illegalA
  | 0x12 => takeA (bitsOf w 0 2 == 0) (.fcvt (fld w 21 5) (fld w 16 5) (fld w 11 5) (fld w 6 5) (fld w 3 3) (fld w 2 1))
  | 0x18 => takeA (true) (.vadd (fld w 21 5) (fld w 16 5) (fld w 11 5) (fld w 8 3) (fld w 4 4) (fld w 3 1) (fld w 0 3))
  | 0x19 => takeA (true) (.vsub (fld w 21 5) (fld w 16 5) (fld w 11 5) (fld w 8 3) (fld w 4 4) (fld w 3 1) (fld w 0 3))
  | 0x1A => takeA (true) (.vmul (fld w 21 5) (fld w 16 5) (fld w 11 5) (fld w 8 3) (fld w 4 4) (fld w 3 1) (fld w 0 3))
  | 0x1B => takeA (true) (.vfma (fld w 21 5) (fld w 16 5) (fld w 11 5) (fld w 8 3) (fld w 4 4) (fld w 3 1) (fld w 0 3))
  | 0x1C => takeA (bitsOf w 3 1 == 0) (.vmin (fld w 21 5) (fld w 16 5) (fld w 11 5) (fld w 8 3) (fld w 4 4) (fld w 0 3))
  | 0x1D => takeA (bitsOf w 3 1 == 0) (.vmax (fld w 21 5) (fld w 16 5) (fld w 11 5) (fld w 8 3) (fld w 4 4) (fld w 0 3))
  | 0x1E => takeA (bitsOf w 11 5 == 0) (.vabs (fld w 21 5) (fld w 16 5) (fld w 8 3) (fld w 4 4) (fld w 3 1) (fld w 0 3))
  | 0x1F => takeA (bitsOf w 11 5 == 0) (.vneg (fld w 21 5) (fld w 16 5) (fld w 8 3) (fld w 4 4) (fld w 3 1) (fld w 0 3))
  | 0x20 => match bitsOf w 0 3 with
    | 0 => takeA (bitsOf w 3 5 == 0) (.vand (fld w 21 5) (fld w 16 5) (fld w 11 5) (fld w 8 3))
    | 1 => takeA (bitsOf w 3 5 == 0) (.vor (fld w 21 5) (fld w 16 5) (fld w 11 5) (fld w 8 3))
    | 2 => takeA (bitsOf w 3 5 == 0) (.vxor (fld w 21 5) (fld w 16 5) (fld w 11 5) (fld w 8 3))
    | _ => .error .illegalA
  | 0x21 => match bitsOf w 0 3 with
    | 0 => takeA (bitsOf w 3 1 == 0) (.vshl (fld w 21 5) (fld w 16 5) (fld w 11 5) (fld w 8 3) (fld w 4 4))
    | 1 => takeA (bitsOf w 3 1 == 0) (.vshr (fld w 21 5) (fld w 16 5) (fld w 11 5) (fld w 8 3) (fld w 4 4))
    | 2 => takeA (bitsOf w 3 1 == 0) (.vsra (fld w 21 5) (fld w 16 5) (fld w 11 5) (fld w 8 3) (fld w 4 4))
    | _ => .error .illegalA
  | 0x22 => takeA (bitsOf w 3 1 == 0) (.vclamp (fld w 21 5) (fld w 16 5) (fld w 11 5) (fld w 8 3) (fld w 4 4) (fld w 0 3))
  | 0x23 => takeA (bitsOf w 3 1 == 0 && bitsOf w 24 2 == 0) (.vcmp (fld w 21 3) (fld w 16 5) (fld w 11 5) (fld w 8 3) (fld w 4 4) (fld w 0 3))
  | 0x24 => takeA (bitsOf w 3 1 == 0) (.vsel (fld w 21 5) (fld w 16 5) (fld w 11 5) (fld w 8 3) (fld w 4 4) (fld w 0 3))
  | 0x25 => takeA (true) (.vcvt (fld w 21 5) (fld w 16 5) (fld w 11 5) (fld w 8 3) (fld w 3 5) (fld w 0 3))
  | 0x26 => takeA (true) (.vcvtSat (fld w 21 5) (fld w 16 5) (fld w 11 5) (fld w 8 3) (fld w 3 5) (fld w 0 3))
  | 0x27 => if bitsOf w 11 5 < 8 then takeA (bitsOf w 3 1 == 0) (.vsfu (fld w 21 5) (fld w 16 5) (fld w 11 5) (fld w 8 3) (fld w 4 4) (fld w 0 3)) else .error .illegalA
  | 0x28 => if bitsOf w 11 5 < 3 then takeA (bitsOf w 3 1 == 0) (.vred (fld w 21 5) (fld w 16 5) (fld w 11 5) (fld w 8 3) (fld w 4 4) (fld w 0 3)) else .error .illegalA
  | 0x29 => takeA (bitsOf w 3 1 == 0) (.vdot (fld w 21 5) (fld w 16 5) (fld w 11 5) (fld w 8 3) (fld w 4 4) (fld w 0 3))
  | 0x2A => takeA (bitsOf w 3 1 == 0) (.vperm (fld w 21 5) (fld w 16 5) (fld w 11 5) (fld w 8 3) (fld w 4 4) (fld w 0 3))
  | 0x2B => takeA (bitsOf w 3 1 == 0 && bitsOf w 11 5 == 0) (.vsplat (fld w 21 5) (fld w 16 5) (fld w 8 3) (fld w 4 4) (fld w 0 3))
  | 0x2C => takeA (bitsOf w 0 4 == 0 && bitsOf w 8 2 == 0) (.vmovg (fld w 21 5) (fld w 16 5) (fld w 10 6) (fld w 4 4))
  | 0x2D => takeA (bitsOf w 0 4 == 0 && bitsOf w 8 2 == 0) (.vmovl (fld w 21 5) (fld w 16 5) (fld w 10 6) (fld w 4 4))
  | 0x30 => match bitsOf w 0 3 with
    | 0 => takeA (bitsOf w 3 14 == 0) (.kand (fld w 23 3) (fld w 20 3) (fld w 17 3))
    | 1 => takeA (bitsOf w 3 14 == 0) (.kor (fld w 23 3) (fld w 20 3) (fld w 17 3))
    | 2 => takeA (bitsOf w 3 14 == 0) (.kxor (fld w 23 3) (fld w 20 3) (fld w 17 3))
    | 3 => takeA (bitsOf w 3 17 == 0) (.knot (fld w 23 3) (fld w 20 3))
    | 4 => takeA (bitsOf w 3 17 == 0) (.kmovK (fld w 23 3) (fld w 20 3))
    | _ => .error .illegalA
  | 0x31 => match bitsOf w 0 2 with
    | 0 => takeA (bitsOf w 2 16 == 0) (.kpop (fld w 21 5) (fld w 18 3))
    | 1 => takeA (bitsOf w 2 16 == 0) (.kmovKg (fld w 21 5) (fld w 18 3))
    | 2 => takeA (bitsOf w 2 16 == 0) (.kmovGk (fld w 21 5) (fld w 18 3))
    | _ => .error .illegalA
  | _ => .error .illegalA

/-- One policy word (13 R353); `none` for an OP above 0x10 or a nonzero field that the OP does not use (R354). -/
def decodePolicy (w : Nat) : Option Instr :=
  match bitsOf w 26 6 with
  | 0x00 => if bitsOf w 0 20 == 0 && bitsOf w 23 3 == 0 then some (.policyRet (fld w 20 3)) else none
  | 0x01 => if bitsOf w 17 6 == 0 then some (.policyLi (fld w 23 3) (fld w 0 17)) else none
  | 0x02 => if bitsOf w 0 17 == 0 then some (.policyAdd (fld w 23 3) (fld w 20 3) (fld w 17 3)) else none
  | 0x03 => if bitsOf w 0 17 == 0 then some (.policySub (fld w 23 3) (fld w 20 3) (fld w 17 3)) else none
  | 0x04 => if bitsOf w 0 17 == 0 then some (.policyAnd (fld w 23 3) (fld w 20 3) (fld w 17 3)) else none
  | 0x05 => if bitsOf w 0 17 == 0 then some (.policyOr (fld w 23 3) (fld w 20 3) (fld w 17 3)) else none
  | 0x06 => if bitsOf w 17 3 == 0 then some (.policyShli (fld w 23 3) (fld w 20 3) (fld w 0 17)) else none
  | 0x07 => if bitsOf w 17 3 == 0 then some (.policyShri (fld w 23 3) (fld w 20 3) (fld w 0 17)) else none
  | 0x08 => if bitsOf w 0 17 == 0 then some (.policyMinn (fld w 23 3) (fld w 20 3) (fld w 17 3)) else none
  | 0x09 => if bitsOf w 0 17 == 0 then some (.policyMaxn (fld w 23 3) (fld w 20 3) (fld w 17 3)) else none
  | 0x0A => if bitsOf w 17 3 == 0 then some (.policyLdf (fld w 23 3) (fld w 20 3) (fld w 0 17)) else none
  | 0x0B => if bitsOf w 17 6 == 0 then some (.policyLds (fld w 23 3) (fld w 0 17)) else none
  | 0x0C => if bitsOf w 17 3 == 0 && bitsOf w 23 3 == 0 then some (.policySts (fld w 20 3) (fld w 0 17)) else none
  | 0x0D => if bitsOf w 23 3 == 0 then some (.policyBltn (fld w 20 3) (fld w 17 3) (fld w 0 17)) else none
  | 0x0E => if bitsOf w 23 3 == 0 then some (.policyBeq (fld w 20 3) (fld w 17 3) (fld w 0 17)) else none
  | 0x0F => if bitsOf w 17 6 == 0 then some (.policyArgmax (fld w 23 3) (fld w 0 17)) else none
  | 0x10 => if bitsOf w 17 6 == 0 then some (.policyArgmin (fld w 23 3) (fld w 0 17)) else none
  | _ => none

/-- The vector registers that a message payload is taken from (11 R296). -/
def unitRegs (v : BitVec 5) (un : BitVec 2) : List RegName :=
  (List.range (un.toNat + 1)).map (fun i => .v (v + BitVec.ofNat 5 i))

/-- The destination fields of an instruction. -/
def Instr.destFields : Instr → List RegName
  | .jal d _ _ => [.g d]
  | .jalr d _ _ => [.g d]
  | .loop d _ _ => [.g d]
  | .li d _ _ => [.g d]
  | .liHi d _ => [.g d]
  | .ldI8 g _ _ _ _ _ => [.g g]
  | .ldN8 g _ _ _ _ _ => [.g g]
  | .ldI16 g _ _ _ _ _ => [.g g]
  | .ldN16 g _ _ _ _ _ => [.g g]
  | .ldI32 g _ _ _ _ _ => [.g g]
  | .ldN32 g _ _ _ _ _ => [.g g]
  | .ld64 g _ _ _ _ _ => [.g g]
  | .vld v _ _ _ _ _ => [.v v]
  | .vlds d _ _ _ _ _ => [.v d]
  | .vldx d _ _ _ _ _ => [.v d]
  | .ldc d _ _ _ => [.c4 d]
  | .ldacq d _ _ _ _ _ => [.g d]
  | .amo d _ _ _ _ _ _ => [.g d]
  | .cmov cd _ => [.c4 cd]
  | .cadd cd _ _ _ => [.c4 cd]
  | .cbnd cd _ _ _ => [.c4 cd]
  | .cprm cd _ _ => [.c4 cd]
  | .cspc d _ _ => [.c4 d]
  | .cget d _ _ => [.g d]
  | .ctag d _ => [.c4 d]
  | .map j _ _ _ _ => [.g j]
  | .grant j _ _ _ _ => [.g j]
  | .unmap j _ _ _ => [.g j]
  | .rwin j _ _ _ => [.g j]
  | .mq j _ _ _ => [.v j]
  | .dharv j _ _ _ => [.g j]
  | .qstat d => [.g d]
  | .gvtrd d => [.g d]
  | .lvtrd d => [.g d]
  | .jobwait d _ => [.g d]
  | .jobq d _ => [.g d]
  | .copygo j _ => [.g j]
  | .clgo j _ => [.g j]
  | .skeep a => [.g a]
  | .gang d _ => [.g d]
  | .xchg vd _ _ => [.v vd]
  | .glaunch j _ => [.g j]
  | .gid d _ => [.g d]
  | .csrr d _ => [.g d]
  | .csrw d _ _ => [.g d]
  | .csrs d _ _ => [.g d]
  | .csrc d _ _ => [.g d]
  | .add d _ _ => [.g d]
  | .sub d _ _ => [.g d]
  | .and d _ _ => [.g d]
  | .or d _ _ => [.g d]
  | .xor d _ _ => [.g d]
  | .shl d _ _ => [.g d]
  | .shr d _ _ => [.g d]
  | .sra d _ _ => [.g d]
  | .slt d _ _ => [.g d]
  | .sltn d _ _ => [.g d]
  | .min d _ _ => [.g d]
  | .max d _ _ => [.g d]
  | .minn d _ _ => [.g d]
  | .maxn d _ _ => [.g d]
  | .mul d _ _ => [.g d]
  | .mulh d _ _ => [.g d]
  | .mulhn d _ _ => [.g d]
  | .div d _ _ => [.g d]
  | .divn d _ _ => [.g d]
  | .rem d _ _ => [.g d]
  | .remn d _ _ => [.g d]
  | .clz d _ => [.g d]
  | .ctz d _ => [.g d]
  | .popc d _ => [.g d]
  | .addi d _ _ => [.g d]
  | .andi d _ _ => [.g d]
  | .ori d _ _ => [.g d]
  | .xori d _ _ => [.g d]
  | .shli d _ _ => [.g d]
  | .shri d _ _ => [.g d]
  | .srai d _ _ => [.g d]
  | .slti d _ _ => [.g d]
  | .fadd d _ _ _ _ => [.g d]
  | .fsub d _ _ _ _ => [.g d]
  | .fmul d _ _ _ _ => [.g d]
  | .ffma d _ _ _ _ _ => [.g d]
  | .fmin d _ _ _ => [.g d]
  | .fmax d _ _ _ => [.g d]
  | .fsgn d _ _ _ _ => [.g d]
  | .fcmp d _ _ _ _ => [.g d]
  | .fclass d _ _ => [.g d]
  | .fcvt d _ _ _ _ _ => [.g d]
  | .vadd d _ _ _ _ _ _ => [.v d]
  | .vsub d _ _ _ _ _ _ => [.v d]
  | .vmul d _ _ _ _ _ _ => [.v d]
  | .vfma d _ _ _ _ _ _ => [.v d]
  | .vmin d _ _ _ _ _ => [.v d]
  | .vmax d _ _ _ _ _ => [.v d]
  | .vabs d _ _ _ _ _ => [.v d]
  | .vneg d _ _ _ _ _ => [.v d]
  | .vand d _ _ _ => [.v d]
  | .vor d _ _ _ => [.v d]
  | .vxor d _ _ _ => [.v d]
  | .vshl d _ _ _ _ => [.v d]
  | .vshr d _ _ _ _ => [.v d]
  | .vsra d _ _ _ _ => [.v d]
  | .vclamp d _ _ _ _ _ => [.v d]
  | .vcmp kd _ _ _ _ _ => [.k kd]
  | .vsel d _ _ _ _ _ => [.v d]
  | .vcvt d _ _ _ _ _ => [.v d]
  | .vcvtSat d _ _ _ _ _ => [.v d]
  | .vsfu d _ _ _ _ _ => [.v d]
  | .vred d _ _ _ _ _ => [.v d]
  | .vdot d _ _ _ _ _ => [.v d]
  | .vperm d _ _ _ _ _ => [.v d]
  | .vsplat d _ _ _ _ => [.v d]
  | .vmovg d _ _ _ => [.g d]
  | .vmovl d _ _ _ => [.v d]
  | .kand d _ _ => [.k d]
  | .kor d _ _ => [.k d]
  | .kxor d _ _ => [.k d]
  | .knot d _ => [.k d]
  | .kmovK d _ => [.k d]
  | .kpop g _ => [.g g]
  | .kmovKg _ k => [.k k]
  | .kmovGk g _ => [.g g]
  | _ => []

/-- The registers an instruction reads, in operand order (09 R220; 10 R242, R246, R249, R258; log 5). -/
def Instr.sources : Instr → List RegName
  | .bcc _ a b _ _ => [.g a, .g b]
  | .jalr _ r _ => [.g r]
  | .loop d _ _ => [.g d]
  | .liHi d _ => [.g d]
  | .ldI8 _ cap idx _ _ _ => [.c4 cap, .g idx]
  | .ldN8 _ cap idx _ _ _ => [.c4 cap, .g idx]
  | .ldI16 _ cap idx _ _ _ => [.c4 cap, .g idx]
  | .ldN16 _ cap idx _ _ _ => [.c4 cap, .g idx]
  | .ldI32 _ cap idx _ _ _ => [.c4 cap, .g idx]
  | .ldN32 _ cap idx _ _ _ => [.c4 cap, .g idx]
  | .ld64 _ cap idx _ _ _ => [.c4 cap, .g idx]
  | .st8 g cap idx _ _ _ => [.g g, .c4 cap, .g idx]
  | .st16 g cap idx _ _ _ => [.g g, .c4 cap, .g idx]
  | .st32 g cap idx _ _ _ => [.g g, .c4 cap, .g idx]
  | .st64 g cap idx _ _ _ => [.g g, .c4 cap, .g idx]
  | .vld _ cap k idx _ _ => [.c4 cap, .g idx, .k k]
  | .vst v cap k idx _ _ => [.v v, .c4 cap, .g idx, .k k]
  | .vlds _ cap r k _ _ => [.c4 cap, .g r, .k k]
  | .vldx _ cap r k _ _ => [.c4 cap, .v r, .k k]
  | .vstx d cap r k _ _ => [.v d, .c4 cap, .v r, .k k]
  | .ldc _ cap r _ => [.c4 cap, .g r]
  | .stc d cap r _ => [.c4 d, .c4 cap, .g r]
  | .ldacq _ cap r _ _ _ => [.c4 cap, .g r]
  | .strel d cap r _ _ _ => [.g d, .c4 cap, .g r]
  | .waita d cap r _ _ => [.c4 cap, .g r, .g d]
  | .amo d cap r _ _ _ _ => [.g d, .c4 cap, .g r]
  | .cmov _ cs => [.c4 cs]
  | .cadd _ cs g _ => [.c4 cs, .g g]
  | .cbnd _ cs g _ => [.c4 cs, .g g]
  | .cprm _ cs _ => [.c4 cs]
  | .cspc _ cs _ => [.c4 cs]
  | .cget _ cs _ => [.c4 cs]
  | .ctag _ cs => [.c4 cs]
  | .map _ cap a b _ => [.c4 cap, .g a, .g b]
  | .grant _ cap a b _ => [.c4 cap, .g a, .g b]
  | .unmap _ cap b _ => [.c4 cap, .g b]
  | .rwin _ cap a b => [.c4 cap, .g a, .g b]
  | .mq _ cap a b => [.c4 cap, .g a, .g b]
  | .dharv _ cap a b => [.c4 cap, .g a, .g b]
  | .pkset a => [.g a]
  | .pksetKey _ a => [.g a]
  | .send a v un => .g a :: unitRegs v un
  | .sendt a v un t => .g a :: (unitRegs v un ++ [.g t, .g 1])
  | .ctrarm a n g => [.g a, .g n, .g g]
  | .stdef g cap idx _ _ _ => [.g g, .c4 cap, .g idx]
  | .jobwait _ j => [.g j]
  | .jobq _ j => [.g j]
  | .copygo _ cap => [.c4 cap]
  | .clgo _ cap => [.c4 cap]
  | .sksum a b => [.g a, .g b]
  | .xchg _ vs _ => [.v vs]
  | .glaunch _ cap => [.c4 cap]
  | .gexit g => [.g g]
  | .gcancel g => [.g g]
  | .csrw _ r _ => [.g r]
  | .csrs _ r _ => [.g r]
  | .csrc _ r _ => [.g r]
  | .add _ a b => [.g a, .g b]
  | .sub _ a b => [.g a, .g b]
  | .and _ a b => [.g a, .g b]
  | .or _ a b => [.g a, .g b]
  | .xor _ a b => [.g a, .g b]
  | .shl _ a b => [.g a, .g b]
  | .shr _ a b => [.g a, .g b]
  | .sra _ a b => [.g a, .g b]
  | .slt _ a b => [.g a, .g b]
  | .sltn _ a b => [.g a, .g b]
  | .min _ a b => [.g a, .g b]
  | .max _ a b => [.g a, .g b]
  | .minn _ a b => [.g a, .g b]
  | .maxn _ a b => [.g a, .g b]
  | .mul _ a b => [.g a, .g b]
  | .mulh _ a b => [.g a, .g b]
  | .mulhn _ a b => [.g a, .g b]
  | .div _ a b => [.g a, .g b]
  | .divn _ a b => [.g a, .g b]
  | .rem _ a b => [.g a, .g b]
  | .remn _ a b => [.g a, .g b]
  | .clz _ a => [.g a]
  | .ctz _ a => [.g a]
  | .popc _ a => [.g a]
  | .addi _ a _ => [.g a]
  | .andi _ a _ => [.g a]
  | .ori _ a _ => [.g a]
  | .xori _ a _ => [.g a]
  | .shli _ a _ => [.g a]
  | .shri _ a _ => [.g a]
  | .srai _ a _ => [.g a]
  | .slti _ a _ => [.g a]
  | .fadd _ a b _ _ => [.g a, .g b]
  | .fsub _ a b _ _ => [.g a, .g b]
  | .fmul _ a b _ _ => [.g a, .g b]
  | .ffma _ a b c _ _ => [.g a, .g b, .g c]
  | .fmin _ a b _ => [.g a, .g b]
  | .fmax _ a b _ => [.g a, .g b]
  | .fsgn _ a b _ _ => [.g a, .g b]
  | .fcmp _ a b _ _ => [.g a, .g b]
  | .fclass _ a _ => [.g a]
  | .fcvt _ a _ _ _ _ => [.g a]
  | .vadd _ a b k _ _ _ => [.v a, .v b, .k k]
  | .vsub _ a b k _ _ _ => [.v a, .v b, .k k]
  | .vmul _ a b k _ _ _ => [.v a, .v b, .k k]
  | .vfma d a b k _ _ _ => [.v d, .v a, .v b, .k k]
  | .vmin _ a b k _ _ => [.v a, .v b, .k k]
  | .vmax _ a b k _ _ => [.v a, .v b, .k k]
  | .vabs _ a k _ _ _ => [.v a, .k k]
  | .vneg _ a k _ _ _ => [.v a, .k k]
  | .vand _ a b k => [.v a, .v b, .k k]
  | .vor _ a b k => [.v a, .v b, .k k]
  | .vxor _ a b k => [.v a, .v b, .k k]
  | .vshl _ a b k _ => [.v a, .v b, .k k]
  | .vshr _ a b k _ => [.v a, .v b, .k k]
  | .vsra _ a b k _ => [.v a, .v b, .k k]
  | .vclamp d a b k _ _ => [.v d, .v a, .v b, .k k]
  | .vcmp _ a b k _ _ => [.v a, .v b, .k k]
  | .vsel _ a b k _ _ => [.v a, .v b, .k k]
  | .vcvt _ a _ k _ _ => [.v a, .k k]
  | .vcvtSat _ a _ k _ _ => [.v a, .k k]
  | .vsfu _ a _ k _ _ => [.v a, .k k]
  | .vred _ a _ k _ _ => [.v a, .k k]
  | .vdot _ a b k _ _ => [.v a, .v b, .k k]
  | .vperm _ a b k _ _ => [.v a, .v b, .k k]
  | .vsplat _ a k _ _ => [.g a, .k k]
  | .vmovg _ r _ _ => [.v r]
  | .vmovl d r _ _ => [.v d, .g r]
  | .kand _ a b => [.k a, .k b]
  | .kor _ a b => [.k a, .k b]
  | .kxor _ a b => [.k a, .k b]
  | .knot _ a => [.k a]
  | .kmovK _ a => [.k a]
  | .kpop _ k => [.k k]
  | .kmovKg g _ => [.g g]
  | .kmovGk _ k => [.k k]
  | _ => []

/-- A write to g0 or k0 names no destination (09 R213). -/
def RegName.isConst : RegName → Bool
  | .g i => i == 0
  | .k i => i == 0
  | .v _ => false
  | .c4 _ => false

/-- The registers an instruction writes (09 R213). -/
def Instr.dests (i : Instr) : List RegName := i.destFields.filter (fun r => !r.isConst)

/-- The bundle-combination checks of 09 R214 step 4: a register written by both slots (R213), and `trap` beside an A
instruction other than `anop` (12 R338). -/
def comboBad (c a : Instr) : Bool :=
  c.dests.any (fun r => a.dests.contains r) ||
    (match c with
     | .trap _ => decide (a ≠ Instr.anop)
     | _ => false)

/-- The bundle of a dword (09 R212), or the first encoding trap of R214 steps 1 to 4. -/
def decodeBundle (w : Nat) : Except EncTrap Bundle :=
  let w1 := bitsOf w 32 32
  let lone := bitsOf w 31 1 == 1
  match decodeC (bitsOf w 0 28) lone w1 with
  | .error t => .error t
  | .ok c =>
    match (if lone then .ok Instr.anop else decodeA w1) with
    | .error t => .error t
    | .ok a => if comboBad c a then .error .combo else .ok ⟨lone, fld w 28 3, c, a⟩

/-! The encoder, from the same tables of the spec. -/

/-- Bits 27:0 of word 0 of a C-slot instruction (09 R222, R228, R229); 0 for any other instruction. -/
def encodeC : Instr → Nat
  | .cnop => 0x00000000
  | .br off _ => 0x00400000 + off.toNat
  | .bcc cnd a b off _ => 0x00800000 + cnd.toNat * 524288 + a.toNat * 16384 + b.toNat * 512 + off.toNat
  | .jal d off _ => 0x00C00000 + d.toNat * 131072 + off.toNat
  | .jalr d r off => 0x01000000 + d.toNat * 131072 + r.toNat * 4096 + off.toNat
  | .loop d off _ => 0x01400000 + d.toNat * 131072 + off.toNat
  | .li d imm _ => 0x01800000 + d.toNat * 131072 + imm.toNat
  | .liHi d _ => 0x01810000 + d.toNat * 131072
  | .ldI8 g cap idx sh disp _ => 0x02000000 + g.toNat * 131072 + cap.toNat * 8192 + idx.toNat * 256 + sh.toNat * 64 + disp.toNat
  | .ldN8 g cap idx sh disp _ => 0x02400000 + g.toNat * 131072 + cap.toNat * 8192 + idx.toNat * 256 + sh.toNat * 64 + disp.toNat
  | .ldI16 g cap idx sh disp _ => 0x02800000 + g.toNat * 131072 + cap.toNat * 8192 + idx.toNat * 256 + sh.toNat * 64 + disp.toNat
  | .ldN16 g cap idx sh disp _ => 0x02C00000 + g.toNat * 131072 + cap.toNat * 8192 + idx.toNat * 256 + sh.toNat * 64 + disp.toNat
  | .ldI32 g cap idx sh disp _ => 0x03000000 + g.toNat * 131072 + cap.toNat * 8192 + idx.toNat * 256 + sh.toNat * 64 + disp.toNat
  | .ldN32 g cap idx sh disp _ => 0x03400000 + g.toNat * 131072 + cap.toNat * 8192 + idx.toNat * 256 + sh.toNat * 64 + disp.toNat
  | .ld64 g cap idx sh disp _ => 0x03800000 + g.toNat * 131072 + cap.toNat * 8192 + idx.toNat * 256 + sh.toNat * 64 + disp.toNat
  | .st8 g cap idx sh disp _ => 0x03C00000 + g.toNat * 131072 + cap.toNat * 8192 + idx.toNat * 256 + sh.toNat * 64 + disp.toNat
  | .st16 g cap idx sh disp _ => 0x04000000 + g.toNat * 131072 + cap.toNat * 8192 + idx.toNat * 256 + sh.toNat * 64 + disp.toNat
  | .st32 g cap idx sh disp _ => 0x04400000 + g.toNat * 131072 + cap.toNat * 8192 + idx.toNat * 256 + sh.toNat * 64 + disp.toNat
  | .st64 g cap idx sh disp _ => 0x04800000 + g.toNat * 131072 + cap.toNat * 8192 + idx.toNat * 256 + sh.toNat * 64 + disp.toNat
  | .vld v cap k idx disp _ => 0x04C00000 + v.toNat * 131072 + cap.toNat * 8192 + k.toNat * 1024 + idx.toNat * 32 + disp.toNat
  | .vst v cap k idx disp _ => 0x05000000 + v.toNat * 131072 + cap.toNat * 8192 + k.toNat * 1024 + idx.toNat * 32 + disp.toNat
  | .vlds d cap r k sz _ => 0x05400000 + d.toNat * 131072 + cap.toNat * 8192 + r.toNat * 256 + k.toNat * 32 + sz.toNat * 8
  | .vldx d cap r k sz _ => 0x05400001 + d.toNat * 131072 + cap.toNat * 8192 + r.toNat * 256 + k.toNat * 32 + sz.toNat * 8
  | .vstx d cap r k sz _ => 0x05400002 + d.toNat * 131072 + cap.toNat * 8192 + r.toNat * 256 + k.toNat * 32 + sz.toNat * 8
  | .ldc d cap r _ => 0x05400003 + d.toNat * 131072 + cap.toNat * 8192 + r.toNat * 256
  | .stc d cap r _ => 0x05400004 + d.toNat * 131072 + cap.toNat * 8192 + r.toNat * 256
  | .ldacq d cap r scope sz _ => 0x05400005 + d.toNat * 131072 + cap.toNat * 8192 + r.toNat * 256 + scope.toNat * 32 + sz.toNat * 8
  | .strel d cap r scope sz _ => 0x05400006 + d.toNat * 131072 + cap.toNat * 8192 + r.toNat * 256 + scope.toNat * 32 + sz.toNat * 8
  | .waita d cap r sz _ => 0x05400007 + d.toNat * 131072 + cap.toNat * 8192 + r.toNat * 256 + sz.toNat * 8
  | .amo d cap r op w ord _ => 0x05800000 + d.toNat * 131072 + cap.toNat * 8192 + r.toNat * 256 + op.toNat * 16 + w.toNat * 8 + ord.toNat * 2
  | .cmov cd cs => 0x06000000 + cd.toNat * 262144 + cs.toNat * 16384
  | .cadd cd cs g imm => 0x06000001 + cd.toNat * 262144 + cs.toNat * 16384 + g.toNat * 512 + imm.toNat * 4
  | .cbnd cd cs g imm => 0x06000002 + cd.toNat * 262144 + cs.toNat * 16384 + g.toNat * 512 + imm.toNat * 4
  | .cprm cd cs imm => 0x06000003 + cd.toNat * 262144 + cs.toNat * 16384 + imm.toNat * 4
  | .cspc d cs spc => 0x06400000 + d.toNat * 131072 + cs.toNat * 8192 + spc.toNat * 1024
  | .cget d cs fld => 0x06400001 + d.toNat * 131072 + cs.toNat * 8192 + fld.toNat * 64
  | .ctag d cs => 0x06400002 + d.toNat * 131072 + cs.toNat * 8192
  | .map j cap a b t => 0x07000000 + j.toNat * 131072 + cap.toNat * 8192 + a.toNat * 256 + b.toNat * 8 + t.toNat * 4
  | .grant j cap a b t => 0x07000001 + j.toNat * 131072 + cap.toNat * 8192 + a.toNat * 256 + b.toNat * 8 + t.toNat * 4
  | .unmap j cap b t => 0x07000002 + j.toNat * 131072 + cap.toNat * 8192 + b.toNat * 8 + t.toNat * 4
  | .rwin j cap a b => 0x07000003 + j.toNat * 131072 + cap.toNat * 8192 + a.toNat * 256 + b.toNat * 8
  | .mq j cap a b => 0x07400000 + j.toNat * 131072 + cap.toNat * 8192 + a.toNat * 256 + b.toNat * 8
  | .dharv j cap a b => 0x07400001 + j.toNat * 131072 + cap.toNat * 8192 + a.toNat * 256 + b.toNat * 8
  | .pkset a => 0x07400002 + a.toNat * 256
  | .pksetKey j a => 0x07402002 + j.toNat * 131072 + a.toNat * 256
  | .send a v un => 0x08000000 + a.toNat * 131072 + v.toNat * 4096 + un.toNat * 1024
  | .sendt a v un t => 0x08400000 + a.toNat * 131072 + v.toNat * 4096 + un.toNat * 1024 + t.toNat * 32
  | .ctrarm a n g => 0x08800000 + a.toNat * 131072 + n.toNat * 4096 + g.toNat * 128
  | .done => 0x08C00000
  | .yield => 0x08C00001
  | .qstat d => 0x08C00002 + d.toNat * 131072
  | .abort m => 0x08C00003 + m.toNat * 8
  | .gvtrd d => 0x08C00004 + d.toNat * 131072
  | .lvtrd d => 0x08C00005 + d.toNat * 131072
  | .stdef g cap idx sh disp _ => 0x09000000 + g.toNat * 131072 + cap.toNat * 8192 + idx.toNat * 256 + sh.toNat * 64 + disp.toNat
  | .jobwait d j => 0x0A000000 + d.toNat * 131072 + j.toNat * 4096
  | .jobq d j => 0x0A000001 + d.toNat * 131072 + j.toNat * 4096
  | .copygo j cap => 0x0A400000 + j.toNat * 131072 + cap.toNat * 8192
  | .clgo j cap => 0x0A800000 + j.toNat * 131072 + cap.toNat * 8192
  | .skeep a => 0x0AC00000 + a.toNat * 131072
  | .sksum a b => 0x0AC00001 + a.toNat * 131072 + b.toNat * 4096
  | .gang d sz => 0x0B000000 + d.toNat * 131072 + sz.toNat * 32768
  | .disband => 0x0B400000
  | .xchg vd vs esz => 0x0B800000 + vd.toNat * 131072 + vs.toNat * 4096 + esz.toNat * 1024
  | .bar lvl => 0x0BC00000 + lvl.toNat * 1048576
  | .glaunch j cap => 0x0C000000 + j.toNat * 131072 + cap.toNat * 8192
  | .gtrig => 0x0C400000
  | .gexit g => 0x0C400001 + g.toNat * 131072
  | .gid d sel => 0x0C400002 + d.toNat * 131072 + sel.toNat * 4
  | .gcancel g => 0x0C800000 + g.toNat * 131072
  | .trap imm => 0x0D000000 + imm.toNat * 1024
  | .xret => 0x0D000001
  | .brk imm => 0x0D000002 + imm.toNat * 1024
  | .idle => 0x0D000003
  | .fence kind scope => 0x0D000004 + kind.toNat * 64 + scope.toNat * 8
  | .csrr d csr => 0x0D400000 + d.toNat * 131072 + csr.toNat * 4
  | .csrw d r csr => 0x0D400001 + d.toNat * 131072 + r.toNat * 4096 + csr.toNat * 4
  | .csrs d r csr => 0x0D400002 + d.toNat * 131072 + r.toNat * 4096 + csr.toNat * 4
  | .csrc d r csr => 0x0D400003 + d.toNat * 131072 + r.toNat * 4096 + csr.toNat * 4
  | _ => 0

/-- Word 1 of an A-slot instruction (09 R225, R230); 0 for any other instruction. -/
def encodeA : Instr → Nat
  | .anop => 0x00000000
  | .add d a b => 0x04000000 + d.toNat * 2097152 + a.toNat * 65536 + b.toNat * 2048
  | .sub d a b => 0x04000001 + d.toNat * 2097152 + a.toNat * 65536 + b.toNat * 2048
  | .and d a b => 0x04000002 + d.toNat * 2097152 + a.toNat * 65536 + b.toNat * 2048
  | .or d a b => 0x04000003 + d.toNat * 2097152 + a.toNat * 65536 + b.toNat * 2048
  | .xor d a b => 0x04000004 + d.toNat * 2097152 + a.toNat * 65536 + b.toNat * 2048
  | .shl d a b => 0x04000005 + d.toNat * 2097152 + a.toNat * 65536 + b.toNat * 2048
  | .shr d a b => 0x04000006 + d.toNat * 2097152 + a.toNat * 65536 + b.toNat * 2048
  | .sra d a b => 0x04000007 + d.toNat * 2097152 + a.toNat * 65536 + b.toNat * 2048
  | .slt d a b => 0x04000008 + d.toNat * 2097152 + a.toNat * 65536 + b.toNat * 2048
  | .sltn d a b => 0x04000009 + d.toNat * 2097152 + a.toNat * 65536 + b.toNat * 2048
  | .min d a b => 0x0400000A + d.toNat * 2097152 + a.toNat * 65536 + b.toNat * 2048
  | .max d a b => 0x0400000B + d.toNat * 2097152 + a.toNat * 65536 + b.toNat * 2048
  | .minn d a b => 0x0400000C + d.toNat * 2097152 + a.toNat * 65536 + b.toNat * 2048
  | .maxn d a b => 0x0400000D + d.toNat * 2097152 + a.toNat * 65536 + b.toNat * 2048
  | .mul d a b => 0x0400000E + d.toNat * 2097152 + a.toNat * 65536 + b.toNat * 2048
  | .mulh d a b => 0x0400000F + d.toNat * 2097152 + a.toNat * 65536 + b.toNat * 2048
  | .mulhn d a b => 0x04000010 + d.toNat * 2097152 + a.toNat * 65536 + b.toNat * 2048
  | .div d a b => 0x04000011 + d.toNat * 2097152 + a.toNat * 65536 + b.toNat * 2048
  | .divn d a b => 0x04000012 + d.toNat * 2097152 + a.toNat * 65536 + b.toNat * 2048
  | .rem d a b => 0x04000013 + d.toNat * 2097152 + a.toNat * 65536 + b.toNat * 2048
  | .remn d a b => 0x04000014 + d.toNat * 2097152 + a.toNat * 65536 + b.toNat * 2048
  | .clz d a => 0x04000015 + d.toNat * 2097152 + a.toNat * 65536
  | .ctz d a => 0x04000016 + d.toNat * 2097152 + a.toNat * 65536
  | .popc d a => 0x04000017 + d.toNat * 2097152 + a.toNat * 65536
  | .addi d a imm => 0x08000000 + d.toNat * 2097152 + a.toNat * 65536 + imm.toNat
  | .andi d a imm => 0x0C000000 + d.toNat * 2097152 + a.toNat * 65536 + imm.toNat
  | .ori d a imm => 0x10000000 + d.toNat * 2097152 + a.toNat * 65536 + imm.toNat
  | .xori d a imm => 0x14000000 + d.toNat * 2097152 + a.toNat * 65536 + imm.toNat
  | .shli d a imm => 0x18000000 + d.toNat * 2097152 + a.toNat * 65536 + imm.toNat
  | .shri d a imm => 0x1C000000 + d.toNat * 2097152 + a.toNat * 65536 + imm.toNat
  | .srai d a imm => 0x20000000 + d.toNat * 2097152 + a.toNat * 65536 + imm.toNat
  | .slti d a imm => 0x24000000 + d.toNat * 2097152 + a.toNat * 65536 + imm.toNat
  | .fadd d a b rnd ty => 0x40000000 + d.toNat * 2097152 + a.toNat * 65536 + b.toNat * 2048 + rnd.toNat * 8 + ty.toNat * 4
  | .fsub d a b rnd ty => 0x40000001 + d.toNat * 2097152 + a.toNat * 65536 + b.toNat * 2048 + rnd.toNat * 8 + ty.toNat * 4
  | .fmul d a b rnd ty => 0x40000002 + d.toNat * 2097152 + a.toNat * 65536 + b.toNat * 2048 + rnd.toNat * 8 + ty.toNat * 4
  | .ffma d a b c rnd ty => 0x40000003 + d.toNat * 2097152 + a.toNat * 65536 + b.toNat * 2048 + c.toNat * 64 + rnd.toNat * 8 + ty.toNat * 4
  | .fmin d a b ty => 0x44000000 + d.toNat * 2097152 + a.toNat * 65536 + b.toNat * 2048 + ty.toNat * 8
  | .fmax d a b ty => 0x44000001 + d.toNat * 2097152 + a.toNat * 65536 + b.toNat * 2048 + ty.toNat * 8
  | .fsgn d a b sbf ty => 0x44000002 + d.toNat * 2097152 + a.toNat * 65536 + b.toNat * 2048 + sbf.toNat * 256 + ty.toNat * 8
  | .fcmp d a b sbf ty => 0x44000003 + d.toNat * 2097152 + a.toNat * 65536 + b.toNat * 2048 + sbf.toNat * 256 + ty.toNat * 8
  | .fclass d a ty => 0x44000004 + d.toNat * 2097152 + a.toNat * 65536 + ty.toNat * 8
  | .fcvt d a tof frf rnd sat => 0x48000000 + d.toNat * 2097152 + a.toNat * 65536 + tof.toNat * 2048 + frf.toNat * 64 + rnd.toNat * 8 + sat.toNat * 4
  | .vadd d a b k ty sat rnd => 0x60000000 + d.toNat * 2097152 + a.toNat * 65536 + b.toNat * 2048 + k.toNat * 256 + ty.toNat * 16 + sat.toNat * 8 + rnd.toNat
  | .vsub d a b k ty sat rnd => 0x64000000 + d.toNat * 2097152 + a.toNat * 65536 + b.toNat * 2048 + k.toNat * 256 + ty.toNat * 16 + sat.toNat * 8 + rnd.toNat
  | .vmul d a b k ty sat rnd => 0x68000000 + d.toNat * 2097152 + a.toNat * 65536 + b.toNat * 2048 + k.toNat * 256 + ty.toNat * 16 + sat.toNat * 8 + rnd.toNat
  | .vfma d a b k ty sat rnd => 0x6C000000 + d.toNat * 2097152 + a.toNat * 65536 + b.toNat * 2048 + k.toNat * 256 + ty.toNat * 16 + sat.toNat * 8 + rnd.toNat
  | .vmin d a b k ty rnd => 0x70000000 + d.toNat * 2097152 + a.toNat * 65536 + b.toNat * 2048 + k.toNat * 256 + ty.toNat * 16 + rnd.toNat
  | .vmax d a b k ty rnd => 0x74000000 + d.toNat * 2097152 + a.toNat * 65536 + b.toNat * 2048 + k.toNat * 256 + ty.toNat * 16 + rnd.toNat
  | .vabs d a k ty sat rnd => 0x78000000 + d.toNat * 2097152 + a.toNat * 65536 + k.toNat * 256 + ty.toNat * 16 + sat.toNat * 8 + rnd.toNat
  | .vneg d a k ty sat rnd => 0x7C000000 + d.toNat * 2097152 + a.toNat * 65536 + k.toNat * 256 + ty.toNat * 16 + sat.toNat * 8 + rnd.toNat
  | .vand d a b k => 0x80000000 + d.toNat * 2097152 + a.toNat * 65536 + b.toNat * 2048 + k.toNat * 256
  | .vor d a b k => 0x80000001 + d.toNat * 2097152 + a.toNat * 65536 + b.toNat * 2048 + k.toNat * 256
  | .vxor d a b k => 0x80000002 + d.toNat * 2097152 + a.toNat * 65536 + b.toNat * 2048 + k.toNat * 256
  | .vshl d a b k ty => 0x84000000 + d.toNat * 2097152 + a.toNat * 65536 + b.toNat * 2048 + k.toNat * 256 + ty.toNat * 16
  | .vshr d a b k ty => 0x84000001 + d.toNat * 2097152 + a.toNat * 65536 + b.toNat * 2048 + k.toNat * 256 + ty.toNat * 16
  | .vsra d a b k ty => 0x84000002 + d.toNat * 2097152 + a.toNat * 65536 + b.toNat * 2048 + k.toNat * 256 + ty.toNat * 16
  | .vclamp d a b k ty rnd => 0x88000000 + d.toNat * 2097152 + a.toNat * 65536 + b.toNat * 2048 + k.toNat * 256 + ty.toNat * 16 + rnd.toNat
  | .vcmp kd a b k ty cnd => 0x8C000000 + kd.toNat * 2097152 + a.toNat * 65536 + b.toNat * 2048 + k.toNat * 256 + ty.toNat * 16 + cnd.toNat
  | .vsel d a b k ty rnd => 0x90000000 + d.toNat * 2097152 + a.toNat * 65536 + b.toNat * 2048 + k.toNat * 256 + ty.toNat * 16 + rnd.toNat
  | .vcvt d a tof k frf rnd => 0x94000000 + d.toNat * 2097152 + a.toNat * 65536 + tof.toNat * 2048 + k.toNat * 256 + frf.toNat * 8 + rnd.toNat
  | .vcvtSat d a tof k frf rnd => 0x98000000 + d.toNat * 2097152 + a.toNat * 65536 + tof.toNat * 2048 + k.toNat * 256 + frf.toNat * 8 + rnd.toNat
  | .vsfu d a fn k ty rnd => 0x9C000000 + d.toNat * 2097152 + a.toNat * 65536 + fn.toNat * 2048 + k.toNat * 256 + ty.toNat * 16 + rnd.toNat
  | .vred d a fn k ty rnd => 0xA0000000 + d.toNat * 2097152 + a.toNat * 65536 + fn.toNat * 2048 + k.toNat * 256 + ty.toNat * 16 + rnd.toNat
  | .vdot d a b k ty rnd => 0xA4000000 + d.toNat * 2097152 + a.toNat * 65536 + b.toNat * 2048 + k.toNat * 256 + ty.toNat * 16 + rnd.toNat
  | .vperm d a b k ty rnd => 0xA8000000 + d.toNat * 2097152 + a.toNat * 65536 + b.toNat * 2048 + k.toNat * 256 + ty.toNat * 16 + rnd.toNat
  | .vsplat d a k ty rnd => 0xAC000000 + d.toNat * 2097152 + a.toNat * 65536 + k.toNat * 256 + ty.toNat * 16 + rnd.toNat
  | .vmovg d r idx ty => 0xB0000000 + d.toNat * 2097152 + r.toNat * 65536 + idx.toNat * 1024 + ty.toNat * 16
  | .vmovl d r idx ty => 0xB4000000 + d.toNat * 2097152 + r.toNat * 65536 + idx.toNat * 1024 + ty.toNat * 16
  | .kand d a b => 0xC0000000 + d.toNat * 8388608 + a.toNat * 1048576 + b.toNat * 131072
  | .kor d a b => 0xC0000001 + d.toNat * 8388608 + a.toNat * 1048576 + b.toNat * 131072
  | .kxor d a b => 0xC0000002 + d.toNat * 8388608 + a.toNat * 1048576 + b.toNat * 131072
  | .knot d a => 0xC0000003 + d.toNat * 8388608 + a.toNat * 1048576
  | .kmovK d a => 0xC0000004 + d.toNat * 8388608 + a.toNat * 1048576
  | .kpop g k => 0xC4000000 + g.toNat * 2097152 + k.toNat * 262144
  | .kmovKg g k => 0xC4000001 + g.toNat * 2097152 + k.toNat * 262144
  | .kmovGk g k => 0xC4000002 + g.toNat * 2097152 + k.toNat * 262144
  | _ => 0

/-- A policy word (13 R353); 0 for any other instruction. -/
def encodePolicy : Instr → Nat
  | .policyRet a => 0x00000000 + a.toNat * 1048576
  | .policyLi d imm => 0x04000000 + d.toNat * 8388608 + imm.toNat
  | .policyAdd d a b => 0x08000000 + d.toNat * 8388608 + a.toNat * 1048576 + b.toNat * 131072
  | .policySub d a b => 0x0C000000 + d.toNat * 8388608 + a.toNat * 1048576 + b.toNat * 131072
  | .policyAnd d a b => 0x10000000 + d.toNat * 8388608 + a.toNat * 1048576 + b.toNat * 131072
  | .policyOr d a b => 0x14000000 + d.toNat * 8388608 + a.toNat * 1048576 + b.toNat * 131072
  | .policyShli d a imm => 0x18000000 + d.toNat * 8388608 + a.toNat * 1048576 + imm.toNat
  | .policyShri d a imm => 0x1C000000 + d.toNat * 8388608 + a.toNat * 1048576 + imm.toNat
  | .policyMinn d a b => 0x20000000 + d.toNat * 8388608 + a.toNat * 1048576 + b.toNat * 131072
  | .policyMaxn d a b => 0x24000000 + d.toNat * 8388608 + a.toNat * 1048576 + b.toNat * 131072
  | .policyLdf d a imm => 0x28000000 + d.toNat * 8388608 + a.toNat * 1048576 + imm.toNat
  | .policyLds d imm => 0x2C000000 + d.toNat * 8388608 + imm.toNat
  | .policySts a imm => 0x30000000 + a.toNat * 1048576 + imm.toNat
  | .policyBltn a b imm => 0x34000000 + a.toNat * 1048576 + b.toNat * 131072 + imm.toNat
  | .policyBeq a b imm => 0x38000000 + a.toNat * 1048576 + b.toNat * 131072 + imm.toNat
  | .policyArgmax d imm => 0x3C000000 + d.toNat * 8388608 + imm.toNat
  | .policyArgmin d imm => 0x40000000 + d.toNat * 8388608 + imm.toNat
  | _ => 0

/-- The dword of a bundle (09 R212). -/
def encodeBundle (b : Bundle) : Nat :=
  encodeC b.c + b.stall.toNat * 268435456 + (if b.lone then 2147483648 else 0) +
    4294967296 * (match b.c.ext? with
      | some e => e.toNat
      | none => if b.lone then 0 else encodeA b.a)

/-- The words of an instruction standing in a bundle of its own: a C instruction beside `anop`, lone where it carries
EXT; an A instruction beside `cnop`; a policy word. -/
def encode (i : Instr) : Nat :=
  if i.isC then encodeBundle ⟨i.ext?.isSome, 0, i, .anop⟩
  else if i.isA then encodeBundle ⟨false, 0, .cnop, i⟩
  else encodePolicy i

/-- How one 32-bit table word is read, since the table does not say which slot a row is for: a word whose bits 31:28
are 0, or that reads as `li.hi` (whose row alone fixes L = 1), is word 0 of a bundle, save the integer register forms
of AMAJ 0x01, known by their zero bits 10:5; any other is an A word if it is one; else word 0 with its L and STALL
bits; else a policy word (log 6). -/
inductive TableForm where
  | cWord (b : Bundle)
  | aWord (b : Bundle)
  | policyWord (i : Instr)
  deriving DecidableEq, Repr

/-- A word that reads as `li.hi` (10 R242). -/
def readsLiHi : Except EncTrap Bundle → Bool
  | .ok ⟨_, _, .liHi _ _, _⟩ => true
  | _ => false

/-- The bundle, or policy word, that a table word stands for. -/
def tableForm (w : Nat) : Option TableForm :=
  let c := decodeBundle (bitsOf w 0 32)
  let a := decodeBundle (4294967296 * bitsOf w 0 32)
  match (if (bitsOf w 28 4 == 0 && !(bitsOf w 26 6 == 1 && bitsOf w 5 6 == 0)) || readsLiHi c then Except.error EncTrap.illegalA else a) with
  | .ok b => some (.aWord b)
  | .error _ =>
    match c with
    | .ok b => some (.cWord b)
    | .error _ =>
      match a with
      | .ok b => some (.aWord b)
      | .error _ => (decodePolicy (bitsOf w 0 32)).map .policyWord

/-- The instruction the decoder reads from a table word (log 6). -/
def decodeTableWord (_nbits w : Nat) : Option Instr :=
  match tableForm w with
  | some (.cWord b) => some b.c
  | some (.aWord b) => some b.a
  | some (.policyWord i) => some i
  | none => none

end Sys2Proof
end

