-- ==== Sys2Proof/Machine/KMap.lean ====
section
/-! DEFINITION. Finite maps by number, held as lists sorted by key: the shape in which the state holds everything the
device has many of. -/

namespace Sys2Proof.Machine

/-- A finite map from numbers, sorted by key, one entry a key. -/
structure KMap (α : Type) where
  entries : List (Nat × α)
  deriving DecidableEq, Repr

/-- The map with no entry. -/
def KMap.empty {α : Type} : KMap α := ⟨[]⟩

/-- The value at a key of a list of entries. -/
def KMap.look {α : Type} : List (Nat × α) → Nat → Option α
  | [], _ => none
  | (k', v) :: t, k => if k = k' then some v else KMap.look t k

/-- The value at a key. -/
def KMap.get? {α : Type} (m : KMap α) (k : Nat) : Option α := KMap.look m.entries k

/-- The value at a key, or a default. -/
def KMap.getD {α : Type} (m : KMap α) (k : Nat) (d : α) : α := (m.get? k).getD d

/-- The entries with one more, in their order. -/
def KMap.ins {α : Type} : List (Nat × α) → Nat → α → List (Nat × α)
  | [], k, v => [(k, v)]
  | (k', v') :: t, k, v =>
    if k < k' then (k, v) :: (k', v') :: t
    else if k = k' then (k, v) :: t
    else (k', v') :: KMap.ins t k v

/-- The map with a key set. -/
def KMap.set {α : Type} (m : KMap α) (k : Nat) (v : α) : KMap α := ⟨KMap.ins m.entries k v⟩

/-- The map without a key. -/
def KMap.erase {α : Type} (m : KMap α) (k : Nat) : KMap α := ⟨m.entries.filter (fun e => e.1 != k)⟩

/-- The map with the value at a key changed, starting from a default. -/
def KMap.modify {α : Type} (m : KMap α) (k : Nat) (d : α) (f : α → α) : KMap α := m.set k (f (m.getD k d))

/-- Every value changed. -/
def KMap.mapVal {α β : Type} (m : KMap α) (f : Nat → α → β) : KMap β := ⟨m.entries.map (fun e => (e.1, f e.1 e.2))⟩

/-- The entries whose key and value pass a test. -/
def KMap.filter {α : Type} (m : KMap α) (p : Nat → α → Bool) : KMap α := ⟨m.entries.filter (fun e => p e.1 e.2)⟩

/-- The keys in ascending order. -/
def KMap.keys {α : Type} (m : KMap α) : List Nat := m.entries.map (fun e => e.1)

/-- The values in ascending order of their keys. -/
def KMap.values {α : Type} (m : KMap α) : List α := m.entries.map (fun e => e.2)

/-- A number put into a sorted list without repeats. -/
def insertNat : List Nat → Nat → List Nat
  | [], k => [k]
  | k' :: t, k => if k < k' then k :: k' :: t else if k = k' then k' :: t else k' :: insertNat t k

/-- The union of two sorted lists of numbers: a join of views (05 R111). -/
def joinNat (a b : List Nat) : List Nat := b.foldl insertNat a

end Sys2Proof.Machine
end

