-- ==== Sys2Proof/Machine/State.lean ====
section
/-! DEFINITION. The state of the whole pod: every piece of state that spec/ names (INVENTORY.md lists each with its
rule), as plain data, and the state after reset. What the device has many of (cores, clusters, dies, packages,
contexts) stands in finite maps; an absent entry is one still at its reset value. -/

namespace Sys2Proof.Machine

/-- Why a step stops with a fault. The spec describes every fault of the device as a trap, a job result or a refusal
code, each of them a next state, so one reason is left. -/
inductive Fault where
  /-- Raised by no meaning: kept so that the type names what a stop would be. Safe. -/
  | deviceStopped
  deriving DecidableEq, Repr

/-- Why a step is refused. -/
inductive Refusal where
  /-- The instruction has no meaning in the model yet; raised by an arm of `exec` alone. Safe. -/
  | notModelled (mnemonic : String)
  /-- A term with a reserved field value, which the decoder traps ILLEGAL or RESFIELD and so never gives (09 R215);
  raised by the meanings that read a format, type or scope code. Safe. -/
  | illFormed (mnemonic : String)
  deriving DecidableEq, Repr

/-- A capability: its two dwords and its tag (01 R17, R19). -/
structure Cap where
  lo  : Word
  hi  : Word
  tag : Bool
  deriving DecidableEq, Repr

/-- The untagged zero capability. -/
def Cap.zero : Cap := ⟨0, 0, false⟩

/-- A bank of trap state (14 R359). -/
structure TrapBank where
  xpc      : Word
  xcause   : Word
  xval     : Word
  xval2    : Word
  xscratch : Word
  deriving DecidableEq, Repr

/-- A bank at reset (14 R359; no value stated, log 13). -/
def TrapBank.reset : TrapBank := ⟨0, 0, 0, 0, 0⟩

/-- The key of a timed message and of its activation (07 R172). A GVT is a key or infinity, `none`. -/
structure Key where
  vrt : Nat
  src : Nat
  seq : Nat
  deriving DecidableEq, Repr

/-- A message: the four header dwords of unit 0, the payload as v0 to v3 receive it, the carried view, and the agent
that sent it (06 R140, R141; 05 R127). -/
structure Msg where
  vrt   : Word
  dw1   : Word
  dw2   : Word
  dw3   : Word
  pay   : Vector VWord 4
  view  : List Nat
  agent : Nat
  deriving DecidableEq, Repr

/-- What holds a QT entry back beyond its place (07 R175, R182, R184). -/
inductive Hold where
  /-- Not held. -/
  | free
  /-- HELD until its key equals GVT (R183). -/
  | untilGvt
  /-- HELD until the writer of a conflicting line, named by core and key, commits or is rolled back (R181). -/
  | untilWriter (core : Nat) (key : Key)
  /-- HELD, and its hold has ended: the writer has committed or been rolled back (R175, R181). -/
  | ended
  deriving DecidableEq, Repr

/-- An entry of a queue: its message, a counter argument, the clock since it is its queue's head, its hold, the mark that an
activation has taken it (06 R149; 07 R175), and the mark that it stands in the spill pool (04 R92). -/
structure QEntry where
  msg   : Msg
  carg  : Word
  head  : Option Nat
  hold  : Hold
  taken : Bool
  spilled : Bool
  deriving DecidableEq, Repr

/-- A channel of messages in flight (05 R111, R127). -/
structure Channel where
  sender : Nat
  core   : Nat
  queue  : Nat
  msgs   : List Msg
  deriving DecidableEq, Repr

/-- What a parked slot waits for (06 R147). -/
inductive Park where
  /-- A translation walk (03 R72). -/
  | walk
  /-- A write to its monitored line (04 R107). -/
  | waita
  /-- A message accepted into a queue of its core (12 R338). -/
  | idle
  /-- A job, by its id (11 R288). -/
  | job (id : BitVec 16)
  /-- A barrier episode of a level: 0 gang, 1 clus, 2 blk (06 R160). -/
  | bar (level episode : Nat)
  /-- Gang formation of a size (06 R155). -/
  | gang (size : Nat) (dest : BitVec 5)
  /-- The result of a space request that traps on refusal (02 R44). -/
  | mapResult (id : BitVec 16)
  /-- The answer of a host read (01 R10). -/
  | answer
  /-- The image that a node query writes to its register (11 R292). -/
  | query
  /-- Its own outstanding accesses, in the mode that runs the whole reference machine (05 R116). -/
  | order
  deriving DecidableEq, Repr

/-- The state of a slot (06 R147). `stopped` is a slot that a fatal fault or the overrun path has stopped (14 R363,
R367); `halted` keeps the state held before the halt. -/
inductive SlotSt where
  | empty
  | ready
  | stalled (until_ : Nat)
  | parked (why : Park)
  | follower (leader : Nat)
  | halted (was : SlotSt)
  | stopped (reason : Nat)
  deriving DecidableEq, Repr

/-- The value of a register of some file. -/
inductive RegVal where
  | word (x : Word)
  | vec (x : VWord)
  | cap (x : Cap)
  deriving DecidableEq, Repr

/-- A fixed-latency result not yet landed: the register, the value it held, the producer's latency, the slot's distance count
at the producer, and the clock at which it lands (09 R217 to R220). -/
structure Pend where
  reg : RegName
  old : RegVal
  lat : Nat
  at_ : Nat
  lands : Nat
  deriving DecidableEq, Repr

/-- A monitor of `waita` (04 R107; 11 R283): the 64-byte line, the home agent space (true for LOCAL), the context and page
its translation named, and the bundle of the `waita`. -/
structure Monitor where
  line  : Nat
  local_ : Bool
  ctx   : Nat
  space : Nat
  vpn   : Nat
  keyid : Nat
  pc    : Int
  deriving DecidableEq, Repr

/-- What an operation of an issue queue does (05 R111). -/
inductive OpKind where
  | load
  | store
  | amo (op : Nat) (arg cmp : Word)
  | fence (kind : Nat)
  deriving DecidableEq, Repr

/-- One single-copy-atomic unit of an access (05 R113): the physical address, its length, the bytes a store writes, the
tag a capability store writes, the destination lane of a vector load, and the KEYID of its page. -/
structure Unit_ where
  addr  : Nat
  len   : Nat
  bytes : List Byte
  tag   : Option Bool
  lane  : Nat
  keyid : Nat
  deriving DecidableEq, Repr

/-- An operation presented by an agent and not yet complete (05 R111, R116); `rels` holds what the write of an issued `amo`
will carry (05 R122), `page` the page it then marks written (03 R82). -/
structure MemOp where
  id     : Nat
  kind   : OpKind
  units  : List Unit_
  dest   : Option RegName
  width  : Nat
  signed : Bool
  acq    : Option Nat
  rel    : Option Nat
  issued : Bool
  rels   : List (Nat × List Nat)
  page   : Option (Nat × Nat)
  deriving DecidableEq, Repr

/-- How far a write has travelled (05 R117). -/
inductive Reach where
  | own | core | clus | die | pkg | sys
  deriving DecidableEq, Repr

/-- What a line of device memory was last written under (03 R78): the KEYID, the slot's generation, and the key itself,
empty for none, which tells the bytes that are stored (R77). -/
structure Stamp where
  keyid : Nat
  gen   : Nat
  key   : List Byte
  deriving DecidableEq, Repr

/-- The stamp of a line that nothing has written under a key. -/
def Stamp.zero : Stamp := ⟨0, 0, []⟩

/-- A write of the reference machine (05 R111): one unit, its agent, its KEYID and stamp, its reach, the writes ordered
before it, the scopes it is a release at with the view it carries for each (R122), and for a committed Pantry write its
timeline (R114). -/
structure WriteRec where
  agent   : Nat
  addr    : Nat
  bytes   : List Byte
  tag     : Option Bool
  keyid   : Nat
  stamp   : Stamp
  reach   : Reach
  preds   : List Nat
  rels    : List (Nat × List Nat)
  timeline : Option Nat
  deriving DecidableEq, Repr

/-- A gang as its members know it: the leader's pod core id and the size (06 R155). -/
structure GangRef where
  leader : Nat
  size   : Nat
  deriving DecidableEq, Repr

/-- A thread slot (06 R147; 14 R359, R360): with its registers and levels, its pending results, its part in the reference
machine, the view its fetches must see (04 R102), the clock before which it issues no bundle (09 R217), and the level, the
episode and the address of a `bar` that has arrived and is still to perform (06 R160; 10 R272). -/
structure Slot where
  st       : SlotSt
  xstat    : Word
  bank1    : TrapBank
  bank2    : TrapBank
  pkperm   : Word
  pc       : Int
  npc      : Int
  code     : Cap
  g        : Vector Word 32
  c        : Vector Cap 16
  v        : Vector VWord 32
  k        : Vector Word 8
  pend     : List Pend
  dist     : Nat
  board    : List RegName
  actKey   : Option Key
  began    : Nat
  latch    : BitVec 32
  monitor  : Option Monitor
  lastJob  : Option (BitVec 16)
  kickId   : Option (BitVec 16)
  yielded  : List Nat
  gang     : Option GangRef
  ops      : List MemOp
  relFence : List (Nat × List Nat)
  acqReads : List Nat
  fetchView : List Nat
  stallTo  : Nat
  walkFault : Option (Nat × Word × Word)
  arrived  : Option (Nat × Nat × Int)
  deriving DecidableEq, Repr

/-- A slot at reset: EMPTY, registers 0 (log 13). -/
def Slot.reset : Slot where
  st := .empty
  xstat := 0
  bank1 := .reset
  bank2 := .reset
  pkperm := 0
  pc := 0
  npc := 0
  code := .zero
  g := Vector.replicate 32 0
  c := Vector.replicate 16 .zero
  v := Vector.replicate 32 0
  k := Vector.replicate 8 0
  pend := []
  dist := 0
  board := []
  actKey := none
  began := 0
  latch := 0
  monitor := none
  lastJob := none
  kickId := none
  yielded := []
  gang := none
  ops := []
  relFence := []
  acqReads := []
  fetchView := []
  stallTo := 0
  walkFault := none
  arrived := none

/-- The state of a job entry (11 R286). -/
inductive JobSt where
  | free | pending | done | faulted
  deriving DecidableEq, Repr

/-- An entry of the job table (11 R286, R287), with the hold of a matrix job (12 R318), the order of completion, the view
that its completion carries, and the block and the grid whose handler started it (06 R159, R165). -/
structure Job where
  st    : JobSt
  kind  : Nat
  id    : BitVec 16
  res   : Word
  hold  : Bool
  order : Nat
  view  : List Nat
  block : Option (Nat × Nat)
  deriving DecidableEq, Repr

/-- A job entry at reset (11 R286). -/
def Job.reset : Job := ⟨.free, 0, 0, 0, false, 0, [], none⟩

/-- A translation entry: a range entry covers a node, a page entry an aligned block (03 R66, R67). -/
structure TlbEntry where
  ctx    : Nat
  space  : Nat
  vpn    : Nat
  pages  : Nat
  frame  : Nat
  perm   : BitVec 7
  keyid  : Nat
  pkey   : Nat
  pkg    : Nat
  nodeid : Nat
  dirty  : Bool
  deriving DecidableEq, Repr

/-- An activation in RUNNING or FINISHED (07 R175): its key, timeline, the slot it runs on, the QT entry it took, the
named lines it has read and written (R180), the twins of what it sent (R185), and its slot's view as it finished (05
R138). -/
structure Act where
  key      : Key
  timeline : Nat
  slot     : Option Nat
  finished : Bool
  entry    : QEntry
  reads    : List Nat
  writes   : List Nat
  sent     : List Msg
  view     : List Nat
  deriving DecidableEq, Repr

/-- An activation as a conflict directory records it (07 R181). -/
structure DirRec where
  core     : Nat
  key      : Key
  timeline : Nat
  reader   : Bool
  writer   : Bool
  deriving DecidableEq, Repr

/-- The local-memory layout and the registers in force on a core since the last switch-in (04 R91; 07 R171). -/
structure InForce where
  spillK   : Nat
  larderK  : Nat
  ftrap    : Bool
  statemap : Word
  tlcfg    : Word
  deriving DecidableEq, Repr

/-- The debug state of a core (15 R387). -/
structure Dbg where
  brken    : Bool
  trace    : Bool
  stepping : Bool
  buffer   : Nat
  fill     : Nat
  deriving DecidableEq, Repr

/-- A core (01 R14; 06 R148; 14 R359). -/
structure Core where
  ctx      : Nat
  slots    : Vector Slot 4
  last     : Nat
  agectl   : Word
  lardcfg  : Word
  statemap : Word
  tlcfg    : Word
  hwLimit  : BitVec 12
  srng     : BitVec 32
  xtvec1   : Word
  force    : InForce
  seq      : BitVec 32
  colour   : Bool
  sent0    : Word
  recv0    : Word
  sent1    : Word
  recv1    : Word
  minsent  : Option Key
  lvtNote  : List Key
  queues   : Vector (List QEntry) 5
  eject    : List Msg
  port     : List Msg
  jobs     : KMap Job
  acts     : List Act
  larderHead : Nat
  larderTail : Nat
  retire   : List Nat
  dir      : KMap (List DirRec)
  rangeTlb : List TlbEntry
  pageTlb  : List TlbEntry
  exited   : Bool
  trigged  : Bool
  window   : Bool
  saved    : Bool
  dbg      : Dbg
  deriving DecidableEq, Repr

/-- A core at reset (06 R150; 07 R171, R178, R179; 08 R203; 14 R359, R365; the rest log 13). -/
def Core.reset : Core where
  ctx := 0
  slots := Vector.replicate 4 Slot.reset
  last := 3
  agectl := 0x0400
  lardcfg := 8
  statemap := 0
  tlcfg := 0
  hwLimit := 0x032
  srng := 1
  xtvec1 := 0
  force := ⟨4, 8, false, 0, 0⟩
  seq := 0
  colour := false
  sent0 := 0
  recv0 := 0
  sent1 := 0
  recv1 := 0
  minsent := none
  lvtNote := []
  queues := Vector.replicate 5 []
  eject := []
  port := []
  jobs := .empty
  acts := []
  larderHead := 0
  larderTail := 0
  retire := []
  dir := .empty
  rangeTlb := []
  pageTlb := []
  exited := false
  trigged := false
  window := false
  saved := false
  dbg := ⟨false, false, false, 0, 0⟩

/-- A counter of a cluster with its task and the views it joins (06 R152, R153; 05 R127). -/
structure Counter where
  value : Int
  armed : Bool
  core  : BitVec 3
  queue : BitVec 3
  hidx  : BitVec 10
  arg   : Word
  view  : List Nat
  deriving DecidableEq, Repr

/-- A counter at reset (06 R152). -/
def Counter.reset : Counter := ⟨0, false, 0, 0, 0, 0, []⟩

/-- A matrix command in its queue (12 R301, R302): its eight dwords, job entry, slot, the settings of the push, the
carried view, and how far it has run: `cursor`, begun, ended with a cause, held, stage-empty check pending. -/
structure MCmd where
  dw     : Vector Word 8
  job    : BitVec 16
  slot   : Nat
  infm   : Bool
  rnd    : BitVec 3
  view   : List Nat
  cursor : Nat
  begun  : Bool
  ended  : Bool
  cause  : Nat
  held   : Bool
  seq    : Nat
  deriving DecidableEq, Repr

/-- The origin of a weight line (12 R314): the command's source descriptor and the line's offset in it. -/
structure WldRec where
  core : Nat
  src  : Word
  line : Nat
  deriving DecidableEq, Repr

/-- A core's activation table in the engine (12 R313). -/
structure ActTable where
  lo    : BitVec 32
  hi    : BitVec 32
  slope : Vector (BitVec 32) 64
  icpt  : Vector (BitVec 32) 64
  deriving DecidableEq, Repr

/-- The identity table of a new context (12 R313). -/
def ActTable.reset : ActTable := ⟨0, 0x3F800000, Vector.replicate 64 0x3F800000, Vector.replicate 64 0⟩

/-- The matrix engine of a cluster (12 R300 to R321; 04 R94, R95); its ramp step, and the clock since which it holds it, 0 before
it has begun (15 R391). -/
structure Engine where
  queues : Vector (List MCmd) 8
  rot    : Nat
  seq    : Nat
  fmt    : Vector Word 8
  acc    : KMap (Vector (BitVec 32) 64)
  held   : List Nat
  weight : KMap VWord
  wld    : KMap WldRec
  scale  : KMap (BitVec 16)
  act    : KMap ActTable
  srng   : BitVec 32
  keeper : Option Nat
  keeperView : List Nat
  ramp   : Nat
  rampAt : Nat
  lastStep : Nat
  deriving DecidableEq, Repr

/-- An engine at reset (12 R304; 08 R203; 15 R391). -/
def Engine.reset : Engine where
  queues := Vector.replicate 8 []
  rot := 0
  seq := 0
  fmt := Vector.replicate 8 0x0808
  acc := .empty
  held := []
  weight := .empty
  wld := .empty
  scale := .empty
  act := .empty
  srng := 1
  keeper := none
  keeperView := []
  ramp := 1
  rampAt := 0
  lastStep := 0

/-- Who started a chain: a core's job, or a copy node of a queue's graph (12 R322; 06 R169). -/
inductive ChainOwner where
  | job (id : BitVec 16)
  | graph (queue frame node : Nat)
  deriving DecidableEq, Repr

/-- A copy chain (12 R322, R326, R327): the core it belongs to, its head, the entry it stands at with its cursor, the
active loops, the patterns and sender fields at its start, the view, whether a switch-out has stopped it (14 R369), and the cause
it ends with while its writes are still under way (05 R129). -/
structure Chain where
  id     : Nat
  ctx    : Nat
  core   : Nat
  slot   : Nat
  owner  : ChainOwner
  inGlobal : Bool
  head   : Nat
  entry  : Nat
  cursor : Nat
  loops  : List (Nat × Nat)
  dpat   : Vector Word 4
  infm   : Bool
  view   : List Nat
  stopped : Bool
  ending : Option Nat
  deriving DecidableEq, Repr

/-- A line of a speculative activation (07 R181): owner, physical line, bytes, byte mask and granule tags, and the
KEYID of the page. -/
structure PLine where
  core : Nat
  key  : Key
  line : Nat
  data : VWord
  mask : BitVec 64
  tags : BitVec 4
  keyid : Nat
  deriving DecidableEq, Repr

/-- A deferred action (07 R177, R190). -/
inductive DefAct where
  | store (cap : Cap) (space : Nat) (ea n : Nat) (value : Word) (rel : Option Nat)
  | send (dw2 : Word) (pay : Vector VWord 4)
  | space (op : Nat) (unit : Vector Word 5) (job : BitVec 16)
  | window (unit : Vector Word 5) (job : BitVec 16)
  | launch (cap : Cap) (space : Nat) (ea : Nat)
  deriving DecidableEq, Repr

/-- An entry of the commit queue: its owner and its action, in program order (07 R190). -/
structure Deferred where
  core : Nat
  slot : Nat
  key  : Key
  act  : DefAct
  deriving DecidableEq, Repr

/-- A cluster (06 R152; 07 R181, R190; 12 R322); of its barriers the arrivals of each core, and by episode the views released (06
R160). -/
structure Cluster where
  counters : KMap Counter
  engine   : Engine
  chains   : List Chain
  chainQ   : List Chain
  pantry   : List PLine
  commitQ  : List Deferred
  gvt      : KMap (Option Key)
  block    : Option Nat
  clusArr  : KMap Nat
  clusViews : KMap (List Nat)
  tlb2     : List TlbEntry
  deriving DecidableEq, Repr

/-- A cluster at reset. -/
def Cluster.reset : Cluster := ⟨.empty, .reset, [], [], [], [], .empty, none, .empty, .empty, []⟩

/-- A step that is due: which step, and the numbers that name its agent (log 1). -/
structure Due where
  step : Instr
  args : List Nat
  deriving DecidableEq, Repr

/-- A page of a context that missed, for a core itself, or for an agent that works beside it and has its cluster's second level
alone (03 R66, R70, R85). -/
structure Missed where
  core  : Nat
  own   : Bool
  ctx   : Nat
  space : Nat
  vpn   : Nat
  deriving DecidableEq, Repr

/-- A walk asked for or in progress (03 R69, R70): the context, space and page, the slots that wait on it, and the steps of
other agents that do, each with the page as it missed there. -/
structure Walk where
  ctx    : Nat
  space  : Nat
  vpn    : Nat
  waiters : List (Nat × Nat)
  dues   : List (Due × Missed)
  deriving DecidableEq, Repr

/-- A collective job of a die (12 R330, R331; 13 R355): once it has started, its participants by die and name. -/
structure Coll where
  ctx     : Nat
  core    : Nat
  job     : BitVec 16
  desc    : Vector Word 8
  view    : List Nat
  started : Bool
  since   : Nat
  cursor  : Nat
  cause   : Nat
  ended   : Bool
  group   : List (Nat × Nat)
  deriving DecidableEq, Repr

/-- A die: its walker, its collective engine, its throttle and the clusters that have left reset (03 R70; 15 R391,
R392). -/
structure Die where
  walks   : List Walk
  waiting : List Walk
  coll    : List Coll
  throttle : Nat
  released : Nat
  deriving DecidableEq, Repr

/-- A die at reset. -/
def Die.reset : Die := ⟨[], [], [], 4, 0⟩

/-- A Cellar node (02 R36). The sibling links are kept as the order of R37: children by FRAME, then NODEID. -/
structure Node where
  sp      : Nat
  frozen  : Bool
  granted : Bool
  revoked : Bool
  depth   : Nat
  ctx     : Nat
  vpn     : Nat
  pkey    : Nat
  keyid   : Nat
  perm    : BitVec 7
  frame   : Nat
  npages  : Nat
  parent  : Option Nat
  deriving DecidableEq, Repr

/-- A slot of a package's key table (03 R76). -/
structure KeySlot where
  loaded : Bool
  key    : List Byte
  owner  : Nat
  gen    : Nat
  deriving DecidableEq, Repr

/-- A key slot at package reset (03 R76). -/
def KeySlot.reset : KeySlot := ⟨false, [], 0, 0⟩

/-- Where a space request came from: a job of a core, or the control mailbox (02 R39, R400). -/
inductive Origin where
  | job (core : Nat) (id : BitVec 16)
  | mailbox (pkg : Nat)
  | retire (ctx : Nat)
  deriving DecidableEq, Repr

/-- A request at a mapping engine (02 R39, R41; 11 R291, R292, R294): `reserve` is the reservation that another engine, or
itself, asks of a destination home engine (R46). -/
inductive EngReq where
  | space (unit : Vector Word 5) (origin : Origin)
  | window (unit : Vector Word 5) (origin : Origin)
  | query (core slot began : Nat) (dest : BitVec 5) (mode nodeid ctx space vpn : Nat)
  | reserve (src : Nat) (unit : Vector Word 5)
  deriving DecidableEq, Repr

/-- A reservation held (02 R46, R47): the range, the engine that asked, and a window to reopen on refusal. -/
structure Reservation where
  src    : Nat
  ctx    : Nat
  space  : Nat
  vpn    : Nat
  pages  : Nat
  window : Option (Nat × Nat)
  deriving DecidableEq, Repr

/-- What the source engine waits for (02 R46, R48): the reservation of the request in execution, then its answer. -/
inductive EngBusy where
  | idle
  | waiting (unit : Vector Word 5) (origin : Origin) (dest : Nat)
  | answered (unit : Vector Word 5) (origin : Origin) (dest : Nat) (code count : Nat)
  deriving DecidableEq, Repr

/-- A shootdown in progress (02 R55, R59): the nodes withdrawn (none for a grant), the contexts and pages named, the
dies still to acknowledge, the unmaps waited for (R62), the request to complete, and the runs of frames whose writes its
completion carries (R60, R61). -/
structure Shoot where
  id     : Nat
  grant  : Bool
  nodes  : List Nat
  ranges : List (Nat × Nat × Nat × Nat)
  dies   : List Nat
  after  : List Nat
  count  : Nat
  origin : Origin
  unit   : Vector Word 5
  frames : List (Nat × Nat)
  deriving DecidableEq, Repr

/-- A harvest in progress (03 R83): once it has swapped, the old dword and the Pantry lines whose writes it reports. -/
structure Harvest where
  core  : Nat
  id    : BitVec 16
  ctx   : Nat
  addr  : Nat
  swapped : Option Word
  held  : List (Nat × Key × Nat)
  deriving DecidableEq, Repr

/-- The mapping engine of a package (02 R41): `drops` and `releases` name the first pages of reservations to be dropped,
with the unit's request to be answered, or ended. -/
structure MapEngine where
  queue   : List EngReq
  busy    : EngBusy
  resv    : List Reservation
  drops   : List (Vector Word 5 × Origin × Nat × Nat)
  releases : List (Vector Word 5)
  shoots  : List Shoot
  harvests : List Harvest
  next    : Nat
  deriving DecidableEq, Repr

/-- The control mailbox of a package (15 R379): its arguments, and those that the command in progress was started with. -/
structure Mailbox where
  arg    : Vector Word 8
  held   : Vector Word 8
  busy   : Bool
  ovr    : Bool
  result : Nat
  deriving DecidableEq, Repr

/-- The phase of a live update (13 R358). -/
inductive Update where
  | none_
  /-- The queues are coming to an entry boundary (step 2). -/
  | quiescing
  | handed (since : Nat)
  deriving DecidableEq, Repr

/-- The firmware registers and the firmware's own state of a package (13 R344, R356 to R358): the images of the slot that ACTIVE
names and of the other, and the handover structure of an update, of which the spec gives the version alone. -/
structure Firmware where
  cfgRef  : Bool
  updFail : Bool
  rollBk  : Bool
  rung    : Nat
  hbAddr  : Word
  hbCount : Word
  hbNext  : Nat
  active  : Bool
  staged  : Bool
  stagedHand : Bool
  update  : Update
  lost    : List Nat
  image   : List Byte
  spare   : List Byte
  handover : Option Word
  deriving DecidableEq, Repr

/-- The next heartbeat is due: HBADDR is set, and a millisecond has passed since the last (13 R357). -/
def Firmware.beats (f : Firmware) (clock : Nat) : Bool := f.hbAddr != 0 && decide (f.hbNext ≤ clock)

/-- An evaluated node of a graph (06 R169). -/
inductive GNode where
  | waiting
  | running
  | finished
  deriving DecidableEq, Repr

/-- A graph in evaluation: its header, its parent node, and its nodes' states (06 R168, R169). -/
structure GFrame where
  parent : Option (Nat × Nat)
  addr   : Nat
  nodes  : KMap GNode
  iters  : KMap Nat
  deriving DecidableEq, Repr

/-- The run of a GRAPH entry (06 R169; 13 R348). -/
structure GraphRun where
  frames : KMap GFrame
  status : Nat
  ending : Option Nat
  result : Nat
  grids  : List (Nat × Nat × Nat)
  deriving DecidableEq, Repr

/-- What the queue's entry in progress waits for (13 R347). -/
inductive QBusy where
  | idle
  | grid (id : Nat)
  | graph (run : GraphRun)
  | signal (addr value : Nat)
  | wait (addr value : Nat)
  deriving DecidableEq, Repr

/-- A host queue (13 R345, R346, R352): `entry` is the entry at HEAD, once read and until it begins. -/
structure HostQueue where
  state  : Nat
  head   : Nat
  tail   : Nat
  errcnt : Nat
  disc   : Nat
  ctx    : Nat
  base   : Cap
  size   : Nat
  prio   : Nat
  since  : Nat
  entry  : Option (Vector Word 8)
  busy   : QBusy
  grids  : List Nat
  doomed : Bool
  deriving DecidableEq, Repr

/-- An unbound queue (13 R345). -/
def HostQueue.reset : HostQueue := ⟨0, 0, 0, 0, 0, 0, .zero, 0, 0, 0, none, .idle, [], false⟩

/-- The dump engine of a package (14 R376): the slot whose dump is being written, and the slots that wait. -/
structure Dump where
  cur     : Option (Nat × Nat × Nat)
  waiting : List (Nat × Nat × Nat)
  deriving DecidableEq, Repr

/-- The lifecycle states (15 R388). -/
inductive Lifecycle where
  | manufacture | production | debugOpen | returned
  deriving DecidableEq, Repr

/-- A type-3 device found on a CXL port (04 R99, R100): its port, its capacity in bytes, and whether it offers 32 bits of
extended metadata a line. -/
structure CxlPort where
  port     : Nat
  capacity : Nat
  metadata : Bool
  deriving DecidableEq, Repr

/-- What a package's fuses and its configuration hold (13 R341, R343, R344; 15 R388, R389; 04 R100): the table in force, the
4 KiB that the boot ROM finds at the next reset, and the columns that the fuses enable, a bit each. -/
structure PkgConfig where
  layout   : Vector Word 2
  role     : Vector Word 2
  table    : List Byte
  enabled  : Vector Nat 2
  minSvn   : Nat
  fused    : Lifecycle
  device   : Word
  nonce    : BitVec 128
  ports    : List CxlPort
  deriving DecidableEq, Repr

/-- A sample asked for (15 R386). -/
structure Sample where
  time : Nat
  buf  : Nat
  size : Nat
  deriving DecidableEq, Repr

/-- A package. -/
structure Package where
  cfg     : PkgConfig
  cellar  : KMap Node
  keys    : KMap KeySlot
  eng     : MapEngine
  mailbox : Mailbox
  fw      : Firmware
  queues  : KMap HostQueue
  dump    : Dump
  life    : Lifecycle
  unlocks : Nat
  samples : List Sample
  hwDir   : KMap (List DirRec)
  halted  : Bool
  deriving DecidableEq, Repr

/-- The states of a context (01 R9). -/
inductive CtxSt where
  | free | saved | running | reset | retiring
  deriving DecidableEq, Repr

/-- A receive window (02 R46). -/
structure Window where
  wvpn    : Nat
  wpages  : Nat
  wsp     : Nat
  maxperm : BitVec 7
  kinds   : BitVec 2
  anysrc  : Bool
  wsrc    : Nat
  once    : Bool
  deriving DecidableEq, Repr

/-- A closed window (02 R46). -/
def Window.closed : Window := ⟨0, 0, 0, 0, 0, false, 0, false⟩

/-- A tracked range (03 R81). -/
structure Track where
  space  : Nat
  vpn    : Nat
  pages  : Nat
  bitmap : Nat
  deriving DecidableEq, Repr

/-- The registers of a context's control page (01 R16). -/
structure CtrlPage where
  pkdef    : Word
  spillK   : Nat
  dpat     : Vector Word 4
  derr     : Word
  derrdst  : Word
  htbase   : Word
  gvtctl   : Word
  tlerr    : Word
  tlerrval : Word
  polerr   : Word
  pmbusy   : Option Nat
  pmerr    : Bool
  pmval    : Word
  deriving DecidableEq, Repr

/-- The control page at reset (01 R16; 04 R91; 07 R189). -/
def CtrlPage.reset : CtrlPage := ⟨0, 4, Vector.replicate 4 0, 0, 0, 0, 4, 0, 0, 0, none, false, 0⟩

/-- A launch (12 R333): its record, the GLOBAL address of the record, the host queue and the graph node it comes from, the
view it carries, whether its record failed a check, and whether it could not be read (13 R347). -/
structure Launch where
  dw    : Vector Word 8
  addr  : Nat
  queue : Option Nat
  node  : Option (Nat × Nat)
  view  : List Nat
  refused : Bool
  unread : Bool
  deriving DecidableEq, Repr

/-- The reported fault of a block (06 R165, R166). -/
structure FaultRec where
  block : Nat
  core  : Nat
  cause : Nat
  val   : Word
  pc    : Word
  deriving DecidableEq, Repr

/-- A grid at the dispatchers (06 R161 to R167; 20 R396). -/
structure Grid where
  launch   : Launch
  image    : List Byte
  nblk     : Nat
  next     : Nat
  ranges   : KMap (List Nat)
  trigBlk  : Nat
  ended    : Nat
  ndone    : Nat
  nfault   : Nat
  nnever   : Nat
  nstop    : Nat
  ndisc    : Nat
  fault    : Option FaultRec
  triggered : Bool
  complete : Bool
  cancelled : Bool
  destroyed : Bool
  arrived  : List Nat
  acked    : List Nat
  view     : List Nat
  deriving DecidableEq, Repr

/-- A resident block (06 R158 to R160, R166, R167): `reported` that its fault has reached the pod dispatcher, `views` what its
barrier episodes have released. -/
structure Block where
  ctx      : Nat
  grid     : Nat
  index    : Nat
  cols     : Nat
  rows     : Nat
  clusters : List Nat
  fault    : Option FaultRec
  stopping : Bool
  ndisc    : Nat
  trigged  : Bool
  arr      : KMap Nat
  reported : Bool
  views    : KMap (List Nat)
  deriving DecidableEq, Repr

/-- A reduction round of a context (07 R188): the colour it counts, the clock of its start, whether it is open, and the
clock of its next pass. -/
structure Round where
  colour : Bool
  start  : Nat
  open_  : Bool
  next   : Nat
  deriving DecidableEq, Repr

/-- A stopped slot of a saved context (14 R367, R372): the slot with ELAPSED in its `began`. -/
structure SavedSlot where
  core : Nat
  slot : Nat
  data : Slot
  elapsed : Nat
  deriving DecidableEq, Repr

/-- A Loft image as the device restores it (14 R371, R372; log 40): `locals` holds each core's local memory and the granules
of it that are tagged; `context` the bytes of the CONTEXT section as last written; `valid` that VALID is whole; `counted` the messages
of LATE that CORE sections count as received, `drops` the timed messages dropped since (07 R188). -/
structure Image where
  cores    : KMap Core
  clusters : KMap Cluster
  slots    : List SavedSlot
  colls    : List (Nat × Coll)
  flight   : List Channel
  late     : List Msg
  locals   : KMap (List Byte × List Nat)
  context  : List Byte
  slow     : Bool
  stTime   : Nat
  valid    : Bool
  counted  : Nat
  drops    : List Msg
  deriving DecidableEq, Repr

/-- An image with nothing in it: a new context (01 R9). -/
def Image.empty : Image := ⟨.empty, .empty, [], [], [], [], .empty, [], false, 0, true, 0, []⟩

/-- The Attic of a context (14 R375). -/
structure Attic where
  addr   : Nat
  size   : Nat
  state  : Nat
  trunc  : Bool
  nested : Bool
  nextra : Nat
  used   : Nat
  deriving DecidableEq, Repr

/-- The switch a context is in (13 R350; 14 R366): in its window, whether its last round has been made (07 R193). -/
inductive Switch where
  | none_
  | agreed (st : Nat)
  | window (st : Nat) (round : Bool)
  deriving DecidableEq, Repr

/-- A context (01 R9; 13 R350; 14 R371; 15 R380). -/
structure Ctx where
  st      : CtxSt
  home    : Nat
  seeds   : List Cap
  frozen  : Bool
  windows : Vector Window 16
  tracks  : List Track
  harvesting : List Nat
  page    : CtrlPage
  counts  : Vector Word 8
  dies    : List Nat
  lastDies : List Nat
  neverIn : Bool
  order   : Nat
  slice   : Nat
  cap     : Nat
  nextSlice : Nat
  nextCap : Nat
  sliceEnd : Option Nat
  deduct  : Nat
  sw      : Switch
  lofts   : KMap (Nat × Nat)
  gen     : Nat
  image   : Image
  attic   : Option Attic
  policy  : List (BitVec 32)
  pstate  : Vector Word 16
  grids   : KMap Grid
  gridCount : Nat
  launches : List Launch
  timeOff : Word
  round   : Option Round
  deriving DecidableEq, Repr

/-- A FREE context. -/
def Ctx.reset : Ctx where
  st := .free
  home := 0
  seeds := []
  frozen := false
  windows := Vector.replicate 16 Window.closed
  tracks := []
  harvesting := []
  page := .reset
  counts := Vector.replicate 8 0
  dies := []
  lastDies := []
  neverIn := true
  order := 0
  slice := 1000
  cap := 0
  nextSlice := 0
  nextCap := 0
  sliceEnd := none
  deduct := 0
  sw := .none_
  lofts := .empty
  gen := 0
  image := .empty
  attic := none
  policy := []
  pstate := Vector.replicate 16 0
  grids := .empty
  gridCount := 0
  launches := []
  timeOff := 0
  round := none

/-- A run of a policy program (13 R353): the context, event, candidates, registers, word index and steps used. -/
structure PolRun where
  ctx   : Nat
  event : Nat
  queues : List Nat
  cand  : List (Vector Word 8)
  p     : Vector Word 8
  pc    : Nat
  steps : Nat
  result : Option Word
  failed : Bool
  deriving DecidableEq, Repr

/-- A request that an interface sends to the host (01 R10; 05 R112, R135): the die, the host address, and what it asks. -/
inductive HostReq where
  | write (die addr : Nat) (bytes : List Byte)
  | read (die addr n : Nat)
  deriving DecidableEq, Repr

/-- What the device tells the host of its own accord (03 R77; 04 R97; 14 R376; 15 R392). -/
inductive Notice where
  /-- An uncorrectable or poisoned read at a device address. -/
  | memory (addr : Nat)
  /-- A translation whose KEYID differs from that of the frame's root child. -/
  | key (addr : Nat)
  /-- A context's dump is done. -/
  | dump (ctx : Nat)
  /-- A fatal error of a package, through Advanced Error Reporting. -/
  | fatal (pkg : Nat)
  deriving DecidableEq, Repr

/-- A slot named by its pod core id and its number. -/
structure SlotRef where
  core : Nat
  slot : Nat
  deriving DecidableEq, Repr

/-- Memory: the bytes that differ from what an unlisted address reads as, by ascending address (log 11). -/
abbrev Memory := List Host.Cell

/-- The machine. -/
structure State where
  mem      : Memory
  tags     : List Nat
  stamps   : KMap Stamp
  poison   : List Nat
  cores    : KMap Core
  clusters : KMap Cluster
  dies     : KMap Die
  pkgs     : KMap Package
  ctxs     : KMap Ctx
  timelines : KMap Nat
  blocks   : KMap Block
  nextBlock : Nat
  dirs     : KMap (KMap (List DirRec))
  channels : List Channel
  outbox   : List HostReq
  hostAnswer : List (Nat × Nat × Nat)
  notices  : List Notice
  eager    : Bool
  writes   : KMap WriteRec
  views    : KMap (List Nat)
  arrivals : List Nat
  nextWrite : Nat
  polRun   : Option PolRun
  reply    : List Byte
  agenda   : List Due
  missed   : List Missed
  granted  : List (Due × Missed)
  announced : KMap (Option Key)
  args     : List Nat
  cur      : SlotRef
  focus    : Nat
  bundle   : Word
  performed : Bool
  clock    : Nat
  podTime  : Nat
  free     : Nat
  deriving DecidableEq, Repr

/-- The package's built-in configuration and the fuses the model starts from (13 R344; logs 10, 30). -/
def PkgConfig.reset : PkgConfig where
  layout := #v[0x0101, 0]
  role := #v[0x3AA55, 0]
  table := []
  enabled := #v[0x1FFFF, 0x1FFFF]
  minSvn := 0
  fused := .production
  device := 0
  nonce := 0
  ports := []

/-- The root nodes of a package: HBM below the Cellar and the host window (02 R33; 01 R10). -/
def rootNodes (pkg : Nat) : KMap Node :=
  ⟨[(0, ⟨0, false, false, false, 0, 0, pkg * 2 ^ 32, 0, 0, 0x7F, pkg * 2 ^ 32, Config.cellarFrame, none⟩),
    (1, ⟨0, false, false, false, 0, 0, pkg * 2 ^ 32 + Config.hbmFrames, 0, 0, 0x7F,
      pkg * 2 ^ 32 + Config.hbmFrames, Config.cxlFrame - Config.hbmFrames, none⟩)]⟩

/-- A package after reset (02 R33; 03 R76; 13 R344, R345, R356; 15 R379). -/
def Package.reset (pkg : Nat) : Package where
  cfg := .reset
  cellar := rootNodes pkg
  keys := .empty
  eng := ⟨[], .idle, [], [], [], [], [], 0⟩
  mailbox := ⟨Vector.replicate 8 0, Vector.replicate 8 0, false, false, 0⟩
  fw := ⟨true, false, false, 0, 0, 0, 0, false, false, false, .none_, [], [], [], none⟩
  queues := .empty
  dump := ⟨none, []⟩
  life := .production
  unlocks := 0
  samples := []
  hwDir := .empty
  halted := false

/-- The machine right after reset: one package, number 0, every context FREE, memory with nothing listed, the agenda
empty (logs 1, 10, 13, 20, 21). -/
def State.reset : State where
  mem := []
  tags := []
  stamps := .empty
  poison := []
  cores := .empty
  clusters := .empty
  dies := .empty
  pkgs := ⟨[(0, Package.reset 0)]⟩
  ctxs := .empty
  timelines := .empty
  blocks := .empty
  nextBlock := 0
  dirs := .empty
  channels := []
  outbox := []
  hostAnswer := []
  notices := []
  eager := true
  writes := .empty
  views := .empty
  arrivals := []
  nextWrite := 0
  polRun := none
  reply := []
  agenda := []
  missed := []
  granted := []
  announced := .empty
  args := []
  cur := ⟨0, 0⟩
  focus := 0
  bundle := 0
  performed := true
  clock := 0
  podTime := 0
  free := 0

end Sys2Proof.Machine
end

