-- ==== Sys2Proof/Machine/Memory.lean ====
section
/-! DEFINITION. Memory as sorted cells, its canonical form, reads and writes of little-endian values (00 R1), the places
of local memory in the one address line, tags, stamps and the stored bytes of keyed lines (01 R19, R20; 03 R77, R78). -/

namespace Sys2Proof.Machine

/-- What a byte that nothing has written reads as (log 11: DESIGN CHOICE, unsafe). -/
def unlistedByte : Byte := 0

/-- The byte at an address of a list of cells. -/
def Memory.look : Memory → Nat → Byte
  | [], _ => unlistedByte
  | (a', b) :: t, a => if a = a' then b else Memory.look t a

/-- One byte of memory. -/
def Memory.byte (m : Memory) (a : Nat) : Byte := Memory.look m a

/-- The cells with one byte written: the unlisted value removes the cell, any other stands in its place. -/
def Memory.put : Memory → Nat → Byte → Memory
  | [], a, b => if b = unlistedByte then [] else [(a, b)]
  | (a', b') :: t, a, b =>
    if a < a' then (if b = unlistedByte then (a', b') :: t else (a, b) :: (a', b') :: t)
    else if a = a' then (if b = unlistedByte then t else (a, b) :: t)
    else (a', b') :: Memory.put t a b

/-- Memory with consecutive bytes written from an address up. -/
def Memory.write (m : Memory) (a : Nat) : List Byte → Memory
  | [] => m
  | b :: bs => Memory.write (Memory.put m a b) (a + 1) bs

/-- Consecutive bytes. -/
def Memory.read (m : Memory) (a : Nat) : Nat → List Byte
  | 0 => []
  | n + 1 => m.byte a :: Memory.read m (a + 1) n

/-- The canonical form of a list of cells above a bound: addresses strictly rising, no cell at the unlisted value. -/
def Memory.wfFrom (lo : Nat) : Memory → Bool
  | [] => true
  | (a, b) :: t => decide (lo ≤ a) && decide (b ≠ unlistedByte) && Memory.wfFrom (a + 1) t

/-- The canonical form of memory. -/
def Memory.wf (m : Memory) : Bool := Memory.wfFrom 0 m

/-- The value of little-endian bytes (00 R1). -/
def leNat : List Byte → Nat
  | [] => 0
  | b :: bs => b.toNat + 256 * leNat bs

/-- The n little-endian bytes of a value (00 R1). -/
def leBytes : Nat → Nat → List Byte
  | 0, _ => []
  | n + 1, x => BitVec.ofNat 8 x :: leBytes n (x / 256)

/-- Local memory stands in the one address line beyond the 52-bit device addresses of 01 R10: core by core, 64 KiB. -/
def localBase (core : Nat) : Nat := 2 ^ 52 + core * 65536

/-- The physical address of a byte of a core's local memory. -/
def localAddr (core off : Nat) : Nat := localBase core + off % 65536

/-- The package of a device physical address (01 R10). -/
def pkgOfAddr (a : Nat) : Nat := a / 2 ^ 44 % 256

/-- The package of a frame (01 R10). -/
def pkgOfFrame (f : Nat) : Nat := f / 2 ^ 32 % 256

/-- The part of a frame number within its package. -/
def localFrame (f : Nat) : Nat := f % 2 ^ 32

/-- A host-window frame (01 R10). -/
def isHostFrame (f : Nat) : Bool := decide (Config.hbmFrames ≤ localFrame f) && decide (localFrame f < Config.cxlFrame)

/-- A Cellar frame (01 R10). -/
def isCellarFrame (f : Nat) : Bool := decide (Config.cellarFrame ≤ localFrame f) && decide (localFrame f < Config.hbmFrames)

/-- The granules that consecutive bytes touch (01 R19). -/
def granules (a n : Nat) : List Nat :=
  if n = 0 then [] else (List.range ((a + n - 1) / 16 - a / 16 + 1)).map (fun i => a / 16 + i)

/-- The lines that consecutive bytes touch. -/
def linesOf (a n : Nat) : List Nat :=
  if n = 0 then [] else (List.range ((a + n - 1) / 64 - a / 64 + 1)).map (fun i => a / 64 + i)

/-- The state of a package. -/
def State.pkg (s : State) (p : Nat) : Package := s.pkgs.getD p (Package.reset p)

/-- The state of a context. -/
def State.ctx (s : State) (c : Nat) : Ctx := s.ctxs.getD c Ctx.reset

/-- A key slot of the package of an address (03 R76). -/
def State.keySlot (s : State) (p k : Nat) : KeySlot := (s.pkg p).keys.getD k KeySlot.reset

/-- A key slot that holds no key: slot 0 needs none (03 R76, R77). -/
def State.keyEmpty (s : State) (p k : Nat) : Bool := k != 0 && !(s.keySlot p k).loaded

/-- The stamp that a write under a KEYID leaves (03 R78). -/
def State.stampOf (s : State) (a k : Nat) : Stamp :=
  if k = 0 then Stamp.zero else let x := s.keySlot (pkgOfAddr a) k; ⟨k, x.gen, x.key⟩

/-- The stamp of the line of an address. -/
def State.stampAt (s : State) (a : Nat) : Stamp := s.stamps.getD (a / 64) Stamp.zero

/-- A line of device memory whose stamp is that of a write under a KEYID: it decrypts to what was written (03 R77, R78);
local memory is under no key. -/
def State.keyed (s : State) (a n keyid : Nat) : Bool :=
  decide (2 ^ 52 ≤ a) || (linesOf a n).all (fun l => s.stamps.getD l Stamp.zero == s.stampOf a keyid)

/-- The 64 bytes of a line as a KEYID reads them: `mem` holds what was written, so under another key the bytes are what
that key makes of the stored ones (03 R77). -/
def State.lineUnder (s : State) (l keyid : Nat) : List Byte :=
  Cipher.line false (s.stampOf (64 * l) keyid).key (l % 2 ^ 46)
    (Cipher.line true (s.stampAt (64 * l)).key (l % 2 ^ 46) (s.mem.read (64 * l) 64))

/-- The bytes of memory as a KEYID reads them (03 R77). -/
def State.readKey (s : State) (a n keyid : Nat) : List Byte × State :=
  if s.keyed a n keyid then (s.mem.read a n, s)
  else ((((linesOf a n).flatMap (fun l => s.lineUnder l keyid)).drop (a % 64)).take n, s)

/-- A line about to be written under another key than its last: every byte of it changes, so its granules lose their tags
(01 R20; 03 R77). -/
def State.rekeyLine (s : State) (a keyid l : Nat) : State :=
  if s.stamps.getD l Stamp.zero = s.stampOf a keyid then s
  else { s with mem := s.mem.write (64 * l) (s.lineUnder l keyid), tags := s.tags.filter (fun g => g / 4 != l) }

/-- The lines of a write to device memory under its key; a line that is written whole needs none. -/
def State.rekey (s : State) (a n keyid : Nat) : State :=
  if s.keyed a n keyid then s
  else ((linesOf a n).filter (fun l => decide (64 * l < a) || decide (a + n < 64 * l + 64))).foldl (fun s l => s.rekeyLine a keyid l) s

/-- Bytes written at their memory: the bytes, the granule tags (01 R20: a capability store sets or clears its granule's,
any other write clears every granule it touches), and the stamps of the device lines (03 R78). -/
def State.poke (s : State) (a : Nat) (bs : List Byte) (tag : Option Bool) (keyid : Nat) : State :=
  let s := s.rekey a bs.length keyid
  let gs := granules a bs.length
  let cleared := s.tags.filter (fun t => !gs.contains t)
  let tags := match tag with
    | some true => gs.foldl insertNat cleared
    | _ => cleared
  let stamps := if a < 2 ^ 52 then (linesOf a bs.length).foldl (fun m l => m.set l (s.stampOf a keyid)) s.stamps
    else s.stamps
  { s with mem := s.mem.write a bs, tags := tags, stamps := stamps }

/-- Whether a granule reads as tagged under a KEYID (03 R78); local memory carries no stamp. -/
def State.tagAt (s : State) (a keyid : Nat) : Bool :=
  s.tags.contains (a / 16) && (decide (2 ^ 52 ≤ a) || s.stampAt a == s.stampOf a keyid)

end Sys2Proof.Machine
end

