-- ==== Sys2Proof/Machine/Access.lean ====
section
/-! DEFINITION. Reading and writing the parts of the state: cores, clusters, dies, packages and contexts by number, the
slot whose bundle runs, its registers (09 R216), and the fields of XSTAT (14 R360). -/

namespace Sys2Proof.Machine

/-- What a meaning answers with. -/
abbrev Out := Host.Outcome State Fault Refusal

/-- A core that nothing has changed since reset: Garret's cores run firmware's context (13 R342). -/
def Core.initial (i : Nat) : Core := if 2 ^ 20 ≤ i then { Core.reset with ctx := 0xFFFFF } else Core.reset
/-- A core by its pod core id, or by 2^20 and its firmware core id (01 R14). -/
def State.core (s : State) (i : Nat) : Core := s.cores.getD i (Core.initial i)
/-- The state with a core replaced. -/
def State.setCore (s : State) (i : Nat) (c : Core) : State := { s with cores := s.cores.set i c }
/-- The state with a core changed. -/
def State.modCore (s : State) (i : Nat) (f : Core → Core) : State := s.setCore i (f (s.core i))

/-- A cluster: eight consecutive pod core ids (01 R14). -/
def State.cluster (s : State) (i : Nat) : Cluster := s.clusters.getD i Cluster.reset
/-- The state with a cluster changed. -/
def State.modCluster (s : State) (i : Nat) (f : Cluster → Cluster) : State :=
  { s with clusters := s.clusters.set i (f (s.cluster i)) }

/-- A die by its number, 2 × package + die (12 R330). -/
def State.die (s : State) (i : Nat) : Die := s.dies.getD i Die.reset
/-- The state with a die changed. -/
def State.modDie (s : State) (i : Nat) (f : Die → Die) : State := { s with dies := s.dies.set i (f (s.die i)) }

/-- The state with a package changed. -/
def State.modPkg (s : State) (i : Nat) (f : Package → Package) : State :=
  { s with pkgs := s.pkgs.set i (f (s.pkg i)) }

/-- The state with a context changed. -/
def State.modCtx (s : State) (i : Nat) (f : Ctx → Ctx) : State := { s with ctxs := s.ctxs.set i (f (s.ctx i)) }

/-- The cluster of a core (01 R14). -/
def clusterOf (core : Nat) : Nat := core / 8
/-- The die of a core by either kind of id (01 R14, 12 R330). -/
def dieOf (core : Nat) : Nat := core % 2 ^ 20 / 2048
/-- The package of a core (01 R14). -/
def pkgOf (core : Nat) : Nat := core % 2 ^ 20 / 4096

/-- The Garret columns that a die's layout names (13 R341, R343). -/
def garretColumns (lay : Nat) : List Nat :=
  (if 1 ≤ bitsOf lay 0 2 then [bitsOf lay 4 5] else []) ++ (if 2 ≤ bitsOf lay 0 2 then [bitsOf lay 12 5] else [])

/-- The work columns of a die: the lowest columns, at most sixteen, outside its Garret that the fuses enable (13 R341). -/
def PkgConfig.workColumns (c : PkgConfig) (die : Nat) : List Nat :=
  let lay := (c.layout.get (Fin.ofNat 2 die)).toNat
  ((List.range 32).filter (fun x =>
    (c.enabled.get (Fin.ofNat 2 die)).testBit x && !(garretColumns lay).contains x)).take 16

/-- How many work columns a die has (13 R341). -/
def PkgConfig.columns (c : PkgConfig) (die : Nat) : Nat := (c.workColumns die).length

/-- A core that exists: its package is populated and its work column is one the die has (01 R14; 13 R341). -/
def State.coreExists (s : State) (core : Nat) : Bool :=
  decide (core < 2 ^ 20) &&
    (match s.pkgs.get? (pkgOf core) with
     | none => false
     | some p => decide (core / 128 % 16 < p.cfg.columns (core / 2048 % 2)))

/-- A firmware core id names a Garret core: its package is populated, its die has the Garret column, and its reserved bits are
zero (01 R14; 13 R343). -/
def State.garretExists (s : State) (id : Nat) : Bool :=
  decide (id < 2 ^ 20) && bitsOf id 7 3 == 0 &&
    (match s.pkgs.get? (pkgOf id) with
     | none => false
     | some p => decide (bitsOf id 10 1 < (garretColumns (p.cfg.layout.get (Fin.ofNat 2 (id / 2048))).toNat).length))

/-- The resident block of a core. -/
def State.blockOf (s : State) (core : Nat) : Option (Nat × Block) :=
  match (s.cluster (clusterOf core)).block with
  | some b => (s.blocks.get? b).map (fun x => (b, x))
  | none => none

/-- The cores of a block (06 R158). -/
def Block.cores (b : Block) : List Nat := b.clusters.flatMap (fun c => (List.range 8).map (fun i => c * 8 + i))

/-- A host queue by its number, package × 4096 + queue (13 R345). -/
def State.hq (s : State) (q : Nat) : HostQueue := (s.pkg (q / 4096)).queues.getD (q % 4096) HostQueue.reset

/-- The state with a host queue changed. -/
def State.modHq (s : State) (q : Nat) (f : HostQueue → HostQueue) : State :=
  s.modPkg (q / 4096) (fun p => { p with queues := p.queues.set (q % 4096) (f (s.hq q)) })

/-- A slot of a core. -/
def Core.slot (c : Core) (i : Nat) : Slot := c.slots.get (Fin.ofNat 4 i)
/-- The core with a slot replaced. -/
def Core.setSlot (c : Core) (i : Nat) (x : Slot) : Core :=
  { c with slots := c.slots.set (Fin.ofNat 4 i).val x (Fin.ofNat 4 i).isLt }

/-- A slot by its core and number. -/
def State.slotAt (s : State) (core i : Nat) : Slot := (s.core core).slot i
/-- The state with a slot replaced. -/
def State.setSlotAt (s : State) (core i : Nat) (x : Slot) : State := s.modCore core (fun c => c.setSlot i x)
/-- The state with a slot changed. -/
def State.modSlotAt (s : State) (core i : Nat) (f : Slot → Slot) : State := s.setSlotAt core i (f (s.slotAt core i))

/-- The core whose bundle runs. -/
def State.myCore (s : State) : Core := s.core s.cur.core
/-- The slot whose bundle runs. -/
def State.me (s : State) : Slot := s.slotAt s.cur.core s.cur.slot
/-- The state with the running slot replaced. -/
def State.setMe (s : State) (x : Slot) : State := s.setSlotAt s.cur.core s.cur.slot x
/-- The state with the running slot changed. -/
def State.modMe (s : State) (f : Slot → Slot) : State := s.setMe (f s.me)
/-- The state with the running core changed. -/
def State.modMyCore (s : State) (f : Core → Core) : State := s.modCore s.cur.core f
/-- The context that the running core runs. -/
def State.myCtxId (s : State) : Nat := s.myCore.ctx
/-- The running context. -/
def State.myCtx (s : State) : Ctx := s.ctx s.myCtxId

/-- A general register as read: g0 is zero (09 R216). -/
def Slot.rdG (x : Slot) (i : BitVec 5) : Word := if i = 0 then 0 else x.g.get (Fin.ofNat 32 i.toNat)
/-- A predicate register as read: k0 is all ones (09 R216). -/
def Slot.rdK (x : Slot) (i : BitVec 3) : Word := if i = 0 then BitVec.allOnes 64 else x.k.get (Fin.ofNat 8 i.toNat)
/-- A vector register. -/
def Slot.rdV (x : Slot) (i : BitVec 5) : VWord := x.v.get (Fin.ofNat 32 i.toNat)
/-- A capability register. -/
def Slot.rdC (x : Slot) (i : BitVec 4) : Cap := x.c.get (Fin.ofNat 16 i.toNat)

/-- A general register written; a write to g0 is discarded (09 R216). -/
def Slot.wrG (x : Slot) (i : BitVec 5) (y : Word) : Slot :=
  if i = 0 then x else { x with g := x.g.set (Fin.ofNat 32 i.toNat).val y (Fin.ofNat 32 i.toNat).isLt }
/-- A predicate register written; a write to k0 is discarded (09 R216). -/
def Slot.wrK (x : Slot) (i : BitVec 3) (y : Word) : Slot :=
  if i = 0 then x else { x with k := x.k.set (Fin.ofNat 8 i.toNat).val y (Fin.ofNat 8 i.toNat).isLt }
/-- A vector register written. -/
def Slot.wrV (x : Slot) (i : BitVec 5) (y : VWord) : Slot :=
  { x with v := x.v.set (Fin.ofNat 32 i.toNat).val y (Fin.ofNat 32 i.toNat).isLt }
/-- A capability register written, its tag with it (09 R216). -/
def Slot.wrC (x : Slot) (i : BitVec 4) (y : Cap) : Slot :=
  { x with c := x.c.set (Fin.ofNat 16 i.toNat).val y (Fin.ofNat 16 i.toNat).isLt }

/-- A register by name. -/
def Slot.rd (x : Slot) : RegName → RegVal
  | .g i => .word (x.rdG i)
  | .v i => .vec (x.rdV i)
  | .k i => .word (x.rdK i)
  | .c4 i => .cap (x.rdC i)

/-- A register written by name; a value of another file's shape writes nothing. -/
def Slot.wr (x : Slot) (r : RegName) (y : RegVal) : Slot :=
  match r, y with
  | .g i, .word w => x.wrG i w
  | .v i, .vec w => x.wrV i w
  | .k i, .word w => x.wrK i w
  | .c4 i, .cap w => x.wrC i w
  | _, _ => x

/-- A general register of the running slot. -/
def State.rdG (s : State) (i : BitVec 5) : Word := s.me.rdG i
/-- A predicate register of the running slot. -/
def State.rdK (s : State) (i : BitVec 3) : Word := s.me.rdK i
/-- A vector register of the running slot. -/
def State.rdV (s : State) (i : BitVec 5) : VWord := s.me.rdV i
/-- A capability register of the running slot. -/
def State.rdC (s : State) (i : BitVec 4) : Cap := s.me.rdC i
/-- A general register of the running slot written. -/
def State.wrG (s : State) (i : BitVec 5) (y : Word) : State := s.setMe (s.me.wrG i y)
/-- A predicate register of the running slot written. -/
def State.wrK (s : State) (i : BitVec 3) (y : Word) : State := s.setMe (s.me.wrK i y)
/-- A vector register of the running slot written. -/
def State.wrV (s : State) (i : BitVec 5) (y : VWord) : State := s.setMe (s.me.wrV i y)
/-- A capability register of the running slot written. -/
def State.wrC (s : State) (i : BitVec 4) (y : Cap) : State := s.setMe (s.me.wrC i y)

/-- Steps made due, in order (log 1). -/
def State.due (s : State) (l : List Due) : State := { s with agenda := s.agenda ++ l }

/-- One step made due. -/
def State.dueOne (s : State) (i : Instr) (args : List Nat) : State := s.due [⟨i, args⟩]

/-- An argument of the step that runs (log 4). -/
def State.arg (s : State) (i : Nat) : Nat := s.args.getD i 0

/-- A free choice below n (log 21), with the counter advanced. -/
def State.choose (s : State) (n : Nat) : Nat × State :=
  if n ≤ 1 then (0, s) else (Config.freeChoice s.free % n, { s with free := s.free + 1 })

/-- A free value of a width (log 21), with the counter advanced. -/
def State.draw (s : State) (w : Nat) : BitVec w × State := (Config.freeBits w s.free, { s with free := s.free + 1 })

/-! Fields of XSTAT (14 R360). -/

/-- XSTAT.TL. -/
def Slot.tl (x : Slot) : Nat := bitsOf x.xstat.toNat 0 2
/-- XSTAT.PTL. -/
def Slot.ptl (x : Slot) : Nat := bitsOf x.xstat.toNat 2 2
/-- XSTAT.INFM. -/
def Slot.infm (x : Slot) : Bool := x.xstat.getLsbD 4
/-- XSTAT.SCHK. -/
def Slot.schk (x : Slot) : Bool := x.xstat.getLsbD 5
/-- XSTAT.RND. -/
def Slot.rnd (x : Slot) : Nat := bitsOf x.xstat.toNat 6 3
/-- XSTAT.TIMED. -/
def Slot.timed (x : Slot) : Bool := x.xstat.getLsbD 9
/-- XSTAT.SPEC. -/
def Slot.spec (x : Slot) : Bool := x.xstat.getLsbD 10
/-- XSTAT.GANGROLE. -/
def Slot.gangRole (x : Slot) : Nat := bitsOf x.xstat.toNat 11 2
/-- XSTAT.GANGSZ. -/
def Slot.gangSz (x : Slot) : Nat := bitsOf x.xstat.toNat 13 2
/-- XSTAT.MAINT. -/
def Slot.maint (x : Slot) : Bool := x.xstat.getLsbD 15

/-- A word with the field [lo + n - 1 : lo] replaced. -/
def setField (x : Word) (lo n : Nat) (v : Nat) : Word :=
  BitVec.ofNat 64 (x.toNat - bitsOf x.toNat lo n * 2 ^ lo + (v % 2 ^ n) * 2 ^ lo)

/-- The slot with TL and PTL set. -/
def Slot.setLevels (x : Slot) (tl ptl : Nat) : Slot :=
  { x with xstat := setField (setField x.xstat 0 2 tl) 2 2 ptl }

/-- A bank of trap state by trap level (14 R359). -/
def Slot.bank (x : Slot) (t : Nat) : TrapBank := if t = 2 then x.bank2 else x.bank1
/-- The slot with a bank replaced. -/
def Slot.setBank (x : Slot) (t : Nat) (b : TrapBank) : Slot :=
  if t = 2 then { x with bank2 := b } else { x with bank1 := b }

/-- Fields of a message header (06 R140). -/
def Msg.src (m : Msg) : Nat := bitsOf m.dw1.toNat 32 20
def Msg.seq (m : Msg) : Nat := bitsOf m.dw1.toNat 0 32
def Msg.colour (m : Msg) : Bool := m.dw2.getLsbD 47
def Msg.infm (m : Msg) : Bool := m.dw2.getLsbD 46
def Msg.sign (m : Msg) : Bool := m.dw2.getLsbD 45
def Msg.units (m : Msg) : Nat := bitsOf m.dw2.toNat 43 2 + 1
def Msg.ctr (m : Msg) : Nat := bitsOf m.dw2.toNat 33 10
def Msg.hidx (m : Msg) : Nat := bitsOf m.dw2.toNat 23 10
def Msg.dq (m : Msg) : Nat := bitsOf m.dw2.toNat 20 3
def Msg.dest (m : Msg) : Nat := bitsOf m.dw2.toNat 0 20
def Msg.ctx (m : Msg) : Nat := bitsOf m.dw3.toNat 0 20
/-- The key of a timed message (07 R172). -/
def Msg.key (m : Msg) : Key := ⟨m.vrt.toNat, m.src, m.seq⟩

/-- Keys in lexicographic order (07 R172). -/
def Key.lt (a b : Key) : Bool :=
  decide (a.vrt < b.vrt) || (a.vrt == b.vrt && (decide (a.src < b.src) || (a.src == b.src && decide (a.seq < b.seq))))

/-- A key below a GVT, infinity (`none`) being above every key (07 R172). -/
def Key.below (a : Key) (g : Option Key) : Bool :=
  match g with
  | none => true
  | some b => a.lt b

/-- The lesser of two values, infinity above every key (07 R172). -/
def keyMin (a b : Option Key) : Option Key :=
  match a, b with
  | none, y => y
  | x, none => x
  | some x, some y => if y.lt x then some y else some x

/-- The SPILLK, larder and closed areas of local memory in force on a core (04 R89, R91): the first reserved byte. -/
def InForce.lmtop (f : InForce) : Nat := 0xFF00 - 1024 * f.spillK - 1024 * f.larderK

/-- A queue of a core. -/
def Core.queue (c : Core) (q : Nat) : List QEntry := c.queues.get (Fin.ofNat 5 q)
/-- The core with a queue replaced. -/
def Core.setQueue (c : Core) (q : Nat) (l : List QEntry) : Core :=
  { c with queues := c.queues.set (Fin.ofNat 5 q).val l (Fin.ofNat 5 q).isLt }

/-- The 16-bit fields of TLCFG in force (07 R171). -/
def InForce.tlid (f : InForce) : Nat := bitsOf f.tlcfg.toNat 0 8
def InForce.tlen (f : InForce) : Bool := f.tlcfg.getLsbD 8
def InForce.win (f : InForce) : Nat := bitsOf f.tlcfg.toNat 16 6

/-- The timeline of a core's QT, if TLCFG names one that its context holds (07 R171). -/
def State.timelineOf (s : State) (core : Nat) : Option Nat :=
  let c := s.core core
  if c.force.tlen && s.timelines.get? c.force.tlid == some c.ctx then some c.force.tlid else none

/-- The timeline that a core's TLCFG names, if its context holds it, whatever EN is (07 R171, R173). -/
def State.boundTimeline (s : State) (core : Nat) : Option Nat :=
  let c := s.core core
  if s.timelines.get? c.force.tlid == some c.ctx then some c.force.tlid else none

/-- The GVT that a cluster holds for a timeline; a timeline starts at (0, 0, 0) (19 R393). -/
def State.gvtAt (s : State) (cluster timeline : Nat) : Option Key :=
  (s.cluster cluster).gvt.getD timeline (some ⟨0, 0, 0⟩)

/-- Agents of the reference machine by number (05 R110): the thread slots first, then the engines of each kind, the service
cores by package and quadrant of both dies, the walkers by die (00 R397), the host queues by their number and the dispatchers by
context. -/
def slotAgent (core slot : Nat) : Nat := core * 4 + slot % 4
def matrixAgent (cluster : Nat) : Nat := 2 ^ 24 + cluster
def chainAgent (cluster chain : Nat) : Nat := 2 ^ 25 + cluster * 128 + chain % 128
def collAgent (die : Nat) : Nat := 2 ^ 27 + die
def mapAgent (pkg : Nat) : Nat := 2 ^ 27 + 2 ^ 12 + pkg
def serviceAgent (pkg unit : Nat) : Nat := 2 ^ 27 + 2 ^ 13 + pkg * 8 + unit
def walkAgent (die : Nat) : Nat := 2 ^ 27 + 2 ^ 14 + die
def commitAgent (cluster : Nat) : Nat := 2 ^ 27 + 2 ^ 20 + cluster
def queueAgent (q : Nat) : Nat := 2 ^ 28 + q
def gridAgent (ctx : Nat) : Nat := 2 ^ 29 + ctx
/-- What holds the writes that every agent's view has come to hold (05 R121). -/
def everyAgent : Nat := 2 ^ 41
/-- The agent of the writes that stand for what a location held before its history (05 R111). -/
def initAgent : Nat := 2 ^ 40
/-- The agent of the running slot. -/
def State.myAgent (s : State) : Nat := slotAgent s.cur.core s.cur.slot

/-- The service core of a package that serves a device local address: bit 14 selects the die, bits [13:12] the quadrant (05
R133). -/
def serviceUnit (a : Nat) : Nat := bitsOf a 12 3

/-- The view of an agent (05 R111, R121). -/
def State.view (s : State) (a : Nat) : List Nat := joinNat (s.views.getD a []) (s.views.getD everyAgent [])

/-- Writes joined into a view. -/
def State.joinView (s : State) (a : Nat) (l : List Nat) : State :=
  if l.isEmpty then s else { s with views := s.views.set a (joinNat (s.views.getD a []) l) }

end Sys2Proof.Machine
end

