-- ==== Sys2Proof/Machine/Float.lean ====
section
/-! DEFINITION. Number formats and their arithmetic (08): codes to exact values, exact sums and products, one rounding
(R202, R203), conversion (R204, R205), minimum, maximum and relations (R206), the generator (R203). -/

namespace Sys2Proof.Machine

/-- A rounding mode that acts (08 R202). -/
inductive RMode where
  | rne | rtz | rup | rdn | rst
  deriving DecidableEq, Repr

/-- The mode of a code in XSTAT.RND: 5, 6 and 7 read as `rne` (08 R202). -/
def RMode.ofCode : Nat → RMode
  | 1 => .rtz
  | 2 => .rup
  | 3 => .rdn
  | 4 => .rst
  | _ => .rne

/-- The mode an instruction's RND field names: 7 takes XSTAT.RND (08 R202). -/
def RMode.ofField (f : Nat) (xstatRnd : Nat) : RMode := if f = 7 then RMode.ofCode xstatRnd else RMode.ofCode f

/-- A format (08 R195): an integer by width and signedness, a float of binary8 by precision and form, `bf16`, `f32`. -/
inductive Fmt where
  | int (w : Nat) (signed : Bool)
  | bin8 (p : Nat) (uns : Bool)
  | bf16
  | f32
  deriving DecidableEq, Repr

/-- The format of a code (09 R226). -/
def Fmt.ofCode (c : Nat) : Option Fmt :=
  match c with
  | 0x00 => some (.int 8 true)
  | 0x01 => some (.int 16 true)
  | 0x02 => some (.int 32 true)
  | 0x03 => some (.int 64 true)
  | 0x04 => some (.int 8 false)
  | 0x05 => some (.int 16 false)
  | 0x06 => some (.int 32 false)
  | 0x07 => some (.int 64 false)
  | 0x08 => some .bf16
  | 0x09 => some .f32
  | _ =>
    if 0x11 ≤ c ∧ c ≤ 0x17 then some (.bin8 (c - 0x10) false)
    else if 0x19 ≤ c ∧ c ≤ 0x1F then some (.bin8 (c - 0x18) true)
    else none

/-- The width of a format in bits (08 R195). -/
def Fmt.width : Fmt → Nat
  | .int w _ => w
  | .bin8 _ _ => 8
  | .bf16 => 16
  | .f32 => 32

/-- A floating format, binary8 included. -/
def Fmt.isFloat : Fmt → Bool
  | .int _ _ => false
  | .bin8 _ _ => true
  | .bf16 => true
  | .f32 => true

/-- A binary8 format. -/
def Fmt.isBin8 : Fmt → Bool
  | .bin8 _ _ => true
  | .int _ _ => false
  | .bf16 => false
  | .f32 => false

/-- An unsigned binary8 format. -/
def Fmt.isUnsBin8 : Fmt → Bool
  | .bin8 _ u => u
  | .int _ _ => false
  | .bf16 => false
  | .f32 => false

/-- Fraction bits of a float format (08 R196, R200). -/
def Fmt.frac : Fmt → Nat
  | .int _ _ => 0
  | .bin8 p _ => p - 1
  | .bf16 => 7
  | .f32 => 23

/-- Exponent bias of a float format (08 R195, R196). -/
def Fmt.bias : Fmt → Nat
  | .int _ _ => 0
  | .bin8 p u => if u then 2 ^ (8 - p) else 2 ^ (7 - p)
  | .bf16 => 127
  | .f32 => 127

/-- An exact value: NaN, an infinity, or ±m × 2^e with the sign of a zero kept (08 R204). -/
inductive Exact where
  | nan
  | inf (neg : Bool)
  | fin (neg : Bool) (m : Nat) (e : Int)
  deriving DecidableEq, Repr

/-- The sign of a value; a NaN has none. -/
def Exact.neg : Exact → Bool
  | .nan => false
  | .inf s => s
  | .fin s _ _ => s

/-- A value that is not NaN and not infinite, of an exponent field and a fraction field (08 R196, R200). -/
def exactOfFields (fm : Fmt) (s : Bool) (e f : Nat) : Exact :=
  if e = 0 then .fin s f (1 - (fm.bias : Int) - fm.frac)
  else .fin s (2 ^ fm.frac + f) ((e : Int) - fm.bias - fm.frac)

/-- The value of an integer. -/
def exactOfInt (x : Int) : Exact := .fin (decide (x < 0)) x.natAbs 0

/-- The exact value of a code of a format (08 R196, R200), under INFM for binary8. -/
def decodeNum (fm : Fmt) (infm : Bool) (code : Nat) : Exact :=
  match fm with
  | .int w signed => exactOfInt (if signed then sxNat code w else ((code % 2 ^ w : Nat) : Int))
  | .bin8 _ false =>
    let c := code % 256
    if c = 0x80 then .nan
    else if infm && c == 0x7F then .inf false
    else if infm && c == 0xFF then .inf true
    else exactOfFields fm (decide (128 ≤ c)) (c % 128 / 2 ^ fm.frac) (c % 2 ^ fm.frac)
  | .bin8 _ true =>
    let c := code % 256
    if c = 0xFF then .nan
    else if infm && c == 0xFE then .inf false
    else exactOfFields fm false (c / 2 ^ fm.frac) (c % 2 ^ fm.frac)
  | .bf16 =>
    let s := bitsOf code 15 1 == 1
    let e := bitsOf code 7 8
    let f := bitsOf code 0 7
    if e = 255 then (if f = 0 then .inf s else .nan) else exactOfFields fm s e f
  | .f32 =>
    let s := bitsOf code 31 1 == 1
    let e := bitsOf code 23 8
    let f := bitsOf code 0 23
    if e = 255 then (if f = 0 then .inf s else .nan) else exactOfFields fm s e f

/-- The canonical NaN of a format (08 R196, R200). -/
def nanCode : Fmt → Nat
  | .int _ _ => 0
  | .bin8 _ false => 0x80
  | .bin8 _ true => 0xFF
  | .bf16 => 0x7FC0
  | .f32 => 0x7FC00000

/-- The code of a zero; binary8 has one zero (08 R204). -/
def zeroCode (fm : Fmt) (s : Bool) : Nat :=
  match fm with
  | .int _ _ => 0
  | .bin8 _ _ => 0
  | .bf16 => if s then 0x8000 else 0
  | .f32 => if s then 0x80000000 else 0

/-- The largest finite value of a sign (08 R197, R198, R204). -/
def maxFiniteCode (fm : Fmt) (infm s : Bool) : Nat :=
  match fm with
  | .int _ _ => 0
  | .bin8 _ false => (if infm then 0x7E else 0x7F) + (if s then 128 else 0)
  | .bin8 _ true => if infm then 0xFD else 0xFE
  | .bf16 => 0x7F7F + (if s then 0x8000 else 0)
  | .f32 => 0x7F7FFFFF + (if s then 0x80000000 else 0)

/-- InfOrNaN of 08 R204. -/
def infOrNanCode (fm : Fmt) (infm s : Bool) : Nat :=
  match fm with
  | .int _ _ => 0
  | .bin8 _ false => if infm then (if s then 0xFF else 0x7F) else 0x80
  | .bin8 _ true => if infm then 0xFE else 0xFF
  | .bf16 => if s then 0xFF80 else 0x7F80
  | .f32 => if s then 0xFF800000 else 0x7F800000

/-- Whether a magnitude between two neighbours moves away from zero: `q` is the neighbour nearer zero in units, `r` of
`2 ^ k` the rest, `d` the 16-bit draw (08 R202, R203). With one digit of precision both neighbours of a tie between normals end in 1,
and it moves away from zero (log 98). -/
def roundsUp (mode : RMode) (neg : Bool) (q r k d : Nat) : Bool :=
  match mode with
  | .rne => decide (2 ^ k < 2 * r) || (2 * r == 2 ^ k && q % 2 == 1)
  | .rtz => false
  | .rup => decide (0 < r) && !neg
  | .rdn => decide (0 < r) && neg
  | .rst => decide (d < r * 65536 / 2 ^ k)

/-- The bit length of a number: the least b with x < 2^b. -/
def bitLen (x : Nat) : Nat := if x = 0 then 0 else x.log2 + 1

/-- A nonzero magnitude m × 2^e rounded to `p` digits with the least unit `2 ^ u0`: units and unit exponent (08 R202). -/
def roundMag (mode : RMode) (neg : Bool) (p : Nat) (u0 : Int) (m : Nat) (e : Int) (d : Nat) : Nat × Int :=
  let u := max u0 ((bitLen m : Int) + e - p)
  if u ≤ e then (m * 2 ^ (e - u).toNat, u)
  else
    let k := (u - e).toNat
    let q := m / 2 ^ k
    let r := m % 2 ^ k
    (if roundsUp mode neg q r k d then q + 1 else q, u)

/-- The least unit exponent of a float format. -/
def Fmt.unit (fm : Fmt) : Int := 1 - (fm.bias : Int) - fm.frac

/-- |a| > |b| for nonnegative magnitudes m × 2^e. -/
def magLt (m1 : Nat) (e1 : Int) (m2 : Nat) (e2 : Int) : Bool :=
  if e1 ≤ e2 then decide (m1 < m2 * 2 ^ (e2 - e1).toNat) else decide (m1 * 2 ^ (e1 - e2).toNat < m2)

/-- The code of a rounded magnitude q × 2^u in range (08 R204 Encode). -/
def encodeMag (fm : Fmt) (s : Bool) (q : Nat) (u : Int) : Nat :=
  let top := 2 ^ (fm.frac + 1)
  let (q, u) := if top ≤ q then (q / 2, u + 1) else (q, u)
  let signBit := if s then 2 ^ (fm.width - 1) else 0
  if q < 2 ^ fm.frac then signBit + q
  else signBit + (u + fm.frac + fm.bias).toNat * 2 ^ fm.frac + (q - 2 ^ fm.frac)

/-- ToFloat of 08 R204, with the draw of an `rst` conversion. -/
def toFloat (x : Exact) (fm : Fmt) (mode : RMode) (sat infm : Bool) (d : Nat) : Nat :=
  match x with
  | .nan => nanCode fm
  | .inf s =>
    if fm.isUnsBin8 && s then (if sat then 0 else nanCode fm)
    else if sat then maxFiniteCode fm infm s else infOrNanCode fm infm s
  | .fin s m e =>
    if fm.isUnsBin8 && s && m != 0 then (if sat then 0 else nanCode fm)
    else if m = 0 then zeroCode fm s
    else
      let (q, u) := roundMag mode s (fm.frac + 1) fm.unit m e d
      if q = 0 then zeroCode fm s
      else
        match decodeNum fm infm (maxFiniteCode fm infm false) with
        | .fin _ mm em =>
          if magLt mm em q u then
            if sat || mode == .rtz || (mode == .rdn && !s) || (mode == .rup && s) then maxFiniteCode fm infm s
            else infOrNanCode fm infm s
          else encodeMag fm s q u
        | _ => nanCode fm

/-- A finite value rounded to an integer under a mode (08 R205). -/
def roundInt (s : Bool) (m : Nat) (e : Int) (mode : RMode) (d : Nat) : Int :=
  let mag := if 0 ≤ e then m * 2 ^ e.toNat
    else
      let k := (-e).toNat
      let q := m / 2 ^ k
      if roundsUp mode s q (m % 2 ^ k) k d then q + 1 else q
  if s then -(mag : Int) else mag

/-- The least value of an integer format. -/
def intMin (w : Nat) (signed : Bool) : Int := if signed then -(2 ^ (w - 1) : Nat) else 0
/-- The greatest value of an integer format. -/
def intMax (w : Nat) (signed : Bool) : Int := if signed then (2 ^ (w - 1) : Nat) - 1 else (2 ^ w : Nat) - 1

/-- An exact integer clamped to a format's range, or wrapped to its width (08 R201). -/
def fitInt (x : Int) (w : Nat) (signed sat : Bool) : Nat :=
  let y := if sat then max (intMin w signed) (min x (intMax w signed)) else x
  (y % (2 ^ w : Nat)).toNat

/-- A conversion to an integer format (08 R205). -/
def toInt (x : Exact) (w : Nat) (signed : Bool) (mode : RMode) (sat : Bool) (d : Nat) : Nat :=
  match x with
  | .nan => 0
  | .inf s => if sat then fitInt (if s then intMin w signed else intMax w signed) w signed true else 0
  | .fin s m e => fitInt (roundInt s m e mode d) w signed sat

/-- Whether a conversion between two formats is one of the exact ones of 08 R200, from binary8 or `bf16` to `f32` and
from binary8 to `bf16`. -/
def widens (tof frf : Fmt) : Bool := (tof == .f32 && (frf == .bf16 || frf.isBin8)) || (tof == .bf16 && frf.isBin8)

/-- A conversion of a code between two formats (08 R204, R205; 10 R252). DEDUCED (log 64): in an exact conversion an
infinity stays an infinity (08 R200) whatever SAT holds, though R204's steps name no such exception. -/
def convert (tof frf : Fmt) (infm : Bool) (mode : RMode) (sat : Bool) (d code : Nat) : Nat :=
  let x := decodeNum frf infm code
  let sat := sat && !widens tof frf
  match tof with
  | .int w signed => toInt x w signed mode sat d
  | .bin8 p u => toFloat x (.bin8 p u) mode sat infm d
  | .bf16 => toFloat x .bf16 mode sat infm d
  | .f32 => toFloat x .f32 mode sat infm d

/-- The scalar conversion (10 R245): as `convert`, save that a `bf16` or `f32` kept in its own format is copied, a NaN
made canonical (log 7). -/
def convertScalar (tof frf : Fmt) (infm : Bool) (mode : RMode) (sat : Bool) (d code : Nat) : Nat :=
  if tof = frf && tof.isFloat && !tof.isBin8 then
    (if decodeNum frf infm code = .nan then nanCode frf else code % 2 ^ frf.width)
  else convert tof frf infm mode sat d code

/-- Whether a conversion rounds, so that RND has a use and `rst` draws (10 R245). -/
def convertRounds (tof frf : Fmt) : Bool := tof.isFloat || frf.isFloat

/-- The magnitude with its sign as an integer number of units 2^e. -/
def signedUnits (s : Bool) (m : Nat) : Int := if s then -(m : Int) else m

/-- The exact sum of two values under a mode, which fixes the sign of an exact zero sum (08 R206). -/
def addExact (mode : RMode) (a b : Exact) : Exact :=
  match a, b with
  | .nan, _ => .nan
  | _, .nan => .nan
  | .inf s, .inf t => if s == t then .inf s else .nan
  | .inf s, .fin _ _ _ => .inf s
  | .fin _ _ _, .inf t => .inf t
  | .fin s m e, .fin t n f =>
    let u := min e f
    let x := signedUnits s (m * 2 ^ (e - u).toNat) + signedUnits t (n * 2 ^ (f - u).toNat)
    if x = 0 then
      (if m = 0 ∧ n = 0 ∧ s = t then .fin s 0 0 else .fin (mode == .rdn) 0 0)
    else .fin (decide (x < 0)) x.natAbs u

/-- The exact product of two values: an infinity times zero is NaN (08 R206, R209). -/
def mulExact (a b : Exact) : Exact :=
  match a, b with
  | .nan, _ => .nan
  | _, .nan => .nan
  | .inf s, .inf t => .inf (s != t)
  | .inf s, .fin t n _ => if n = 0 then .nan else .inf (s != t)
  | .fin s m _, .inf t => if m = 0 then .nan else .inf (s != t)
  | .fin s m e, .fin t n f => .fin (s != t) (m * n) (e + f)

/-- The value with its sign flipped. -/
def Exact.negate : Exact → Exact
  | .nan => .nan
  | .inf s => .inf (!s)
  | .fin s m e => .fin (!s) m e

/-- a < b by value, neither NaN; zeros compare equal. -/
def exactLt (a b : Exact) : Bool :=
  match a, b with
  | .nan, _ => false
  | _, .nan => false
  | .inf s, .inf t => s && !t
  | .inf s, .fin _ _ _ => s
  | .fin _ _ _, .inf t => !t
  | .fin s m e, .fin t n f =>
    let u := min e f
    decide (signedUnits s (m * 2 ^ (e - u).toNat) < signedUnits t (n * 2 ^ (f - u).toNat))

/-- a = b by value, neither NaN. -/
def exactEq (a b : Exact) : Bool := a != .nan && b != .nan && !exactLt a b && !exactLt b a

/-- a zero. -/
def Exact.isZero : Exact → Bool
  | .fin _ m _ => m == 0
  | .nan => false
  | .inf _ => false

/-- a ordered below b for `min` and `max`: −0 below +0 (08 R206). -/
def exactBelow (a b : Exact) : Bool := exactLt a b || (a.isZero && b.isZero && a.neg && !b.neg)

/-- The lesser or greater code of two (08 R206): the other operand when one is NaN, the canonical NaN when both are. -/
def minMaxCode (fm : Fmt) (greater : Bool) (a b : Nat) : Nat :=
  match decodeNum fm false a, decodeNum fm false b with
  | .nan, .nan => nanCode fm
  | .nan, _ => b
  | _, .nan => a
  | x, y => if greater then (if exactBelow x y then b else a) else (if exactBelow y x then b else a)

/-- The draw of the generator (08 R203): the value and the new state. -/
def srngDraw (x : BitVec 32) : Nat × BitVec 32 :=
  let x := x ^^^ (x <<< 13)
  let x := x ^^^ (x >>> 17)
  let x := x ^^^ (x <<< 5)
  (x.toNat / 65536, x)

/-- A draw where a mode is `rst`, none elsewhere (08 R203). -/
def drawIf (mode : RMode) (st : BitVec 32) : Nat × BitVec 32 := if mode = .rst then srngDraw st else (0, st)

/-- Rounding of an exact value into `f32` under `rne` with no saturation: RoundF32 of 08 R209, 12 R313. -/
def roundF32 (x : Exact) : Nat := toFloat x .f32 .rne false false 0

end Sys2Proof.Machine
end

