-- ==== Sys2Proof/Machine/Flags.lean ====
section
/-! DEFINITION. Every relation and class that the device computes: it has no flags register, so a comparison writes a
general or predicate register (09 R227; 10 R244, R250, R263). -/

namespace Sys2Proof.Machine

/-- The condition of `bcc` (10 R263): 0 eq, 1 ne, 2 lt, 3 ge, 4 ltn, 5 gen; `none` for a code with no condition. -/
def bccHolds (cnd : BitVec 3) (a b : Word) : Option Bool :=
  match cnd.toNat with
  | 0 => some (a == b)
  | 1 => some (a != b)
  | 2 => some (decide (a.toInt < b.toInt))
  | 3 => some (decide (b.toInt ≤ a.toInt))
  | 4 => some (decide (a.toNat < b.toNat))
  | 5 => some (decide (b.toNat ≤ a.toNat))
  | _ => none

/-- How two values compare (08 R206). -/
inductive Cmp where
  | lt | eq | gt | un
  deriving DecidableEq, Repr

/-- A relation of `vcmp` and `fcmp` on a comparison (09 R227; 10 R244): unordered satisfies `un` and `ne` alone. -/
def relHolds (cnd : Nat) (c : Cmp) : Bool :=
  match cnd with
  | 0 => c == .eq
  | 1 => c != .eq
  | 2 => c == .lt
  | 3 => c == .lt || c == .eq
  | 4 => c == .gt
  | 5 => c == .gt || c == .eq
  | 6 => c == .un
  | _ => false

/-- The comparison of two integers. -/
def cmpInt (a b : Int) : Cmp := if a < b then .lt else if a = b then .eq else .gt

/-- The comparison of two exact values: NaN is unordered, zeros are equal. -/
def cmpExact (a b : Exact) : Cmp :=
  if a = .nan || b = .nan then .un else if exactLt a b then .lt else if exactLt b a then .gt else .eq

/-- The comparison of two codes of a format (10 R250). -/
def cmpCode (fm : Fmt) (a b : Nat) : Cmp :=
  match fm with
  | .int w signed =>
    if signed then cmpInt (sxNat a w) (sxNat b w) else cmpInt ((a % 2 ^ w : Nat) : Int) ((b % 2 ^ w : Nat) : Int)
  | .bin8 p u => cmpExact (decodeNum (.bin8 p u) false a) (decodeNum (.bin8 p u) false b)
  | .bf16 => cmpExact (decodeNum .bf16 false a) (decodeNum .bf16 false b)
  | .f32 => cmpExact (decodeNum .f32 false a) (decodeNum .f32 false b)

/-- The class of a float code, as the bit that `fclass` sets (10 R244). -/
def classBit (fm : Fmt) (code : Nat) : Nat :=
  match decodeNum fm false code with
  | .nan => 8
  | .inf s => if s then 0 else 7
  | .fin s m _ =>
    if m = 0 then (if s then 3 else 4)
    else if m < 2 ^ fm.frac then (if s then 2 else 5)
    else (if s then 1 else 6)

end Sys2Proof.Machine
end

