-- ==== Sys2Proof/Machine/Order.lean ====
section
/-! DEFINITION. The reference machine (05 R110 to R125): the places and scopes of its agents, the reaches of a write, its
issue, its performing at the home, and what a read returns. With `eager` every access performs at once and nothing is
recorded; without it the machine runs whole (log 20). -/

namespace Sys2Proof.Machine

/-! Waking (06 R147; 04 R107, R108). -/

/-- A parked slot woken: it is READY again (06 R147). -/
def Slot.wake (x : Slot) : Slot :=
  match x.st with
  | .parked _ => { x with st := .ready, monitor := none }
  | .halted (.parked _) => { x with st := .halted .ready, monitor := none }
  | _ => x

/-- The slots of a core that pass a test woken. -/
def Core.wakeIf (c : Core) (p : Slot → Bool) : Core := { c with slots := c.slots.map (fun x => if p x then x.wake else x) }

/-- What a slot is parked on, through a halt. -/
def SlotSt.why : SlotSt → Option Park
  | .parked w => some w
  | .halted w => w.why
  | _ => none

/-- The slots whose monitor meets written lines woken (04 R107, R108). -/
def State.wakeLines (s : State) (lines : List Nat) : State :=
  { s with cores := s.cores.mapVal (fun _ c => c.wakeIf (fun x =>
      x.st.why == some .waita && (match x.monitor with
        | some m => lines.contains m.line
        | none => false))) }

/-- The slots whose monitor stands under a changed key slot of a package woken (04 R107). -/
def State.wakeKeys (s : State) (p : Nat) (changed : Nat → Bool) : State :=
  { s with cores := s.cores.mapVal (fun _ c => c.wakeIf (fun x =>
      x.st.why == some .waita && (match x.monitor with
        | some m => !m.local_ && pkgOfAddr (64 * m.line) == p && changed m.keyid
        | none => false))) }

/-- The slots parked on the order of their accesses woken to look again. -/
def State.wakeOrder (s : State) : State :=
  { s with cores := s.cores.mapVal (fun _ c => c.wakeIf (fun x => x.st.why == some .order)) }

/-! Agents and scopes (00 R6, R397). -/

/-- The members of a gang: its leader's block of cores (06 R155). -/
def gangCores (r : GangRef) : List Nat := (List.range r.size).map (fun i => r.leader / r.size * r.size + i)

/-- The place of an agent: its core, cluster, die and package, as far as it has one. -/
structure AgentPlace where
  core    : Option Nat
  cluster : Option Nat
  die     : Option Nat
  pkg     : Nat
  deriving DecidableEq, Repr

/-- The place of an agent by its number (00 R397). -/
def agentPlace (a : Nat) : AgentPlace :=
  let ofCluster (k : Nat) : AgentPlace := ⟨none, some k, some (dieOf (8 * k)), pkgOf (8 * k)⟩
  let ofDie (d : Nat) : AgentPlace := ⟨none, none, some d, d / 2⟩
  if a < 2 ^ 24 then let c := a / 4; ⟨some c, some (clusterOf c), some (dieOf c), pkgOf c⟩
  else if a < 2 ^ 25 then ofCluster (a - 2 ^ 24)
  else if a < 2 ^ 27 then ofCluster ((a - 2 ^ 25) / 128)
  else
    let n := a - 2 ^ 27
    if n < 2 ^ 12 then ofDie n
    else if n < 2 ^ 13 then ⟨none, none, none, n - 2 ^ 12⟩
    else if n < 2 ^ 14 then let m := n - 2 ^ 13; ofDie (m / 8 * 2 + m % 8 / 4)
    else if n < 2 ^ 20 then ofDie (n - 2 ^ 14)
    else if a < 2 ^ 28 then ofCluster (n - 2 ^ 20)
    else ⟨none, none, none, (a - 2 ^ 28) / 4096 % 256⟩

/-- The place of an agent of the machine: the dispatcher of a context's grids stands on its home package (06 R161). -/
def State.placeOf (s : State) (a : Nat) : AgentPlace :=
  if 2 ^ 29 ≤ a ∧ a < 2 ^ 30 then ⟨none, none, none, (s.ctx (a - 2 ^ 29)).home⟩ else agentPlace a

/-- Two places that both exist and are equal. -/
def samePlace (a b : Option Nat) : Bool := a.isSome && a == b

/-- The clusters of the block resident on a cluster. -/
def State.blockClusters (s : State) (cluster : Nat) : List Nat :=
  match (s.cluster cluster).block.bind s.blocks.get? with
  | some b => b.clusters
  | none => [cluster]

/-- Agent b lies in a scope of agent p (00 R6, R397). -/
def State.inScope (s : State) (scope p b : Nat) : Bool :=
  let x := s.placeOf p
  let y := s.placeOf b
  p == b || (match scope with
    | 0 => samePlace x.core y.core
    | 1 => samePlace x.core y.core || (match x.core, y.core, (s.slotAt (p / 4) (p % 4)).gang with
      | some _, some c, some r => (gangCores r).contains c
      | _, _, _ => false)
    | 2 => samePlace x.cluster y.cluster
    | 3 => (match x.cluster, y.cluster with
      | some k, some j => (s.blockClusters k).contains j
      | _, _ => false)
    | 4 => samePlace x.die y.die
    | 5 => x.pkg == y.pkg
    | _ => true)

/-- The smallest scope of an agent that holds another (05 R126). -/
def State.pairScope (s : State) (a b : Nat) : Nat := ((List.range 8).find? (fun k => s.inScope k a b)).getD 7

/-! Reaches (05 R117). -/

/-- The rank of a reach (05 R117). -/
def Reach.rank : Reach → Nat
  | .own => 0
  | .core => 1
  | .clus => 2
  | .die => 3
  | .pkg => 4
  | .sys => 5

/-- The rank of the reach that a release at a scope needs (05 R117). -/
def scopeRank (scope : Nat) : Nat :=
  match scope with
  | 0 => 1
  | 1 => 2
  | 2 => 2
  | 3 => 3
  | 4 => 3
  | 5 => 4
  | _ => 5

/-- A write is readable by an agent (05 R117). -/
def State.readable (s : State) (w : WriteRec) (b : Nat) : Bool :=
  match w.reach with
  | .own => w.agent == b
  | .core => s.inScope 0 w.agent b
  | .clus => s.inScope 2 w.agent b
  | .die => s.inScope 4 w.agent b
  | .pkg => s.inScope 5 w.agent b
  | .sys => true

/-- The points that a write passes between its agent's place and its home (05 R112, R117): those of its place that the path
leaves. A write to device memory of its own package passes its die's boundary (log 52). -/
def WriteRec.path (w : WriteRec) : List Reach :=
  let p := agentPlace w.agent
  let home : Option Nat := if 2 ^ 52 ≤ w.addr then some ((w.addr - 2 ^ 52) / 65536) else none
  let pkg := match home with
    | some t => pkgOf t
    | none => pkgOfAddr w.addr
  (if p.core.isSome then [.core] else []) ++
  (match p.cluster with
   | some k => if home.map clusterOf = some k then [] else [.clus]
   | none => []) ++
  (match p.die with
   | some d => if home.map dieOf = some d then [] else [.die]
   | none => []) ++
  (if pkg = p.pkg then [] else [.pkg])

/-- The next reach of a write on the way to its home; `none` where its home comes next. -/
def WriteRec.onward (w : WriteRec) : Option Reach := w.path.find? (fun r => decide (w.reach.rank < r.rank))

/-- A write of the reference machine overlaps n bytes at an address. -/
def WriteRec.meets (w : WriteRec) (a n : Nat) : Bool := decide (w.addr < a + n) && decide (a < w.addr + w.bytes.length)

/-- Every write in an agent's view is readable by a scope's agents (05 R116, R117). -/
def State.released (s : State) (agent scope : Nat) : Bool :=
  s.eager || s.writes.entries.all (fun w => !(s.view agent).contains w.1 || decide (scopeRank scope ≤ w.2.reach.rank))

/-! Writing (05 R114, R115, R120, R122). -/

/-- A write with the writes ordered before it (05 R120). -/
def State.downOf (s : State) (id : Nat) : List Nat :=
  match s.writes.get? id with
  | some w => insertNat w.preds id
  | none => [id]

/-- The writes to some bytes that pass a test, with those ordered before them. -/
def State.metBy (s : State) (a n : Nat) (p : Nat → WriteRec → Bool) : List Nat :=
  (s.writes.entries.filter (fun w => p w.1 w.2 && w.2.meets a n)).foldl (fun l w => joinNat l (insertNat w.2.preds w.1)) []

/-- A write recorded in its agent's store buffer and its view, ordered after the writes given (05 R114, R120, R122). -/
def State.record (s : State) (agent : Nat) (rels : List (Nat × List Nat)) (timeline : Option Nat) (preds : List Nat)
    (a : Nat) (bs : List Byte) (tag : Option Bool) (keyid : Nat) : State :=
  let id := s.nextWrite
  let base := insertNat preds id
  let w : WriteRec := ⟨agent, a, bs, tag, keyid, s.stampOf a keyid, .own, preds, rels.map (fun r => (r.1, joinNat r.2 base)), timeline⟩
  { s with writes := s.writes.set id w, nextWrite := id + 1 }.joinView agent base

/-- The write of one unit issued into the store buffer (05 R114, R117, R120, R122). -/
def State.issueUnit (s : State) (agent : Nat) (rels : List (Nat × List Nat)) (u : Unit_) : State :=
  (s.record agent rels none (s.metBy u.addr u.len (fun id _ => (s.view agent).contains id)) u.addr u.bytes u.tag u.keyid).dueOne
    .writeReach [s.nextWrite]

/-- The host address that a host-window frame's address stands for (01 R10). -/
def hostAddr (a : Nat) : Nat := a % 2 ^ 44 - 2 ^ 39

/-- A posted write sent by the interface of a die (05 R112, R135). -/
def State.postHost (s : State) (die a : Nat) (bs : List Byte) : State :=
  { s with outbox := s.outbox ++ [.write die (hostAddr a) bs] }

/-- A read sent to the host by the interface of a die (01 R10). -/
def State.readHost (s : State) (die a n : Nat) : State := { s with outbox := s.outbox ++ [.read die (hostAddr a) n] }

/-- The host told of an uncorrectable read (04 R97). -/
def State.tellHost (s : State) (a : Nat) : State := { s with notices := s.notices ++ [.memory a] }

/-- Bytes written at their home: memory, tags and stamps, and the monitors they wake (01 R20; 04 R107). -/
def State.performWrite (s : State) (a : Nat) (bs : List Byte) (tag : Option Bool) (keyid : Nat) : State :=
  (s.poke a bs tag keyid).wakeLines (linesOf a bs.length)

/-- The runs of addresses from a up that no performed write covers. -/
def State.fresh (s : State) : Nat → Nat → List (Nat × Nat)
  | _, 0 => []
  | a, n + 1 =>
    let rest := State.fresh s (a + 1) n
    if s.writes.entries.any (fun w => w.2.reach == .sys && w.2.meets a 1) then rest
    else match rest with
      | (b, m) :: t => if b = a + 1 then (a, m + 1) :: t else (a, 1) :: (b, m) :: t
      | [] => [(a, 1)]

/-- An access cut into its aligned units (05 R113). -/
def unitParts : Nat → Nat → Nat → Nat → List (Nat × Nat)
  | 0, _, _, _ => []
  | k + 1, z, a, n =>
    if n = 0 then []
    else
      let m := min n (max 1 z - a % max 1 z)
      (a, m) :: unitParts k z (a + m) (n - m)

/-- What locations held before their history recorded as writes, first in arrival order, a granule with its tag (05 R111; 01
R21). -/
def State.recordInitial (s : State) (a n : Nat) : State :=
  let lo := a / 16 * 16
  ((s.fresh lo ((a + n + 15) / 16 * 16 - lo)).flatMap (fun r => unitParts (r.2 + 1) 16 r.1 r.2)).foldl (fun (s : State) r =>
    let tag := if r.2 = 16 then some (s.tags.contains (r.1 / 16)) else none
    let st := s.stampAt r.1
    let w : WriteRec := ⟨initAgent, r.1, s.mem.read r.1 r.2, tag, st.keyid, st, .sys, [], [], none⟩
    { s with writes := s.writes.set s.nextWrite w, arrivals := s.nextWrite :: s.arrivals, nextWrite := s.nextWrite + 1 }) s

/-- The agents that the step of R121 first adds a performed write for: the slots that are not EMPTY; it comes to every other
agent's view, and to theirs, at one later step. -/
def State.viewers (s : State) : List Nat :=
  s.cores.entries.flatMap (fun e => ((List.range 4).filter (fun i => (e.2.slot i).st != .empty)).map (fun i => slotAgent e.1 i)) ++
    [everyAgent]

/-- A write that has performed under another key than its lines were under: it has changed every byte of the 16-byte blocks
that it touches, and comes after what had performed there (03 R77). -/
def State.widened (s : State) (w : WriteRec) : WriteRec :=
  let lo := w.addr / 16 * 16
  let n := (w.addr + w.bytes.length + 15) / 16 * 16 - lo
  { w with addr := lo, bytes := s.mem.read lo n, preds := joinNat w.preds (s.metBy lo n (fun _ v => v.reach == .sys)) }

/-- The granules of lines written under another key read as untagged from then on (01 R20; 03 R78). -/
def State.untagLines (s : State) (ls : List Nat) : State :=
  { s with writes := s.writes.mapVal (fun _ w =>
      if w.reach == .sys && ls.any (fun l => w.meets (64 * l) 64) then { w with tag := w.tag.map (fun _ => false) } else w) }

/-- A write performed at its home and last in its arrival order (05 R115); it comes to the views of the agents (R121). -/
def State.performRec (s : State) (id : Nat) (w : WriteRec) : State :=
  let s := s.recordInitial w.addr w.bytes.length
  let same := s.keyed w.addr w.bytes.length w.keyid
  let s := s.poke w.addr w.bytes w.tag w.keyid
  let w := if same then w else s.widened w
  let s := if same then s else s.untagLines (linesOf w.addr w.bytes.length)
  let s := { s with
    writes := s.writes.set id { w with reach := .sys, stamp := s.stampOf w.addr w.keyid }, arrivals := s.arrivals ++ [id] }
  (s.wakeOrder).due (s.viewers.map (fun a => ⟨.viewAdd, [a, id]⟩))

/-- The writes of a list that are still on their way performed at their homes, in the order in which they were issued (05
R115, R117). -/
def State.force (s : State) (l : List Nat) : State :=
  l.foldl (fun (s : State) i => match s.writes.get? i with
    | some w => if w.reach == .sys then s else s.performRec i w
    | none => s) s

/-- A write made by an agent at its home in one step (05 R115), behind the writes that come before it: of those to its bytes
the ones in the agent's view and those that pass a test. -/
def State.homeWrite (s : State) (agent : Nat) (rels : List (Nat × List Nat)) (timeline : Option Nat) (after : WriteRec → Bool)
    (a : Nat) (bs : List Byte) (tag : Option Bool) (keyid : Nat) : State :=
  if s.eager then s.performWrite a bs tag keyid
  else
    let s := s.recordInitial a bs.length
    let preds := s.metBy a bs.length (fun i w => (s.view agent).contains i || after w)
    let s := s.force preds
    let id := s.nextWrite
    let s := s.record agent rels timeline preds a bs tag keyid
    match s.writes.get? id with
    | some w => s.performRec id w
    | none => s

/-- Every write of a list has performed at its home (05 R116, R117). -/
def State.performedAll (s : State) (l : List Nat) : Bool :=
  s.eager || s.writes.entries.all (fun w => w.2.reach == .sys || !l.contains w.1)

/-- The writes that have performed (05 R134, R139). -/
def State.arrived (s : State) : List Nat := (s.writes.entries.filter (fun w => w.2.reach == .sys)).map (fun w => w.1)

/-- Bytes written by an agent that is no thread slot, as relaxed writes or as releases (05 R113, R117, R129): at once, or
unit by unit into its store buffer. Such an agent issues an operation in the step that presents it (05 R111; log 99). -/
def State.writeAs (s : State) (agent unit : Nat) (rels : List (Nat × List Nat)) (a : Nat) (bs : List Byte) (keyid : Nat) : State :=
  if s.eager then s.performWrite a bs none keyid
  else (unitParts (bs.length + 1) unit a bs.length).foldl (fun (s : State) p =>
    s.issueUnit agent rels ⟨p.1, p.2, (bs.drop (p.1 - a)).take p.2, none, 0, keyid⟩) s

/-- Writes of one burst that an agent made one after another, each right behind the last within one aligned unit, made one unit
(05 R113). -/
def State.coalesce (s : State) (agent unit : Nat) (ids : List Nat) : State :=
  ids.foldl (fun (s : State) i => match s.writes.get? (i - 1), s.writes.get? i with
    | some v, some w =>
      if v.agent = agent ∧ w.agent = agent ∧ v.addr + v.bytes.length = w.addr ∧ v.addr / unit = w.addr / unit then
        let u : WriteRec := { w with addr := v.addr, bytes := v.bytes ++ w.bytes, preds := joinNat v.preds w.preds }
        { s with writes := (s.writes.erase (i - 1)).set i u }
      else s
    | _, _ => s) s

/-- Writes to some bytes forgotten: they begin a new history, which lies in every view (05 R111, R139). -/
def State.restart (s : State) (a n : Nat) : State :=
  { s with writes := s.writes.filter (fun _ w => !(w.reach == .sys && w.meets a n)) }

/-! Reading (05 R113, R119, R120, R123). -/

/-- What an acquire at a scope joins of the writes it returns (05 R123). -/
def State.acquired (s : State) (agent scope : Nat) (ids : List Nat) : List Nat :=
  ids.foldl (fun l id => match s.writes.get? id with
    | some w => w.rels.foldl (fun l r =>
        if s.inScope r.1 w.agent agent && s.inScope scope agent w.agent then joinNat l r.2 else l) l
    | none => l) []

/-- A write superseded for a view: one in it is ordered after the write (05 R119). -/
def superseded (view : List Nat) (hist : List (Nat × WriteRec)) (id : Nat) (w : WriteRec) : Bool :=
  hist.any (fun v => v.1 != id && view.contains v.1 && (w.agent == initAgent || v.2.preds.contains id))

/-- The bytes of a write at an address. -/
def WriteRec.slice (w : WriteRec) (a n : Nat) : List Byte := (w.bytes.drop (a - w.addr)).take n

/-- The bytes of a line under a KEYID where a write has put its own into it: what that key makes of what its own key stores
(03 R77). -/
def State.lineOf (s : State) (w : WriteRec) (keyid l : Nat) : List Byte :=
  let t := l % 2 ^ 46
  let old := Cipher.line false w.stamp.key t (Cipher.line true (s.stampAt (64 * l)).key t (s.mem.read (64 * l) 64))
  let new := old.zipIdx.map (fun (b, i) =>
    if w.addr ≤ 64 * l + i ∧ 64 * l + i < w.addr + w.bytes.length then w.bytes.getD (64 * l + i - w.addr) b else b)
  Cipher.line false (s.stampOf (64 * l) keyid).key t (Cipher.line true w.stamp.key t new)

/-- The bytes of a write as a KEYID reads them (03 R77). -/
def State.bytesUnder (s : State) (w : WriteRec) (keyid a n : Nat) : List Byte :=
  (((linesOf a n).flatMap (s.lineOf w keyid)).drop (a % 64)).take n

/-- A candidate read, under a view, of bytes that every write to them covers (05 R119): the bytes, the tag, the write where
it is one of the history. A write under another key or generation reads as untagged (03 R77, R78). -/
def State.candidate1 (s : State) (agent : Nat) (view : List Nat) (keyid a n : Nat) :
    (List Byte × Option Bool × Option Nat) × State :=
  let hist := s.writes.entries.filter (fun w => w.2.meets a n)
  let (now, s) := s.readKey a n keyid
  let mine (w : WriteRec) : Bool := decide (2 ^ 52 ≤ a) || w.stamp == s.stampOf a keyid
  let home : List (List Byte × Option Bool × Option Nat) :=
    if hist.any (fun w => w.2.reach == .sys) || hist.any (fun w => view.contains w.1) then [] else [(now, none, none)]
  let cands := home ++ (hist.filter (fun w => s.readable w.2 agent && !superseded view hist w.1 w.2)).map
    (fun w => if mine w.2 then (w.2.slice a n, w.2.tag, some w.1) else (s.bytesUnder w.2 keyid a n, some false, some w.1))
  let (i, s) := s.choose cands.length
  (cands.getD i (now, none, none), s)

/-- A write covers n bytes at an address. -/
def WriteRec.covers (w : WriteRec) (a n : Nat) : Bool := decide (w.addr ≤ a) && decide (a + n ≤ w.addr + w.bytes.length)

/-- The tag of a granule read whose parts came from the writes given, `none` for what no write has recorded: it is set where all
of them came from one tagged `stc` (01 R21). -/
def State.tagRead (s : State) (u : Unit_) (froms : List (Option Nat × Option Bool)) : Bool :=
  match froms with
  | [] => false
  | (none, _) :: l => l.all (fun f => f.1.isNone) && s.tagAt u.addr u.keyid
  | (some id, tag) :: l => tag == some true && l.all (fun f => f.1 == some id) &&
      (s.writes.get? id).any (fun w => w.covers u.addr u.len)

/-- One unit read under a view (05 R113, R119): the bytes, the tag, the writes returned. It is read whole where every write to it
that the view has not superseded covers it. -/
def State.readUnder (s : State) (agent : Nat) (view : List Nat) (u : Unit_) : Unit_ × List Nat × State :=
  let hist := s.writes.entries.filter (fun w => w.2.meets u.addr u.len)
  let whole := hist.all (fun w => superseded view hist w.1 w.2 || w.2.covers u.addr u.len)
  let parts : List (Nat × Nat) := if whole then [(u.addr, u.len)] else (List.range u.len).map (fun i => (u.addr + i, 1))
  let (bs, froms, s) := parts.foldl (fun (acc : List Byte × List (Option Nat × Option Bool) × State) p =>
    let (r, s) := acc.2.2.candidate1 agent view u.keyid p.1 p.2
    (acc.1 ++ r.1, acc.2.1 ++ [(r.2.2, r.2.1)], s)) ([], [], s)
  let ids := froms.foldl (fun l f => match f.1 with
    | some id => insertNat l id
    | none => l) []
  ({ u with bytes := bs, tag := u.tag.map (fun lc => lc && s.tagRead u froms) }, ids, s)

/-- One unit read by an agent: the writes returned join its view with those ordered before them (05 R119, R120). -/
def State.readUnit (s : State) (agent : Nat) (u : Unit_) : Unit_ × List Nat × State :=
  let (v, ids, s) := s.readUnder agent (s.view agent) u
  (v, ids, ids.foldl (fun s id => s.joinView agent (s.downOf id)) s)

/-- Bytes read by an agent: at once from their memory, or unit by unit as the machine lets it, with the writes returned. -/
def State.readAs (s : State) (agent unit a n keyid : Nat) : List Byte × List Nat × State :=
  if s.eager then let (bs, s) := s.readKey a n keyid; (bs, [], s)
  else (unitParts (n + 1) unit a n).foldl (fun (acc : List Byte × List Nat × State) p =>
    let (u, ids, s) := acc.2.2.readUnit agent ⟨p.1, p.2, [], none, 0, keyid⟩
    (acc.1 ++ u.bytes, joinNat acc.2.1 ids, s)) ([], [], s)

/-- The last write in the arrival order of a byte (05 R125, R134). -/
def State.lastArrival (s : State) (a : Nat) : Option Nat :=
  (s.arrivals.filter (fun id => (s.writes.get? id).any (fun w => w.reach == .sys && w.meets a 1))).getLast?

/-- The last arrivals of some bytes. -/
def State.lastArrivals (s : State) (a n : Nat) : List Nat :=
  (List.range n).foldl (fun l i => match s.lastArrival (a + i) with
    | some id => insertNat l id
    | none => l) []

end Sys2Proof.Machine
end

