-- ==== Sys2Proof/Machine/Ops.lean ====
section
/-! DEFINITION. Shared operations of the slots: rollback of speculative activations (07 R185), disbanding a gang
(06 R157), ending an activation (05 R128, 06 R147), taking a trap (14 R361, R363) and returning from one (12 R338). -/

namespace Sys2Proof.Machine

/-- The trap causes (14 R362). -/
inductive Cause where
  | illegal | resfield | stallshort | bounds | tag | perm | space | noncanon | align | notmapped | pkeydeny
  | infmmismatch | stateviol | ctrtimed | xretctx | badstat | brk | trapins | jobfault | gangfault | maprefused
  | collrdv | gridcancel | lardfull
  deriving DecidableEq, Repr

/-- The code of a cause (14 R362). -/
def Cause.code : Cause → Nat
  | .illegal => 0x01
  | .resfield => 0x02
  | .stallshort => 0x03
  | .bounds => 0x04
  | .tag => 0x05
  | .perm => 0x06
  | .space => 0x07
  | .noncanon => 0x08
  | .align => 0x09
  | .notmapped => 0x0A
  | .pkeydeny => 0x0B
  | .infmmismatch => 0x0C
  | .stateviol => 0x0D
  | .ctrtimed => 0x0E
  | .xretctx => 0x0F
  | .badstat => 0x10
  | .brk => 0x11
  | .trapins => 0x12
  | .jobfault => 0x13
  | .gangfault => 0x14
  | .maprefused => 0x15
  | .collrdv => 0x16
  | .gridcancel => 0x17
  | .lardfull => 0x18

/-! The Larder (07 R179). -/

/-- Entries of a Larder of a size in KiB: twelve a page. -/
def larderEntries (k : Nat) : Nat := 12 * k

/-- The physical address of the header of Larder entry i. -/
def larderHeader (core : Nat) (f : InForce) (i : Nat) : Nat :=
  localAddr core (f.lmtop + 1024 * (i / 12) + 16 * (i % 12))

/-- The physical address of the saved line of Larder entry i. -/
def larderLine (core : Nat) (f : InForce) (i : Nat) : Nat :=
  localAddr core (f.lmtop + 1024 * (i / 12) + 256 + 64 * (i % 12))

/-- The header dwords of a Larder entry. -/
def State.larderHdr (s : State) (core i : Nat) : Nat × Nat :=
  let a := larderHeader core (s.core core).force i
  (leNat (s.mem.read a 8), leNat (s.mem.read (a + 8) 8))

/-- The owner of a Larder entry in use. -/
def larderOwner (h : Nat × Nat) : Option Key :=
  if bitsOf h.2 1 1 == 1 then some ⟨h.1, bitsOf h.2 44 20, bitsOf h.2 12 32⟩ else none

/-- The header of an entry in use. -/
def larderHdrOf (k : Key) (line : Nat) : Nat × Nat :=
  (k.vrt % 2 ^ 64, k.src % 2 ^ 20 * 2 ^ 44 + k.seq % 2 ^ 32 * 2 ^ 12 + line % 1024 * 4 + 2)

/-- The entries of the ring from the tail up to the head, oldest first. -/
def larderRing (c : Core) : List Nat :=
  let n := larderEntries c.force.larderK
  if n = 0 then [] else (List.range ((c.larderHead + n - c.larderTail) % n)).map (fun i => (c.larderTail + i) % n)

/-- The tail moved past freed entries, up to the first in use (07 R179). -/
def State.larderTrim (s : State) (core : Nat) : State :=
  let c := s.core core
  let n := larderEntries c.force.larderK
  let freed := (larderRing c).takeWhile (fun i => (larderOwner (s.larderHdr core i)).isNone)
  if n = 0 then s else s.modCore core (fun c => { c with larderTail := (c.larderTail + freed.length) % n })

/-- Bytes of local memory written by their core itself, ordered after every write to them that has performed, and in the view
of each later activation of the core (05 R128, R137). -/
def State.coreWrite (s : State) (core a : Nat) (bs : List Byte) : State :=
  let s' := s.homeWrite (slotAgent core 0) [] none (fun w => w.reach == .sys) a bs none 0
  if s.eager then s'
  else match s'.arrivals.getLast? with
    | some id => s'.modCore core (fun c => { c with retire := joinNat c.retire (s'.downOf id) })
    | none => s'

/-- A Larder entry freed, its line written back first when it is restored (07 R185; 05 R137). -/
def State.larderFree (s : State) (core : Nat) (restore : Bool) (i : Nat) : State :=
  let c := s.core core
  let a := larderHeader core c.force i
  let line := bitsOf (s.larderHdr core i).2 2 10
  let old := s.mem.read (larderLine core c.force i) 64
  let s := if restore then s.coreWrite core (localAddr core (64 * line)) old else s
  s.poke a (leBytes 16 0) none 0

/-- Every Larder entry of a set of owners freed, newest first (07 R185). -/
def State.larderDrop (s : State) (core : Nat) (restore : Bool) (owned : Key → Bool) : State :=
  let mine := (larderRing (s.core core)).reverse.filter
    (fun i => match larderOwner (s.larderHdr core i) with
      | some k => owned k
      | none => false)
  (mine.foldl (fun s i => s.larderFree core restore i) s).larderTrim core

/-! Rollback (07 R185). -/

/-- An activation that is not committed: FINISHED, or RUNNING with SPEC = 1 (07 R175, R183). -/
def Core.uncommitted (c : Core) (a : Act) : Bool :=
  match a.slot with
  | none => true
  | some i => (c.slot i).spec

/-- One round of the closure of a rollback set: later activations that touched a line a member wrote. -/
def rollGrow (c : Core) (b : Key) (set : List Key) : List Key :=
  let written := (c.acts.filter (fun a => set.contains a.key)).flatMap (fun a => a.writes)
  set ++ ((c.acts.filter (fun a => c.uncommitted a && b.lt a.key && !set.contains a.key &&
    (a.reads.any written.contains || a.writes.any written.contains))).map (fun a => a.key))

/-- The rollback set of an activation (07 R185). -/
def rollSet (c : Core) (b : Key) : List Key :=
  (List.range c.acts.length).foldl (fun set _ => rollGrow c b set) [b]

/-- The anti-message of a message sent (07 R185): its header with SIGN set, in the core's present colour, one unit. -/
def antiOf (m : Msg) (colour : Bool) : Msg :=
  let dw2 := setField (setField (setField m.dw2 43 2 0) 45 1 1) 47 1 (if colour then 1 else 0)
  { m with dw2 := dw2, pay := Vector.replicate 4 0, view := [] }

/-- A timed message counted by its sender (07 R188): SENT of its colour, and MINSENT. -/
def Core.countSent (c : Core) (m : Msg) : Core :=
  let c := { c with minsent := keyMin c.minsent (some m.key) }
  if m.colour then { c with sent1 := c.sent1 + 1 } else { c with sent0 := c.sent0 + 1 }

/-- A timed message counted as received (07 R188). -/
def Core.countRecv (c : Core) (m : Msg) : Core :=
  if m.colour then { c with recv1 := c.recv1 + 1 } else { c with recv0 := c.recv0 + 1 }

/-- One anti-message put at the end of the outbound port and its departure made due (07 R185). -/
def State.sendAnti (s : State) (core : Nat) (m : Msg) : State :=
  let a := antiOf m (s.core core).colour
  (s.modCore core (fun c => { (c.countSent a) with port := c.port ++ [a] })).dueOne .outboundDepart [core]

/-- What is left of the operations of an activation that has gone: its writes still perform, its loads land nowhere (05
R116). -/
def leftOps (l : List MemOp) : List MemOp :=
  (l.filter (fun o => o.kind != .load)).map (fun o => { o with dest := none })

/-- An emptied slot: its registers stay, its activation is gone (06 R147). -/
def Slot.emptied (x : Slot) : Slot :=
  { x with st := .empty, actKey := none, monitor := none, pend := [], board := [], gang := none, yielded := [],
           ops := leftOps x.ops, walkFault := none, arrived := none,
           xstat := setField (setField x.xstat 11 2 0) 13 2 0 }

/-- A job entry freed (11 R290): the entry of a deferred space request of an activation that rolls back. -/
def Core.freeJob (c : Core) (id : BitVec 16) : Core :=
  c |> fun c => { c with jobs := c.jobs.modify (id.toNat % 256) Job.reset (fun j => { j with st := .free }) }

/-- The job a deferred action holds. -/
def DefAct.job? : DefAct → Option (BitVec 16)
  | .space _ _ j => some j
  | .window _ j => some j
  | .store _ _ _ _ _ _ => none
  | .send _ _ => none
  | .launch _ _ _ => none

/-- The records of an activation removed from every conflict directory (07 R181). -/
def State.dropDir (s : State) (core : Nat) (ks : List Key) : State :=
  let keep (r : DirRec) : Bool := !(r.core == core && ks.contains r.key)
  { s with
    dirs := s.dirs.mapVal (fun _ d => d.mapVal (fun _ l => l.filter keep) |>.filter (fun _ l => !l.isEmpty))
    pkgs := s.pkgs.mapVal (fun _ p => { p with hwDir := (p.hwDir.mapVal (fun _ l => l.filter keep)).filter (fun _ l => !l.isEmpty) })
    cores := s.cores.mapVal (fun _ c => { c with dir := (c.dir.mapVal (fun _ l => l.filter keep)).filter (fun _ l => !l.isEmpty) }) }

/-- A list of messages with one put in the order sent: SEQ counts on with each timed message of a core (06 R141), and `seq`
is where it stands now. -/
def putSent (seq : Nat) (m : Msg) : List Msg → List Msg
  | [] => [m]
  | n :: t => if (m.seq + 2 ^ 32 - seq) % 2 ^ 32 ≤ (n.seq + 2 ^ 32 - seq) % 2 ^ 32 then m :: n :: t else n :: putSent seq m t

/-- The holds on activations of a core, which have committed or been rolled back, ended; the slots of the cores of the HELD entries
look again (07 R175, R176, R181). -/
def State.endHolds (s : State) (core : Nat) (ks : List Key) : State :=
  let ends (e : QEntry) : Bool := match e.hold with
    | .untilWriter c k => c == core && ks.contains k
    | .untilGvt => false
    | .ended => false
    | .free => false
  let cores := (s.cores.entries.filter (fun e => (e.2.queue 4).any ends)).map (fun e => e.1)
  let s := cores.foldl (fun (s : State) c => s.modCore c (fun k =>
    k.setQueue 4 ((k.queue 4).map (fun e => if ends e then { e with hold := .ended } else e)))) s
  s.due (cores.flatMap (fun c => (List.range 4).map (fun i => ⟨.activate, [c, i]⟩)))

/-- A rolled-back member's QT entry: back to QUEUED, HELD, or gone (07 R185 step 5). -/
def requeue (set : List Key) (b : Key) (hold : Hold) (gone : Bool) (l : List QEntry) : List QEntry :=
  (l.filter (fun e => !(gone && e.taken && e.msg.key == b))).map (fun e =>
    if e.taken && set.contains e.msg.key then
      { e with taken := false, head := none, hold := if e.msg.key == b then hold else .free }
    else e)

/-- A rollback of activation b of a core, as one step (07 R185): `hold` is what holds b after it, `gone` that it ends. -/
def State.rollback (s : State) (core : Nat) (b : Key) (hold : Hold) (gone : Bool) : State :=
  let c := s.core core
  let set := rollSet c b
  let mine (k : Key) : Bool := set.contains k
  let sent := ((c.acts.filter (fun a => mine a.key)).flatMap (fun a => a.sent)).foldr (putSent c.seq.toNat) []
  let cl := clusterOf core
  let stops := match (s.slotAt s.cur.core s.cur.slot).actKey with
    | some k => mine k
    | none => false
  let jobs := ((s.cluster cl).commitQ.filter (fun d => d.core == core && mine d.key)).filterMap (fun d => d.act.job?)
  let grids := jobs.filterMap (fun j => (c.jobs.getD (j.toNat % 256) Job.reset).block)
  let s := s.modCore core (fun c =>
    { c with slots := c.slots.map (fun x => match x.actKey with
        | some k => if mine k && x.spec then x.emptied else x
        | none => x) })
  let s := s.larderDrop core true mine
  let s := s.modCluster cl (fun x =>
    { x with pantry := x.pantry.filter (fun p => !(p.core == core && mine p.key)),
             commitQ := x.commitQ.filter (fun d => !(d.core == core && mine d.key)) })
  let s := (s.dropDir core set).endHolds core set
  let s := sent.foldl (fun s m => s.sendAnti core m) s
  let s := s.modCore core (fun c =>
    { (jobs.foldl Core.freeJob c) with acts := c.acts.filter (fun a => !mine a.key) })
  let s := s.modCore core (fun c => c.setQueue 4 (requeue set b hold gone (c.queue 4)))
  let s := s.modCtx c.ctx (fun x => { x with counts := x.counts.set 3 (x.counts.get 3 + 1) })
  let me := s.performed && !(core == s.cur.core && stops)
  let dues : List Due := (List.range 4).map (fun i => ⟨.activate, [core, i]⟩) ++
    grids.flatMap (fun g => [⟨.blockRetire, [cl]⟩, ⟨.gridComplete, [c.ctx, g.2]⟩]) ++ if gone then [⟨.ejectAccept, [core]⟩] else []
  { (s.due dues) with performed := me }

/-! Gangs (06 R157). -/

/-- A gang disbanded: follower slots EMPTY, the leader's GANGROLE and GANGSZ 0 (06 R157; 10 R269). -/
def State.disbandGang (s : State) (r : GangRef) (slot : Nat) : State :=
  let followers := (gangCores r).filter (fun c => c != r.leader)
  let s := followers.foldl (fun s c => s.modSlotAt c slot Slot.emptied) s
  let s := s.modSlotAt r.leader slot (fun x =>
    { x with gang := none, xstat := setField (setField x.xstat 11 2 0) 13 2 0 })
  s.due (followers.map (fun c => ⟨.activate, [c, slot]⟩))

/-- The gang of the running slot, if it leads or follows in one, disbanded. -/
def State.disbandMine (s : State) : State :=
  match s.me.gang with
  | some r => s.disbandGang r s.cur.slot
  | none => s

/-- A 16-byte trace record of a core with TRACE set, dropped when its buffer of 64 KiB is full (15 R387; log 41): kind 1
activation, 2 taken branch, 3 trap, 4 `done`. -/
def State.trace (s : State) (kind core slot cause : Nat) (pc : Int) : State :=
  let d := (s.core core).dbg
  if d.trace && decide (d.fill + 16 ≤ 65536) then
    let w0 := kind + slot % 4 * 16 + core % 2 ^ 20 * 64 + cause * 2 ^ 26
    let a := d.buffer + d.fill
    let bs := leBytes 8 w0 ++ leBytes 8 (wordOfInt pc).toNat
    let s := if isHostFrame (a / 4096) then s.postHost (dieOf core) a bs else s.writeAs (slotAgent core slot) 8 [] a bs 0
    s.modCore core (fun c => { c with dbg := { c.dbg with fill := c.dbg.fill + 16 } })
  else s

/-! Traps (14 R361, R363). -/

/-- A free cause, one of the codes that the device writes (14 R362; log 21). -/
def State.someCause (s : State) : Nat × State :=
  let (n, s) := s.choose 24
  (n + 1, s)

/-- A slot stopped by a fatal fault, its dump asked for (14 R363, R376): reason 1 a trap at TL2, 2 the watchdog, 3 a memory
error, taken at TL2 (04 R97), whose cause the spec does not give (log 18). -/
def State.fatal (s : State) (core slot reason : Nat) : State :=
  let p := pkgOf core
  let s := if reason = 3 then
      let (c, s) := s.someCause
      let (v, s) := s.draw 64
      let (w, s) := s.draw 64
      s.modSlotAt core slot (fun x =>
        { x.setLevels 2 x.tl with
          bank2 := { x.bank2 with xpc := wordOfInt x.pc, xcause := BitVec.ofNat 64 c, xval := v, xval2 := w } })
    else s
  let s := s.modSlotAt core slot (fun x => { x with st := .stopped reason, monitor := none, npc := x.pc })
  let s := s.modPkg p (fun k => { k with dump := { k.dump with waiting := k.dump.waiting ++ [(core, slot, reason)] } })
  s.dueOne .dumpStart [p]

/-- A trap taken by the running slot (14 R361; in a gang follower it is only marked, for the leader's GANGFAULT, 06 R157): the bank's registers, TL and PTL, the handler's address; TL2 is fatal
to tenant code (R363), and a trap taken at TL2 by firmware halts its slot and stops its role. -/
def State.takeTrap (s : State) (cause : Cause) (xval xval2 : Word) (pc : Int) : State :=
  if s.me.gangRole = 2 then { (s.setMe { s.me with st := .stopped (256 + cause.code) }) with performed := false }
  else
  let s := (s.disbandMine).trace 3 s.cur.core s.cur.slot cause.code pc
  let x := s.me
  if x.tl = 2 then
    let s := s.setMe { x with st := .stopped 1 }
    { (s.modPkg (pkgOf (s.cur.core % 2 ^ 20)) (fun k => { k with fw := { k.fw with lost := insertNat k.fw.lost s.cur.core } }))
      with performed := false }
  else
    let vec := s.myCore.xtvec1
    let t := if x.tl = 0 && vec.getLsbD 0 then 1 else 2
    let b : TrapBank := { x.bank t with
      xpc := wordOfInt pc, xcause := BitVec.ofNat 64 cause.code, xval := xval, xval2 := xval2 }
    let x := (x.setBank t b).setLevels t x.tl
    let x := { x with pend := [], monitor := none, st := .ready, walkFault := none }
    if t = 1 then { (s.setMe { x with npc := (bitsOf vec.toNat 3 54 * 8 : Nat) }) with performed := false }
    else { ((s.setMe x).fatal s.cur.core s.cur.slot 1) with performed := false }

/-- A trap of the running bundle. In a speculative activation only BREAK and LARDFULL are delivered: any other rolls
the activation back and holds it until GVT (07 R184). -/
def State.raiseAt (s : State) (cause : Cause) (xval xval2 : Word) (pc : Int) : State :=
  match s.me.spec, s.me.actKey with
  | true, some k =>
    if cause = .brk || cause = .lardfull then s.takeTrap cause xval xval2 pc
    else s.rollback s.cur.core k .untilGvt false
  | _, _ => s.takeTrap cause xval xval2 pc

/-- A trap precise at the running bundle. -/
def State.raise (s : State) (cause : Cause) (xval xval2 : Word) : State := s.raiseAt cause xval xval2 s.me.pc

/-- A slot ended by an uncorrectable memory error (04 R97; 14 R363): a gang's leader disbands it, and for a follower's the leader
takes GANGFAULT (06 R157). -/
def State.lost (s : State) (core slot : Nat) : State :=
  match (s.slotAt core slot).gang with
  | none => s.fatal core slot 3
  | some r =>
    if core = r.leader then (s.disbandGang r slot).fatal core slot 3
    else
      let (c, s) := s.someCause
      let t := { s with cur := ⟨r.leader, slot⟩ }.raise .gangfault (BitVec.ofNat 64 (core % r.size)) (BitVec.ofNat 64 c)
      { t.modSlotAt r.leader slot (fun x => { x with pc := x.npc }) with cur := s.cur, performed := s.performed }

/-- The answer of a meaning that traps. -/
def State.trapOut (s : State) (cause : Cause) (xval xval2 : Word) : Out := .next (s.raise cause xval xval2)

/-- The return from a trap (12 R338). -/
def State.xret (s : State) : State :=
  let x := s.me
  if x.tl = 0 then s.raise .xretctx 0 0
  else if bitsOf x.xstat.toNat 16 48 ≠ 0 || x.tl ≤ x.ptl then s.raise .badstat x.xstat 0
  else
    let pc := (x.bank x.tl).xpc
    s.setMe { (x.setLevels x.ptl 0) with npc := (pc.toNat : Int), pend := [] }

/-! Parking and holding. -/

/-- The slot that a hold of the running slot holds: of a gang follower, its leader's (06 R156). -/
def State.holder (s : State) : SlotRef :=
  match s.me.st, s.me.gang with
  | .follower _, some r => ⟨r.leader, s.cur.slot⟩
  | _, _ => s.cur

/-- The kinds of parking that a switch point ends (03 R73; 04 R109; 10 R272; 11 R288; 12 R338): the others hold the
slot for an answer that is on its way (02 R44; 06 R155; log 42). -/
def Park.woken (w : Park) : Bool :=
  match w with
  | .walk => true
  | .waita => true
  | .idle => true
  | .job _ => true
  | .bar _ _ => true
  | .gang _ _ => false
  | .mapResult _ => false
  | .answer => false
  | .query => false
  | .order => false

/-- A slot that parks in its core's switch window takes the overrun path (14 R366). -/
def State.parkedIn (s : State) (r : SlotRef) (why : Park) : State :=
  if (s.core r.core).window && why.woken then s.dueOne .overrunStop [r.core, r.slot] else s

/-- The running slot parked before its bundle performs: the bundle re-executes from the start (03 R72; 11 R288). -/
def State.park (s : State) (why : Park) : State :=
  { ((s.modSlotAt s.holder.core s.holder.slot (fun x => { x with st := .parked why, npc := x.pc })).parkedIn s.holder why) with
    performed := false }

/-- The running slot parked at the end of its bundle, which has performed. -/
def State.parkDone (s : State) (why : Park) : State := (s.setMe { s.me with st := .parked why }).parkedIn s.cur why

/-- The running slot held STALLED before its bundle issues, until the clock of the next cycle (11 R287, R296). -/
def State.stall (s : State) : State :=
  { (s.modSlotAt s.holder.core s.holder.slot (fun x => { x with st := .stalled (s.clock + 1), npc := x.pc })) with
    performed := false }

/-! Ending an activation. -/

/-- The activation of a slot ended as by `done` (05 R128; 07 R175): the slot is EMPTY, its view joins the core's retire
view; a speculative activation is FINISHED, a timed one with SPEC = 0 is GONE. -/
def State.endActivation (s : State) (core slot : Nat) : State :=
  let x := s.slotAt core slot
  let view := s.view (slotAgent core slot)
  let s := s.modCore core (fun c => { (c.setSlot slot x.emptied) with retire := joinNat c.retire view })
  let s := match x.actKey with
    | none => s
    | some k =>
      if x.spec then
        (s.modCore core (fun c => { c with acts := c.acts.map (fun (a : Act) =>
          if a.key == k then { a with finished := true, slot := none, view := view } else a) })).dueOne .commit [clusterOf core]
      else
        (s.modCore core (fun c =>
          { c.setQueue 4 ((c.queue 4).filter (fun e => !(e.taken && e.msg.key == k))) with
            acts := c.acts.filter (fun (a : Act) => a.key != k) })).dueOne .ejectAccept [core]
  let stops := match s.blockOf core with
    | some (_, b) => b.stopping
    | none => false
  let s := if stops then s.dueOne .blockStop [core] else s
  s.dueOne .activate [core, slot]

end Sys2Proof.Machine
end

