-- ==== Sys2Proof/Machine/Operands.lean ====
section
/-! DEFINITION. Every operand form: immediates (10 R241, R242), branch targets (09 R224), address operands (01 R25; 09
R223), the fields and derivations of capabilities (01 R17, R18, R29 to R31), vector elements (10 R237), and the reading of
type, rounding and scope fields. -/

namespace Sys2Proof.Machine

/-- A branch target: the bundle's address and an offset in bundles, from EXT in a lone bundle (09 R223, R224). -/
def branchTarget (pc : Int) (off : Int) (ext : Option (BitVec 32)) : Int :=
  match ext with
  | none => pc + off * 8
  | some e => pc + e.toInt * 8

/-! Capability fields (01 R17, R18). -/

/-- BASE. -/
def Cap.base (c : Cap) : Nat := bitsOf c.lo.toNat 0 57
/-- PERM, in the order R [0], W, X, LC, SC, AT, MG [6]. -/
def Cap.perm (c : Cap) : BitVec 7 := BitVec.ofNat 7 (bitsOf c.lo.toNat 57 7)
/-- OFF as a signed number. -/
def Cap.off (c : Cap) : Int := sxNat c.hi.toNat 44
/-- LM. -/
def Cap.lm (c : Cap) : Nat := bitsOf c.hi.toNat 44 12
/-- LE. -/
def Cap.le (c : Cap) : Nat := bitsOf c.hi.toNat 56 5
/-- SPACE. -/
def Cap.space (c : Cap) : Nat := bitsOf c.hi.toNat 61 3
/-- The length (01 R18). -/
def Cap.len (c : Cap) : Nat := (c.lm + 1) * 2 ^ c.le
/-- The cursor, an integer (01 R18). -/
def Cap.cursor (c : Cap) : Int := c.base + c.off

/-- A capability from its fields. -/
def Cap.make (tag : Bool) (space le lm : Nat) (off : Int) (perm base : Nat) : Cap where
  lo := BitVec.ofNat 64 (perm % 128 * 2 ^ 57 + base % 2 ^ 57)
  hi := BitVec.ofNat 64 (space % 8 * 2 ^ 61 + le % 32 * 2 ^ 56 + lm % 4096 * 2 ^ 44 + (off % (2 ^ 44 : Nat)).toNat)
  tag := tag

/-- The same capability with its tag clear. -/
def Cap.untag (c : Cap) : Cap := { c with tag := false }

/-- The LOCAL capability that an activation finds in c15 (01 R24). -/
def Cap.local15 : Cap := Cap.make true 1 4 0xFFF 0 0x3B 0

/-- `cadd` (01 R29; 11 R284): OFF moves; past 44 bits the tag is cleared and OFF keeps its low bits. -/
def Cap.addOff (c : Cap) (v : Int) : Cap :=
  let o := c.off + v
  let ok := decide (-(2 ^ 43 : Nat) ≤ o) && decide (o < (2 ^ 43 : Nat))
  Cap.make (c.tag && ok) c.space c.le c.lm o c.perm.toNat c.base

/-- The length fields for a requested length (01 R30). -/
def lenFields (l : Nat) : Nat × Nat :=
  let b := bitLen l
  let le := if 12 < b then b - 12 else 0
  if 31 < le then (31, 0xFFF) else (le, l / 2 ^ le - 1)

/-- The rounded length of R30. -/
def roundedLen (l : Nat) : Nat := ((lenFields l).2 + 1) * 2 ^ (lenFields l).1

/-- `cspc` to another space (01 R31): a PEER capability wholly within the core's own slice, by its pod core id or firmware
core id (R14), becomes LOCAL with its tag; any other change clears the tag. -/
def Cap.setSpace (c : Cap) (spc core : Nat) : Cap :=
  if spc = c.space then c
  else if c.space = 2 ∧ spc = 1 ∧ core % 2 ^ 20 * 65536 ≤ c.base ∧ c.base + c.len ≤ (core % 2 ^ 20 + 1) * 65536 then
    Cap.make c.tag 1 c.le c.lm c.off c.perm.toNat (c.base % 65536)
  else Cap.make false spc c.le c.lm c.off c.perm.toNat c.base

/-- The field of `cget` (11 R285); codes 11 to 15 name none. -/
def Cap.field (c : Cap) (fld : Nat) : Option Word :=
  match fld with
  | 0 => some (BitVec.ofNat 64 c.base)
  | 1 => some (wordOfInt c.off)
  | 2 => some (BitVec.ofNat 64 c.len)
  | 3 => some (BitVec.ofNat 64 c.perm.toNat)
  | 4 => some (BitVec.ofNat 64 c.space)
  | 5 => some (if c.tag then 1 else 0)
  | 6 => some (wordOfInt c.cursor)
  | 7 => some c.lo
  | 8 => some c.hi
  | 9 => some (BitVec.ofNat 64 c.le)
  | 10 => some (BitVec.ofNat 64 c.lm)
  | _ => none

/-! Addresses (01 R25; 09 R223). -/

/-- The effective address: the cursor, an index shifted, a displacement, exactly (01 R25). -/
def effAddr (c : Cap) (index : Word) (shift : Nat) (d : Int) : Int := c.cursor + index.toInt * (2 ^ shift : Nat) + d

/-- The displacement of MS and MV: the short field scaled, or EXT (09 R223). -/
def dispOf (short : Int) (n : Nat) (ext : Option (BitVec 32)) : Int :=
  match ext with
  | none => short * n
  | some e => e.toInt

/-- The displacement of MX: 0, or EXT (09 R223). -/
def dispX (ext : Option (BitVec 32)) : Int :=
  match ext with
  | none => 0
  | some e => e.toInt

/-- The displacement of `amo`: EXT[28:0] (09 R223). -/
def dispAmo (ext : Option (BitVec 32)) : Int :=
  match ext with
  | none => 0
  | some e => sxNat e.toNat 29

/-- The scope of `amo`: EXT[31:29], `sys` without EXT (09 R223; 05 R123). -/
def scopeAmo (ext : Option (BitVec 32)) : Nat :=
  match ext with
  | none => 7
  | some e => bitsOf e.toNat 29 3

/-- The value of EXT or a short immediate, sign-extended (10 R242). -/
def liValue (imm : BitVec 16) (ext : Option (BitVec 32)) : Word :=
  match ext with
  | none => imm.signExtend 64
  | some e => e.signExtend 64

/-- An immediate sign-extended (10 R241). -/
def immS (imm : BitVec 16) : Word := imm.signExtend 64
/-- An immediate zero-extended (10 R241). -/
def immZ (imm : BitVec 16) : Word := imm.zeroExtend 64

/-! Vector elements (10 R237). -/

/-- Element i of the w-bit view. -/
def elem (x : VWord) (w i : Nat) : Nat := bitsOf x.toNat (w * i) w

/-- The elements of the w-bit view, element 0 first. -/
def elems (x : VWord) (w : Nat) : List Nat := (List.range (512 / w)).map (elem x w)

/-- The value whose w-bit elements are listed, element 0 first. -/
def packNat (w : Nat) (l : List Nat) : Nat := l.foldr (fun x acc => x % 2 ^ w + acc * 2 ^ w) 0

/-- The register whose w-bit elements are listed. -/
def packElems (w : Nat) (l : List Nat) : VWord := BitVec.ofNat 512 (packNat w l)

/-- The register with one element replaced. -/
def setElem (x : VWord) (w i v : Nat) : VWord := packElems w ((elems x w).set i v)

/-- Bit i of a predicate. -/
def predBit (k : Word) (i : Nat) : Bool := k.getLsbD i

/-- A vector format by its TY field (09 R226): 0 to 2, 4 to 6, 8, 9. -/
def vecFmt (ty : BitVec 4) : Option Fmt := if vtyOk ty then Fmt.ofCode ty.toNat else none

/-- A scalar float format by its TY bit: 0 `f32`, 1 `bf16` (09 R225). -/
def scalarFmt (ty : BitVec 1) : Fmt := if ty = 1 then .bf16 else .f32

/-- The acting mode of an RND field of the running slot (08 R202; 10 R238). -/
def State.mode (s : State) (rnd : BitVec 3) : RMode := RMode.ofField rnd.toNat s.me.rnd

/-- The generator of the running core (08 R203). -/
def State.srng (s : State) : BitVec 32 := s.myCore.srng

/-- The state with the running core's generator set. -/
def State.setSrng (s : State) (x : BitVec 32) : State := s.modMyCore (fun c => { c with srng := x })

/-- The n-byte low part of a register value, as bytes. -/
def wordBytes (n : Nat) (x : Word) : List Byte := leBytes n x.toNat

/-- The value of loaded bytes, extended by signedness (11 R276). -/
def loadExtend (bs : List Byte) (signed : Bool) : Word :=
  if signed then wordOfInt (sxNat (leNat bs) (8 * bs.length)) else BitVec.ofNat 64 (leNat bs)

/-- The sixty-four bytes of a vector register, byte 0 first (00 R1). -/
def vecBytes (x : VWord) : List Byte := leBytes 64 x.toNat

/-- The vector register of sixty-four bytes. -/
def vecOfBytes (bs : List Byte) : VWord := BitVec.ofNat 512 (leNat bs)

/-- The destination space of a capability names GLOBAL or HOSTWIN (02 R39). -/
def spBit (space : Nat) : Nat := if space = 3 then 1 else 0

end Sys2Proof.Machine
end

