-- ==== Sys2Proof/Machine/Translate.lean ====
section
/-! DEFINITION. The checks of an access (01 R15, R26; 04 R90; 07 R177, R178) and its translation (03 R66 to R82): TLBs,
walks, node permissions, keys, protection keys and dirty tracking. -/

namespace Sys2Proof.Machine

/-- The KIND codes of XVAL2 (01 R27). -/
inductive AccKind where
  | load | store | ldc | stc | amo | waita | space | fetch
  deriving DecidableEq, Repr

/-- The code of a kind (01 R27). -/
def AccKind.code : AccKind → Nat
  | .load => 0
  | .store => 1
  | .ldc => 2
  | .stc => 3
  | .amo => 4
  | .waita => 5
  | .space => 6
  | .fetch => 7

/-- The shape of an access (01 R15): a scalar, a contiguous vector, or an element of a strided, gather or scatter one. -/
inductive Shape where
  | scalar | contig | element
  deriving DecidableEq, Repr

/-- Whether an access writes. -/
def AccKind.writes : AccKind → Bool
  | .store => true
  | .stc => true
  | .amo => true
  | .load => false
  | .ldc => false
  | .waita => false
  | .space => false
  | .fetch => false

/-- The spaces that a kind and shape admit (01 R15). -/
def admits (k : AccKind) (sh : Shape) (space : Nat) : Bool :=
  match k with
  | .load =>
    (match sh with
     | .scalar => decide (space < 6)
     | .contig => decide (space < 4)
     | .element => decide (space < 4))
  | .store =>
    (match sh with
     | .scalar => decide (space < 6)
     | .contig => decide (space < 4) || space == 5
     | .element => decide (space < 4))
  | .ldc => decide (space < 3)
  | .stc => decide (space < 3)
  | .amo => decide (space < 3)
  | .waita => decide (space < 2)
  | .space => space == 0 || space == 3
  | .fetch => space == 0

/-- The capability permissions that a kind needs (01 R15), bits R, W, X, LC, SC, AT, MG from bit 0; `mq` needs R too. -/
def needed (k : AccKind) (mq : Bool) : Nat :=
  match k with
  | .load => 1
  | .store => 2
  | .ldc => 1 + 8
  | .stc => 2 + 16
  | .amo => 1 + 2 + 32
  | .waita => 1
  | .space => if mq then 64 + 1 else 64
  | .fetch => 4

/-- The first address beyond a space (01 R12). -/
def extent (space : Nat) : Nat :=
  match space with
  | 0 => 2 ^ 57
  | 1 => 2 ^ 16
  | 2 => 2 ^ 36
  | 3 => 2 ^ 57
  | 4 => 2 ^ 20
  | _ => 2 ^ 16

/-- The permission mask holds every needed bit. -/
def hasBits (perm : BitVec 7) (need : Nat) : Bool := perm &&& BitVec.ofNat 7 need == BitVec.ofNat 7 need

/-- The checks of 01 R26 up to the bounds of the space and the canonical form; the alignment check follows on `al`. -/
def check26 (c : Cap) (adm : Nat → Bool) (need : Nat) (ea : Int) (n : Nat) (al : Int) (align : Nat) : Option Cause :=
  let last := ea + n - 1
  if !c.tag then some .tag
  else if 5 < c.space || !adm c.space then some .space
  else if !hasBits c.perm need then some .perm
  else if ea < 0 || (2 ^ 64 : Nat) ≤ last then some .bounds
  else if ea < c.base || (c.base + c.len : Nat) ≤ last then some .bounds
  else if ea < extent c.space && (extent c.space : Int) ≤ last then some .bounds
  else if (2 ^ 57 : Nat) ≤ ea then some .noncanon
  else if al % align ≠ 0 then some .align
  else none

/-- XVAL2 of a scalar access (01 R27). -/
def descr (k : AccKind) (n capIdx : Nat) : Word := BitVec.ofNat 64 (min n 0xFFFF * 256 + k.code * 16 + capIdx)

/-- The state of either outcome. -/
def joinEx (x : Except State State) : State :=
  match x with
  | .ok s => s
  | .error s => s

/-- Where an access lands. -/
inductive Place where
  /-- Device memory or local memory, in the one address line, under a KEYID; `lc` is the page's LC permission. -/
  | mem (addr keyid : Nat) (lc : Bool)
  /-- Host memory behind a package's host-window frames; `win` where the access came through HOSTWIN. -/
  | host (addr : Nat) (win : Bool)
  /-- The control page. -/
  | ctrl (off : Nat)
  /-- The command window. -/
  | qwin (off : Nat)
  deriving DecidableEq, Repr

/-- The outcome of a translation. -/
inductive Xlat where
  | ok (p : Place)
  | fault (c : Cause)
  | miss (space vpn : Nat)
  deriving DecidableEq, Repr

/-! Local memory (04 R89, R90; 07 R177, R178). -/

/-- A line of a region that STATEMAP gives (07 R178). -/
def InForce.inRegion (f : InForce) (l : Nat) : Bool :=
  (List.range 4).any (fun i =>
    let st := bitsOf f.statemap.toNat (16 * i + 8) 8 * 4
    let n := bitsOf f.statemap.toNat (16 * i) 8 * 4
    decide (st ≤ l) && decide (l < st + n))

/-- A named line of a core (07 R178): of the lines of its local memory that stand in a region, the first 256 in ascending
order. -/
def InForce.names (f : InForce) (l : Nat) : Bool :=
  f.inRegion l && decide (l < f.lmtop / 64) && decide (((List.range l).filter f.inRegion).length < 256)

/-- Whether bytes of local memory meet a named line. -/
def InForce.meets (f : InForce) (off n : Nat) : Bool := (linesOf off n).any (fun l => f.names l)

/-- Whether bytes meet an area that 04 R89 closes: the Larder and the spill pool, or for a write the seed table. DESIGN
CHOICE (log 67): the seed table's 'loads and ldc only' lets a `waita` in, whose access is a load. -/
def InForce.closed (f : InForce) (off n : Nat) (w : Bool) : Bool :=
  (decide (f.lmtop < off + n) && decide (off < 0xFF00)) || (w && decide (0xFF00 < off + n))

/-- A core that another core of a context may reach (01 R13): firmware's context reaches Garret cores by their firmware core ids,
and every working core by an id that is none (01 R14; 13 R342; log 83). -/
def State.peerCore (s : State) (ctx id : Nat) : Option Nat :=
  if ctx = 0xFFFFF then
    (if s.garretExists id then some (2 ^ 20 + id) else if bitsOf id 7 3 ≠ 0 && s.coreExists id then some id else none)
  else if s.coreExists id && (s.core id).ctx == ctx then some id else none

/-- Translation of a LOCAL or PEER access by the running slot (01 R13; 04 R90; 07 R137, R177, R178). -/
def State.xlatLocal (s : State) (core : Nat) (peer : Bool) (off n : Nat) (k : AccKind) : Xlat :=
  let x := s.me
  let f := (s.core core).force
  let fw := x.tl == 2
  if decide (65536 < off + n) then .fault .notmapped
  else if !fw && f.closed off n k.writes then .fault .notmapped
  else if peer && !fw && f.meets off n then .fault .notmapped
  else if !peer && !fw && !x.timed && f.meets off n then .fault .stateviol
  else if !peer && x.timed && x.spec && k.writes && !((linesOf off n).all (fun l => f.names l)) then .fault .stateviol
  else .ok (.mem (localAddr core off) 0 true)

/-! The Cellar as the walker reads it (02 R32, R36; 03 R69). -/

/-- A live node of a package. -/
def State.node (s : State) (pkg id : Nat) : Option Node := (s.pkg pkg).cellar.get? id

/-- Whether a node or an ancestor is revoked, at most 16 nodes read (03 R69). -/
def cutBelow (cellar : KMap Node) : Nat → Nat → Bool
  | 0, _ => false
  | n + 1, id =>
    match cellar.get? id with
    | none => true
    | some x => x.revoked || (match x.parent with
      | some p => cutBelow cellar n p
      | none => false)

/-- What a node confers (02 R37): its PERM and that of every ancestor. -/
def effPerm (cellar : KMap Node) : Nat → Nat → BitVec 7
  | 0, _ => 0x7F
  | n + 1, id =>
    match cellar.get? id with
    | none => 0x7F
    | some x => x.perm &&& (match x.parent with
      | some p => effPerm cellar n p
      | none => 0x7F)

/-- The node of a context that covers a page, with its package and its effective PERM (02 R32, R37; 03 R69). -/
def State.covering (s : State) (ctx space vpn : Nat) : Option (Nat × Nat × Node) :=
  s.pkgs.entries.foldl (fun acc e => match acc with
    | some r => some r
    | none => (e.2.cellar.entries.find? (fun d =>
        d.2.ctx == ctx && d.2.sp == spBit space && decide (d.2.vpn ≤ vpn) && decide (vpn < d.2.vpn + d.2.npages)
          && !cutBelow e.2.cellar 17 d.1)).map (fun d => (e.1, d.1, { d.2 with perm := effPerm e.2.cellar 17 d.1 }))) none

/-- The tracked range of a page and the address of its group dword (03 R81). -/
def State.tracked (s : State) (ctx space vpn : Nat) : Option (Nat × Nat) :=
  ((s.ctx ctx).tracks.find? (fun t =>
    spBit t.space == spBit space && decide (t.vpn ≤ vpn) && decide (vpn < t.vpn + t.pages))).map
    (fun t => (t.bitmap + 8 * ((vpn - t.vpn) / 32), (vpn - t.vpn) % 32))

/-- Bits set in a group dword by the walker of a die, as one atomic OR (03 R82); of an uncorrectable one the host is told, and it
stays (04 R97; log 84). -/
def State.trackOr (s : State) (die addr mask : Nat) : State :=
  let old := leNat (s.mem.read addr 8)
  if s.poison.contains (addr / 64) then s.tellHost (addr / 64 * 64)
  else s.homeWrite (walkAgent die) [] none (fun w => w.reach == .sys) addr (leBytes 8 (old ||| mask)) none 0

/-- The page-entry sizes in pages, largest first (03 R67). -/
def pageSizes : List Nat := [262144, 512, 16, 1]

/-- The size of the page entry a walk would install (03 R67, R75). -/
def State.entrySize (s : State) (ctx space vpn : Nat) (d : Node) : Nat :=
  let tr := hasBits d.perm 2 && (s.tracked ctx space vpn).isSome
  (pageSizes.find? (fun z =>
    (!tr || z == 1) && decide (d.vpn ≤ vpn / z * z) && decide (vpn / z * z + z ≤ d.vpn + d.npages) &&
      d.frame % z == d.vpn % z)).getD 1

/-- The entries that a walk installs (03 R67): a range entry for at least sixteen pages, and a page entry. -/
def State.walkEntries (s : State) (ctx space vpn : Nat) (dirty : Bool) : Option (Option TlbEntry × TlbEntry) :=
  match s.covering ctx space vpn with
  | none => none
  | some (pkg, id, d) =>
    let mk (v n : Nat) (dt : Bool) : TlbEntry :=
      ⟨ctx, spBit space, v, n, d.frame + (v - d.vpn), d.perm, d.keyid, d.pkey, pkg, id, dt⟩
    let z := s.entrySize ctx space vpn d
    some (if 16 ≤ d.npages then some (mk d.vpn d.npages false) else none, mk (vpn / z * z) z dirty)

/-- An entry hit by a page (03 R66). -/
def TlbEntry.hit (e : TlbEntry) (ctx space vpn : Nat) : Bool :=
  e.ctx == ctx && e.space == spBit space && decide (e.vpn ≤ vpn) && decide (vpn < e.vpn + e.pages)

/-- The lookup of 03 R66: range TLB, page TLB, second level; a write to a tracked page passes over range entries (R82). -/
def State.lookup (s : State) (core ctx space vpn : Nat) (w : Bool) : Option TlbEntry :=
  let c := s.core core
  let skip := w && (s.tracked ctx space vpn).isSome
  match (if skip then none else c.rangeTlb.find? (fun e => e.hit ctx space vpn)) with
  | some e => some e
  | none =>
    match c.pageTlb.find? (fun e => e.hit ctx space vpn) with
    | some e => some e
    | none => (s.cluster (clusterOf core)).tlb2.find? (fun e => e.hit ctx space vpn && !(skip && decide (1 < e.pages)))

/-- The node permissions that a kind needs (03 R74). -/
def nodeNeeded (k : AccKind) : Nat :=
  match k with
  | .load => 1
  | .store => 2
  | .ldc => 1
  | .stc => 2 + 16
  | .amo => 1 + 2 + 32
  | .waita => 1
  | .space => 0
  | .fetch => 4

/-- PkDeny (03 R79). -/
def pkDeny (pkperm : Word) (pkey : Nat) (w : Bool) : Bool :=
  pkperm.getLsbD (2 * pkey) || (w && pkperm.getLsbD (2 * pkey + 1))

/-- The checks of 03 R74 on an entry, for an agent that honours protection keys (`maint`) or not. -/
def State.checkEntry (s : State) (e : TlbEntry) (vpn off : Nat) (k : AccKind) (maint : Option Word) : Xlat :=
  let frame := e.frame + (vpn - e.vpn)
  if !hasBits e.perm (nodeNeeded k) then .fault .notmapped
  else if (k = .ldc || k = .stc) && isHostFrame frame then .fault .space
  else if s.keyEmpty (pkgOfFrame frame) e.keyid then .fault .notmapped
  else if (match maint with
    | some p => pkDeny p e.pkey k.writes
    | none => false) then .fault .pkeydeny
  else if isHostFrame frame then .ok (.host (frame * 4096 + off) (e.space == 1))
  else .ok (.mem (frame * 4096 + off) e.keyid (hasBits e.perm 8))

/-- A GLOBAL address of firmware that no entry translates: Garret reaches every frame of the pod by its device physical address,
under KEYID 0 (01 R10; 13 R342; log 83). -/
def State.xlatFrame (s : State) (ea : Nat) : Xlat :=
  if 2 ^ 52 ≤ ea || (s.pkgs.get? (pkgOfAddr ea)).isNone then .fault .notmapped
  else if isHostFrame (ea / 4096) then .ok (.host ea false)
  else .ok (.mem ea 0 true)

/-- Translation of a GLOBAL or HOSTWIN page by the running slot; a page whose walk has just faulted faults (03 R73). -/
def State.xlatPage (s : State) (space : Nat) (ea : Nat) (k : AccKind) : Xlat :=
  let x := s.me
  let ctx := s.myCtxId
  let vpn := ea / 4096
  match s.lookup s.cur.core ctx space vpn k.writes with
  | some e => s.checkEntry e vpn (ea % 4096) k (if x.maint then some x.pkperm else none)
  | none =>
    if ctx = 0xFFFFF ∧ space = 0 then s.xlatFrame ea
    else
      match (s.slotAt s.holder.core s.holder.slot).walkFault with
      | some (sp, v, _) => if sp = spBit space && v.toNat = vpn then .fault .notmapped else .miss space vpn
      | none => .miss space vpn

/-- Translation as a walk answers, protection keys not checked (03 R69, R74, R85). -/
def State.xlatAgent (s : State) (ctx space ea : Nat) (k : AccKind) : Xlat :=
  match s.walkEntries ctx space (ea / 4096) false with
  | none => .fault .notmapped
  | some (_, e) => s.checkEntry e (ea / 4096) (ea % 4096) k none

/-- The entry of a cluster's second-level TLB that a page hits (03 R66, R82, R85). -/
def State.tlb2Hit (s : State) (cluster ctx space vpn : Nat) (w : Bool) : Option TlbEntry :=
  let skip := w && (s.tracked ctx space vpn).isSome
  (s.cluster cluster).tlb2.find? (fun e => e.hit ctx space vpn && !(skip && decide (1 < e.pages)))

/-- Translation by an engine or the commit agent of a cluster: through its second-level TLB, else as a walk answers (03 R85; log
54). -/
def State.xlatEng (s : State) (cluster ctx space ea : Nat) (k : AccKind) : Xlat :=
  match s.tlb2Hit cluster ctx space (ea / 4096) k.writes with
  | some e => s.checkEntry e (ea / 4096) (ea % 4096) k none
  | none => s.xlatAgent ctx space ea k

/-- An entry at the end of a TLB of a size, the oldest leaving when it is full (log 55); one over the same pages is
replaced. -/
def installEntry (size : Nat) (l : List TlbEntry) (e : TlbEntry) : List TlbEntry :=
  let l := l.filter (fun x => !(x.ctx == e.ctx && x.space == e.space && x.vpn == e.vpn && x.pages == e.pages))
  l.drop (l.length + 1 - size) ++ [e]

/-- A walk's entries installed for a core (03 R66, R67): 32 range entries and 256 page entries a core, 4,096 a cluster. -/
def State.install (s : State) (core : Nat) (r : Option TlbEntry) (e : TlbEntry) : State :=
  let s := s.modCore core (fun c => { c with
    rangeTlb := match r with
      | some x => installEntry 32 c.rangeTlb x
      | none => c.rangeTlb,
    pageTlb := installEntry 256 c.pageTlb e })
  s.modCluster (clusterOf core) (fun k => { k with tlb2 := installEntry 4096 k.tlb2 e })

/-- A page noted as missed by the step that runs, which asks the die's walker for it (03 R70; log 54). -/
def State.miss (s : State) (m : Missed) : State := { s with missed := s.missed ++ [m] }

/-- What a walk leaves beside its entries: the walk counted, and A set for a tracked page (03 R82; 15 R384 event 4). -/
def State.walked (s : State) (die ctx space vpn : Nat) : State :=
  let s := s.modCtx ctx (fun c => { c with counts := c.counts.set 4 (c.counts.get 4 + 1) })
  if (s.covering ctx space vpn).isNone then s
  else match s.tracked ctx space vpn with
    | some (addr, j) => s.trackOr die addr (2 ^ (2 * j))
    | none => s

/-- A page that an engine of a cluster reaches noted where its second-level TLB misses (03 R85). -/
def State.engWalked (s : State) (cluster ctx space vpn : Nat) (w : Bool) : State :=
  if (s.tlb2Hit cluster ctx space vpn w).isSome then s else s.miss ⟨8 * cluster, false, ctx, space, vpn⟩

/-- Translation of a GLOBAL read that a core makes of itself: through its TLBs, or as its walk answers (03 R66, R69). -/
def State.xlatCore (s : State) (core ctx ea : Nat) : Xlat :=
  match s.lookup core ctx 0 (ea / 4096) false with
  | some e => s.checkEntry e (ea / 4096) (ea % 4096) .load none
  | none => if ctx = 0xFFFFF then s.xlatFrame ea else s.xlatAgent ctx 0 ea .load

/-- The page of such a read noted where the core's TLBs miss. -/
def State.coreWalked (s : State) (core ctx vpn : Nat) : State :=
  if (s.lookup core ctx 0 vpn false).isSome || ctx == 0xFFFFF then s else s.miss ⟨core, true, ctx, 0, vpn⟩

/-- D set before an engine's write to a tracked page performs; the page entry caches it, but not while its group is being
harvested (03 R82, R83). -/
def State.engDirty (s : State) (cluster ctx sp vpn : Nat) : State :=
  match s.tracked ctx sp vpn with
  | none => s
  | some (addr, j) =>
    if (s.tlb2Hit cluster ctx sp vpn true).any (fun e => e.dirty) then s
    else
      let keep := (s.ctx ctx).harvesting.contains (addr / 8)
      (s.trackOr (dieOf (8 * cluster)) addr (2 ^ (2 * j + 1))).modCluster cluster (fun k => { k with
        tlb2 := k.tlb2.map (fun e => if e.hit ctx sp vpn && e.pages == 1 then { e with dirty := !keep } else e) })

/-- Translation of n bytes at ea (01 R12, R13, R26); naturally aligned accesses never cross a page. -/
def State.xlat (s : State) (space : Nat) (ea : Nat) (n : Nat) (k : AccKind) : Xlat :=
  match space with
  | 0 => s.xlatPage 0 ea k
  | 3 => s.xlatPage 3 ea k
  | 1 => s.xlatLocal s.cur.core false ea n k
  | 2 =>
    if 2 ^ 36 ≤ ea then .fault .notmapped
    else
      let id := ea / 65536
      if id = s.cur.core % 2 ^ 20 then s.xlatLocal s.cur.core false (ea % 65536) n k
      else
        match s.peerCore s.myCtxId id with
        | some c => s.xlatLocal c true (ea % 65536) n k
        | none => .fault .notmapped
  | 4 => if 2 ^ 20 ≤ ea then .fault .notmapped else .ok (.ctrl ea)
  | _ => if 2 ^ 16 ≤ ea then .fault .notmapped else .ok (.qwin ea)

/-- A miss asked of the die's walker, by slots or by steps of other agents: merged with a walk of the same page, or waiting (03
R70, R72). -/
def State.askWalk (s : State) (core ctx space vpn : Nat) (who : List (Nat × Nat)) (dues : List (Due × Missed) := []) : State :=
  let d := dieOf core
  let same (x : Walk) : Bool := x.ctx == ctx && spBit x.space == spBit space && x.vpn == vpn
  let join (y : Walk) : Walk := if same y then
      { y with waiters := y.waiters ++ who, dues := y.dues ++ dues } else y
  let die := s.die d
  if die.walks.any same then s.modDie d (fun x => { x with walks := x.walks.map join })
  else if die.waiting.any same then s.modDie d (fun x => { x with waiting := x.waiting.map join })
  else
    (s.modDie d (fun x => { x with waiting := x.waiting ++ [⟨ctx, space, vpn, who, dues⟩] })).dueOne .walkStart [d]

/-- The running slot parked on the walks of the pages that miss (03 R72). -/
def State.parkWalk (s : State) (pages : List (Nat × Nat)) : State :=
  let h := s.holder
  let s := pages.foldl (fun s p => s.askWalk s.cur.core s.myCtxId p.1 p.2 [(h.core, h.slot)]) s
  { ((s.modSlotAt h.core h.slot (fun x => { x with st := .parked .walk, npc := x.pc })).parkedIn h .walk) with
    performed := false }

/-- Before a write to a tracked page performs, D is set and the page entry caches it (03 R82). -/
def State.setDirty (s : State) (core ctx space vpn : Nat) : State :=
  match s.tracked ctx space vpn with
  | none => s
  | some (addr, j) =>
    match s.lookup core ctx space vpn true with
    | none => s.trackOr (dieOf core) addr (2 ^ (2 * j + 1))
    | some e =>
      if e.dirty && e.pages == 1 then s
      else
        let s := s.trackOr (dieOf core) addr (2 ^ (2 * j + 1))
        let mark (l : List TlbEntry) : List TlbEntry :=
          l.map (fun e => if e.hit ctx space vpn && e.pages == 1 then { e with dirty := !(s.ctx ctx).harvesting.contains (addr / 8) } else e)
        (s.modCore core (fun c => { c with pageTlb := mark c.pageTlb })).modCluster (clusterOf core)
          (fun c => { c with tlb2 := mark c.tlb2 })

/-- A scalar access of the running slot checked whole (01 R15, R26; 03 R74; CTRL and QWIN admit 32 and 64 bits alone): `.error` carries the state of the trap or of the
parked slot. -/
def State.access (s : State) (c : Cap) (capIdx : Nat) (k : AccKind) (ea : Int) (n align : Nat) : Except State Place :=
  match check26 c (fun sp => admits k .scalar sp && (decide (sp < 4) || decide (4 ≤ n))) (needed k false) ea n ea align with
  | some f => .error (s.raise f (wordOfInt ea) (descr k n capIdx))
  | none =>
    match s.xlat c.space ea.toNat n k with
    | .ok p => .ok p
    | .fault f => .error (s.raise f (wordOfInt ea) (descr k n capIdx))
    | .miss sp vpn => .error (s.parkWalk [(sp, vpn)])

/-- The checks of one element of a vector access (01 R28; 11 R279, R280). -/
def State.accessElem (s : State) (c : Cap) (k : AccKind) (sh : Shape) (ea : Int) (n : Nat) (al : Int) (align : Nat) : Xlat :=
  match check26 c (admits k sh) (needed k false) ea n al align with
  | some f => .fault f
  | none => s.xlat c.space ea.toNat n k

/-- The outcome of the elements of a vector access in ascending order: the first fault with no miss below it, the misses,
or every place with its element. -/
def gather : List (Nat × Int × Xlat) → Except (Nat × Int × Cause) (List (Nat × Nat) × List (Nat × Int × Place))
  | [] => .ok ([], [])
  | (i, ea, x) :: t =>
    match x with
    | .fault f => .error (i, ea, f)
    | .miss sp v =>
      (match gather t with
       | .error _ => .ok ([(sp, v)], [])
       | .ok (m, p) => .ok ((sp, v) :: m, p))
    | .ok pl =>
      (match gather t with
       | .error e => .error e
       | .ok (m, p) => .ok (m, (i, ea, pl) :: p))

/-- A vector access of the running slot checked whole (01 R28; 03 R72): the elements by number and address. -/
def State.accessVec (s : State) (c : Cap) (k : AccKind) (sh : Shape) (n : Nat) (align : Nat) (al : Int → Int)
    (es : List (Nat × Int)) : Except State (List (Nat × Int × Place)) :=
  match gather (es.map (fun e => (e.1, e.2, s.accessElem c k sh e.2 n (al e.2) align))) with
  | .error (i, ea, f) => .error (s.raise f (BitVec.ofNat 64 i) (wordOfInt ea))
  | .ok ([], p) => .ok p
  | .ok (m, _) => .error (s.parkWalk m)

/-- The checks of a space operation (11 R289): R26 alone, over whole pages from the cursor. -/
def State.accessSpace (s : State) (c : Cap) (capIdx : Nat) (mq : Bool) (pages : Nat) : Except State Nat :=
  let ea := c.cursor
  match check26 c (admits .space .scalar) (needed .space mq) ea (4096 * pages) ea 4096 with
  | some f => .error (s.raise f (wordOfInt ea) (descr .space pages capIdx))
  | none => .ok ea.toNat

end Sys2Proof.Machine
end

