-- ==== Sys2Proof/Machine/Speculate.lean ====
section
/-! DEFINITION. What the accesses of timed activations do beside the access itself: the Larder and named lines (07 R180),
the conflict directories and the Pantry (R181), and exhaustion (R182). -/

namespace Sys2Proof.Machine

/-- Where an activation's access to a line is recorded (07 R181). -/
inductive DirAt where
  /-- An HBM stack or a CXL port, by number. -/
  | home (i : Nat)
  /-- The PCIe interface of die 0 of a package. -/
  | pcie (pkg : Nat)
  /-- The fabric port of a core. -/
  | port (core : Nat)
  deriving DecidableEq, Repr

/-- The entries of a directory (07 R181). -/
def DirAt.room : DirAt → Nat
  | .home _ => 16384
  | .pcie _ => 4096
  | .port _ => 64

/-- The usable capacity of a device: all of it, or what a carve-out of 1/16 for tags and stamps leaves (04 R99, R100). -/
def CxlPort.usable (p : CxlPort) : Nat := if p.metadata then p.capacity else p.capacity - p.capacity / 16

/-- A device put among others in ascending order of port number. -/
def putPort (p : CxlPort) : List CxlPort → List CxlPort
  | [] => [p]
  | q :: t => if p.port ≤ q.port then p :: q :: t else q :: putPort p t

/-- The populated ports in ascending order. -/
def sortPorts (l : List CxlPort) : List CxlPort := l.foldr putPort []

/-- C of 04 R100: the least usable capacity, in whole pages. -/
def cxlLeast (l : List CxlPort) : Nat := l.foldl (fun m p => min m (p.usable / 4096 * 4096)) (2 ^ 44)

/-- Whole pages of a port beyond C (04 R100). -/
def CxlPort.tail (p : CxlPort) (c : Nat) : Nat := (p.usable - c) / 4096 * 4096

/-- The contiguous CXL range of an offset: ports in order with what each holds beyond the interleaved part (04 R100). -/
def cxlTail : List (Nat × Nat) → Nat → Nat
  | [], _ => 0
  | (p, n) :: t, off => if off < n then p else cxlTail t (off - n)

/-- The port that serves an offset of the CXL range (04 R100). -/
def cxlPort (ports : List CxlPort) (off : Nat) : Nat :=
  let l := sortPorts ports
  let c := cxlLeast l
  let n := l.length
  if off < n * c then ((l.drop (off / 4096 % n)).headD ⟨0, 0, true⟩).port
  else cxlTail (l.map (fun p => (p.port, p.tail c))) (off - n * c)

/-- The populated CXL ranges that are not empty: the interleaved one, then each port's beyond it, as offset and length; what
would pass the CXL range is no frame (04 R100). -/
def cxlRanges (ports : List CxlPort) : List (Nat × Nat) :=
  let l := sortPorts ports
  let c := cxlLeast l
  let first := if l.isEmpty then 0 else l.length * c
  let tails := l.foldl (fun (acc : Nat × List (Nat × Nat)) p => (acc.1 + p.tail c, acc.2 ++ [(acc.1, p.tail c)])) (first, [])
  let top := 2 ^ 44 - 2 ^ 42
  (((0, first) :: tails.2).map (fun r => (r.1, min r.2 (top - r.1)))).filter (fun r => r.2 != 0)

/-- The directory of an address (07 R181). -/
def State.dirAt (s : State) (a : Nat) : DirAt :=
  if 2 ^ 52 ≤ a then .port ((a - 2 ^ 52) / 65536)
  else
    let p := pkgOfAddr a
    let l := a % 2 ^ 44
    if l < 2 ^ 39 then .home (p * 16 + l / 256 % 8)
    else if l < 2 ^ 42 then .pcie p
    else .home (p * 16 + 8 + cxlPort (s.pkg p).cfg.ports (l - 2 ^ 42))

/-- A directory. -/
def State.dir (s : State) (d : DirAt) : KMap (List DirRec) :=
  match d with
  | .home i => s.dirs.getD i .empty
  | .pcie p => (s.pkg p).hwDir
  | .port c => (s.core c).dir

/-- The state with the records of a line replaced. -/
def State.setDir (s : State) (d : DirAt) (line : Nat) (l : List DirRec) : State :=
  match d with
  | .home i => { s with dirs := s.dirs.set i ((s.dirs.getD i .empty).set line l) }
  | .pcie p => s.modPkg p (fun k => { k with hwDir := k.hwDir.set line l })
  | .port c => s.modCore c (fun k => { k with dir := k.dir.set line l })

/-- The running slot's activation, if it is timed. -/
def State.myAct (s : State) : Option Act :=
  match s.me.actKey with
  | some k => s.myCore.acts.find? (fun a => a.key == k)
  | none => none

/-- The record of an activation changed. -/
def State.modAct (s : State) (core : Nat) (k : Key) (f : Act → Act) : State :=
  s.modCore core (fun c => { c with acts := c.acts.map (fun a => if a.key == k then f a else a) })

/-! Exhaustion (07 R182). -/

/-- The holder with the highest key above ka. -/
def topHolder (ka : Key) : List (Nat × Key) → Option (Nat × Key)
  | [] => none
  | h :: t =>
    match topHolder ka t with
    | some g => if g.2.lt h.2 then some h else some g
    | none => if ka.lt h.2 then some h else none

/-- Holders above ka rolled back, highest key first, until there is room (07 R182 step 1). -/
def State.makeRoom (ka : Key) (room : State → Bool) (holders : State → List (Nat × Key)) : Nat → State → Bool × State
  | 0, s => (room s, s)
  | n + 1, s =>
    if room s then (true, s)
    else
      match topHolder ka (holders s) with
      | none => (false, s)
      | some h => State.makeRoom ka room holders n (s.rollback h.1 h.2 .free false)

/-- An entry of a resource for the running activation (07 R182): 1 Larder, 2 Pantry, 3 directory, 4 commit queue. -/
def State.needRoom (s : State) (ka : Key) (code : Nat) (xval2 : Word) (room : State → Bool)
    (holders : State → List (Nat × Key)) : Except State State :=
  match State.makeRoom ka room holders ((holders s).length + 1) s with
  | (true, s) => .ok s
  | (false, s) =>
    if s.myCore.force.ftrap then .error (s.raise .lardfull (BitVec.ofNat 64 code) xval2)
    else .error (s.rollback s.cur.core ka .untilGvt false)

/-! Named lines (07 R180). -/

/-- The Larder of a core has an entry before its head meets its tail (07 R179). -/
def State.larderRoom (s : State) (core : Nat) : Bool :=
  let c := s.core core
  let n := larderEntries c.force.larderK
  n != 0 && (c.larderHead + 1) % n != c.larderTail

/-- The owners of the Larder entries of a core. -/
def State.larderOwners (s : State) (core : Nat) : List (Nat × Key) :=
  (larderRing (s.core core)).filterMap (fun i => (larderOwner (s.larderHdr core i)).map (fun k => (core, k)))

/-- A line saved in a new Larder entry (07 R179, R180). -/
def State.larderSave (s : State) (core : Nat) (k : Key) (line : Nat) : State :=
  let c := s.core core
  let i := c.larderHead
  let h := larderHdrOf k line
  let s := s.poke (larderHeader core c.force i) (leBytes 8 h.1 ++ leBytes 8 h.2) none 0
  let s := s.poke (larderLine core c.force i) (s.mem.read (localAddr core (64 * line)) 64) none 0
  s.modCore core (fun c => { c with larderHead := (i + 1) % larderEntries c.force.larderK })

/-- Later activations that touched a named line rolled back before an access by ka (07 R180). -/
def State.clearLater (s : State) (core : Nat) (ka : Key) (line : Nat) (w : Bool) : State :=
  let hit (c : Core) (a : Act) : Bool := c.uncommitted a && ka.lt a.key && (a.writes.contains line || (w && a.reads.contains line))
  ((s.core core).acts.filter (hit (s.core core))).foldl (fun s a =>
    if ((s.core core).acts.any (fun b => b.key == a.key)) then s.rollback core a.key .free false else s) s

/-- One named line touched by the running timed activation (07 R180, R183). -/
def State.touchNamed (s : State) (k : Key) (line : Nat) (w : Bool) (xval2 : Word) : Except State State :=
  let core := s.cur.core
  let s := s.clearLater core k line w
  if !s.me.spec then .ok s
  else if !w then .ok (s.modAct core k (fun a => { a with reads := insertNat a.reads line }))
  else if (match s.myAct with
    | some a => a.writes.contains line
    | none => false) then .ok s
  else
    match s.needRoom k 1 xval2 (fun s => s.larderRoom core) (fun s => s.larderOwners core) with
    | .error e => .error e
    | .ok s => .ok ((s.larderSave core k line).modAct core k (fun a => { a with writes := insertNat a.writes line }))

/-- Local bytes touched by the running slot: the named lines among them, in ascending order (07 R177, R180). -/
def State.touchLocal (s : State) (off n : Nat) (w : Bool) (xval2 : Word) : Except State State :=
  match s.me.timed, s.me.actKey with
  | true, some k =>
    let f := s.myCore.force
    ((linesOf off n).filter (fun l => f.names l)).foldlM (fun s l => s.touchNamed k l w xval2) s
  | _, _ => .ok s

/-! The conflict directories (07 R181). -/

/-- The records of a line that a timeline checks. -/
def State.dirRecs (s : State) (line : Nat) : List DirRec := (s.dir (s.dirAt (64 * line))).getD line []

/-- The records of the holders of a directory: of a full line, or of the whole directory (07 R182). -/
def State.dirHolders (s : State) (line : Nat) : List (Nat × Key) :=
  let d := s.dir (s.dirAt (64 * line))
  let here := d.getD line []
  if 8 ≤ here.length then here.map (fun r => (r.core, r.key))
  else (d.values.flatMap id).map (fun r => (r.core, r.key))

/-- A directory has room for a new record of a line: an entry that holds eight has none, as if the directory were full (07 R182; log
97). -/
def State.dirRoom (s : State) (line : Nat) : Bool :=
  let at_ := s.dirAt (64 * line)
  let d := s.dir at_
  match d.get? line with
  | some l => decide (l.length < 8)
  | none => decide (d.entries.length < at_.room)

/-- Later readers of a line on a timeline rolled back before a write by ka (07 R181, R183). -/
def State.clearReaders (s : State) (tl : Nat) (ka : Key) (line : Nat) : State :=
  ((s.dirRecs line).filter (fun r => r.timeline == tl && r.reader && ka.lt r.key)).foldl (fun s r =>
    if (s.dirRecs line).any (fun q => q.core == r.core && q.key == r.key) then s.rollback r.core r.key .free false else s) s

/-- One line of GLOBAL or PEER touched by the running timed activation (07 R181, R183). -/
def State.touchLine (s : State) (act : Act) (line : Nat) (w : Bool) (xval2 : Word) : Except State State :=
  let core := s.cur.core
  let ka := act.key
  if !s.me.spec then .ok (if w then s.clearReaders act.timeline ka line else s)
  else
    match (if w then none else (s.dirRecs line).find? (fun r => r.timeline == act.timeline && r.writer && r.key.lt ka)) with
    | some r => .error (s.rollback core ka (.untilWriter r.core r.key) false)
    | none =>
      let s := if w then s.clearReaders act.timeline ka line else s
      let mine (r : DirRec) : Bool := r.core == core && r.key == ka
      if (s.dirRecs line).any mine then
        .ok (s.setDir (s.dirAt (64 * line)) line ((s.dirRecs line).map (fun r =>
          if mine r then { r with reader := r.reader || !w, writer := r.writer || w } else r)))
      else
        match s.needRoom ka 3 xval2 (fun s => s.dirRoom line) (fun s => s.dirHolders line) with
        | .error e => .error e
        | .ok s => .ok (s.setDir (s.dirAt (64 * line)) line (s.dirRecs line ++ [⟨core, ka, act.timeline, !w, w⟩]))

/-- Bytes of GLOBAL or PEER touched by the running slot. -/
def State.touchGlobal (s : State) (a n : Nat) (w : Bool) (xval2 : Word) : Except State State :=
  match s.myAct with
  | some act => (linesOf a n).foldlM (fun s l => s.touchLine act l w xval2) s
  | none => .ok s

/-! The Pantry (05 R136; 07 R181). -/

/-- The Pantry entry of an activation and a line. -/
def State.pantryOf (s : State) (core : Nat) (k : Key) (line : Nat) : Option PLine :=
  (s.cluster (clusterOf core)).pantry.find? (fun p => p.core == core && p.key == k && p.line == line)

/-- Bytes as the running activation reads them: its Pantry bytes over memory (07 R181). -/
def State.overlay (s : State) (k : Key) (a : Nat) (bs : List Byte) : List Byte :=
  bs.zipIdx.map (fun (b, i) =>
    match s.pantryOf s.cur.core k ((a + i) / 64) with
    | some p => if p.mask.getLsbD ((a + i) % 64) then BitVec.ofNat 8 (bitsOf p.data.toNat (8 * ((a + i) % 64)) 8) else b
    | none => b)

/-- A Pantry entry with one byte written: its granule's tag bit is cleared. -/
def PLine.putByte (p : PLine) (i : Nat) (b : Byte) : PLine :=
  { p with
    data := BitVec.ofNat 512 (p.data.toNat - bitsOf p.data.toNat (8 * i) 8 * 2 ^ (8 * i) + b.toNat * 2 ^ (8 * i)),
    mask := p.mask ||| BitVec.ofNat 64 (2 ^ i),
    tags := p.tags &&& ~~~ (BitVec.ofNat 4 (2 ^ (i / 16))) }

/-- One line's bytes written into the Pantry by the running activation; `tag` sets the granule's bit of a tagged `stc`. -/
def State.pantryLine (s : State) (k : Key) (line : Nat) (bs : List (Nat × Byte)) (tag : Bool) (keyid : Nat) (xval2 : Word) :
    Except State State :=
  let core := s.cur.core
  let cl := clusterOf core
  let full (p : PLine) : PLine :=
    let q := bs.foldl (fun p b => p.putByte b.1 b.2) p
    if tag then { q with tags := q.tags ||| BitVec.ofNat 4 (2 ^ ((bs.headD (0, 0)).1 / 16)) } else q
  match s.pantryOf core k line with
  | some _ =>
    .ok (s.modCluster cl (fun c => { c with pantry := c.pantry.map (fun p =>
      if p.core == core && p.key == k && p.line == line then full p else p) }))
  | none =>
    match s.needRoom k 2 xval2 (fun s => decide ((s.cluster cl).pantry.length < Config.pantryEntries))
      (fun s => (s.cluster cl).pantry.map (fun p => (p.core, p.key))) with
    | .error e => .error e
    | .ok s => .ok (s.modCluster cl (fun c => { c with pantry := c.pantry ++ [full ⟨core, k, line, 0, 0, 0, keyid⟩] }))

/-- Bytes written into the Pantry by the running activation, line by line. -/
def State.pantryWrite (s : State) (k : Key) (a : Nat) (bs : List Byte) (tag : Bool) (keyid : Nat) (xval2 : Word) :
    Except State State :=
  (linesOf a bs.length).foldlM (fun s l =>
    s.pantryLine k l ((bs.zipIdx.filter (fun p => (a + p.2) / 64 == l)).map (fun p => ((a + p.2) % 64, p.1))) tag keyid xval2) s

/-- An action put into the cluster's commit queue (07 R177, R190). -/
def State.defer (s : State) (k : Key) (xval2 : Word) (act : DefAct) : Except State State :=
  let cl := clusterOf s.cur.core
  match s.needRoom k 4 xval2 (fun s => decide ((s.cluster cl).commitQ.length < Config.commitEntries))
    (fun s => (s.cluster cl).commitQ.map (fun d => (d.core, d.key))) with
  | .error e => .error e
  | .ok s => .ok (s.modCluster cl (fun c => { c with commitQ := c.commitQ ++ [⟨s.cur.core, s.cur.slot, k, act⟩] }))

end Sys2Proof.Machine
end

