-- ==== Sys2Proof/Machine/Window.lean ====
section
/-! DEFINITION. The control page (01 R16; 04 R91; 06 R144; 07 R189, R191; 15 R384, R385), the command window (12 R300) and
the job table (11 R286, R287). -/

namespace Sys2Proof.Machine

/-! Jobs (11 R286, R287). -/

/-- The state code of a job entry (11 R286). -/
def JobSt.code : JobSt → Nat
  | .free => 0
  | .pending => 1
  | .done => 2
  | .faulted => 3

/-- A job entry by index. -/
def Core.job (c : Core) (i : Nat) : Job := c.jobs.getD i Job.reset

/-- The entry that a new job takes (11 R287): the FREE one with the lowest index, else the one completed earliest that is
not held. -/
def Core.jobSlot (c : Core) : Option Nat :=
  match (List.range 256).find? (fun i => (c.job i).st == .free) with
  | some i => some i
  | none =>
    ((List.range 256).filter (fun i => (c.job i).st != .pending && !(c.job i).hold)).foldl (fun acc i =>
      match acc with
      | none => some i
      | some j => (if (c.job i).order < (c.job j).order then some i else some j)) none

/-- An entry taken for a job of a kind (11 R287): its id, with the generation counted on. -/
def Core.takeJob (c : Core) (i kind : Nat) (block : Option (Nat × Nat)) : BitVec 16 × Core :=
  let id : BitVec 16 := BitVec.ofNat 16 (((c.job i).id.toNat / 256 + 1) % 256 * 256 + i)
  ⟨id, { c with jobs := c.jobs.set i ⟨.pending, kind, id, 0, false, 0, [], block⟩ }⟩

/-- The block resident on a core, with its grid: whose handlers start the core's jobs (06 R159, R165). -/
def State.jobBlock (s : State) (core : Nat) : Option (Nat × Nat) := (s.blockOf core).map (fun b => (b.1, b.2.grid))

/-- An entry of a core taken for a job of a kind. -/
def State.takeJob (s : State) (core i kind : Nat) : BitVec 16 × Core := (s.core core).takeJob i kind (s.jobBlock core)

/-- The order number of the next completion of a core. -/
def Core.nextOrder (c : Core) : Nat := c.jobs.values.foldl (fun m j => max m (j.order + 1)) 1

/-- The live entry of an id, `none` when the id is stale (11 R287). -/
def Core.jobOf (c : Core) (id : BitVec 16) : Option Job :=
  let j := c.job (id.toNat % 256)
  if j.id = id then some j else none

/-- A job completed: JRES, then JSTAT, with the view of the completion (11 R287; 05 R129); the slots parked on it wake. -/
def Core.completeJob (c : Core) (id : BitVec 16) (res : Word) (faulted hold : Bool) (view : List Nat) : Core :=
  match c.jobOf id with
  | none => c
  | some j =>
    if j.st != .pending then c
    else
      let j := { j with st := if faulted then .faulted else .done, res := res, hold := hold, order := c.nextOrder, view := view }
      let c := { c with jobs := c.jobs.set (id.toNat % 256) j }
      c.wakeIf (fun x => x.st.why == some (.job id))

/-- A pending job stopped where it stands: its JRES holds the place (11 R287). -/
def Core.recordStop (c : Core) (id : BitVec 16) (res : Word) : Core :=
  match c.jobOf id with
  | none => c
  | some j => if j.st != .pending then c else { c with jobs := c.jobs.set (id.toNat % 256) { j with res := res } }

/-- The JSTAT word of an entry (11 R286). -/
def Job.stat (j : Job) : Word := BitVec.ofNat 64 (j.kind * 2 ^ 20 + j.st.code * 2 ^ 16 + j.id.toNat)

/-- A job completed on its core. -/
def State.completeJob (s : State) (core : Nat) (id : BitVec 16) (res : Word) (faulted hold : Bool) (view : List Nat) : State :=
  s.modCore core (fun c => c.completeJob id res faulted hold view)

/-! Time (00 R2; 15 R384). -/

/-- Pod time in nanoseconds: 3.6 core cycles a nanosecond. -/
def State.now (s : State) : Nat := s.podTime + s.clock * 5 / 18

/-- TIMEREF of a context (15 R384). -/
def State.timeRef (s : State) (ctx : Nat) : Word := BitVec.ofNat 64 s.now + (s.ctx ctx).timeOff

/-! The control page. -/

/-- The V and id word of LASTJOB and KICKID (01 R16; 12 R300). -/
def idWord : Option (BitVec 16) → Word
  | none => 0
  | some id => BitVec.ofNat 64 (2 ^ 16 + id.toNat)

/-- CTRV (01 R16). -/
def Counter.word (c : Counter) : Word :=
  BitVec.ofNat 64 (c.hidx.toNat * 2 ^ 39 + c.queue.toNat * 2 ^ 36 + c.core.toNat * 2 ^ 33 +
    (if c.armed then 2 ^ 32 else 0) + (c.value % (2 ^ 32 : Nat)).toNat)

/-- PMSTAT (15 R384). -/
def CtrlPage.pmstat (p : CtrlPage) : Word :=
  BitVec.ofNat 64 ((if p.pmbusy.isSome then 1 else 0) + if p.pmerr then 2 else 0)

/-- The aligned dword of the control page at an offset, for a core and a slot (01 R16). -/
def State.ctrlDword (s : State) (core slot off : Nat) : Word :=
  let c := s.core core
  let p := (s.ctx c.ctx).page
  if off = 0xF00 then p.pkdef
  else if off = 0xF08 then BitVec.ofNat 64 p.spillK
  else if off = 0xF10 then BitVec.ofNat 64 c.force.lmtop
  else if 0xF20 ≤ off ∧ off < 0xF40 then p.dpat.get (Fin.ofNat 4 ((off - 0xF20) / 8))
  else if off = 0xF40 then p.derr
  else if off = 0xF48 then p.derrdst
  else if off = 0xF50 then p.htbase
  else if off = 0xF58 then p.gvtctl
  else if off = 0xF60 then p.tlerr
  else if off = 0xF68 then p.tlerrval
  else if off = 0xF70 then p.polerr
  else if off = 0xF88 then p.pmstat
  else if off = 0xF90 then p.pmval
  else if off = 0xF98 then s.timeRef c.ctx
  else if 0x10010 ≤ off ∧ off < 0x10030 then idWord (s.slotAt core ((off - 0x10010) / 8)).kickId
  else if 0x20000 ≤ off ∧ off < 0x21000 then ((s.cluster (clusterOf core)).counters.getD ((off - 0x20000) / 8) Counter.reset).word
  else if 0x80000 ≤ off ∧ off < 0x81000 then
    (if off % 16 = 0 then (c.job ((off - 0x80000) / 16)).res else (c.job ((off - 0x80000) / 16)).stat)
  else let _ := slot; 0

/-- A load of n bytes of the control page (01 R16; 15 R385): narrow loads of PMVAL and TIMEMIR set and read the latch. -/
def State.ctrlLoad (s : State) (off n : Nat) : List Byte × State :=
  let d := s.ctrlDword s.cur.core s.cur.slot (off / 8 * 8)
  let bytes := (leBytes 8 d.toNat).drop (off % 8) |>.take n
  if n = 4 ∧ (off / 8 * 8 = 0xF90 ∨ off / 8 * 8 = 0xF98) then
    if off % 8 = 0 then (bytes, s.dueOne .halfReadLatch [s.cur.core, s.cur.slot, d.toNat / 2 ^ 32])
    else (leBytes 4 s.me.latch.toNat, s)
  else (bytes, s)

/-- A register that takes a written value: the bits of the value over those of the register (01 R16). -/
def mergeBytes (old : Word) (off n : Nat) (v : Word) : Word := setField old (8 * (off % 8)) (8 * n) v.toNat

/-- A store of n bytes to the control page made due as the step of the register it meets (01 R16; 12 R323; 15 R384); a
kick or a request is a gang leader's alone (06 R156), and a kick carries its slot's view to its engine (12 R323; 05 R126). -/
def State.ctrlStore (s : State) (off n : Nat) (v : Word) : State :=
  let reg := off / 8 * 8
  let at_ := [s.cur.core, s.cur.slot]
  if s.me.gangRole = 2 ∧ (reg = 0x10000 ∨ reg = 0x10008 ∨ reg = 0xF80) then s
  else if reg = 0x10000 then s.dueOne .cukick (at_ ++ [v.toNat, 0] ++ s.view s.myAgent)
  else if reg = 0x10008 then s.dueOne .clkick (at_ ++ [v.toNat, 0] ++ s.view s.myAgent)
  else if reg = 0xF80 then if off % 8 = 0 then s.dueOne .pmreq [s.myCtxId, v.toNat % 16] else s
  else s.dueOne .controlRegisterWrite (at_ ++ [off, n, v.toNat])

/-- The control page with a store to a register that has fields of its own (01 R16). -/
def CtrlPage.write (p : CtrlPage) (off n : Nat) (v : Word) : CtrlPage :=
  let reg := off / 8 * 8
  let m (old : Word) : Word := mergeBytes old off n v
  if reg = 0xF00 then { p with pkdef := m p.pkdef }
  else if reg = 0xF08 then
    let k := (m (BitVec.ofNat 64 p.spillK)).toNat % 32
    if off % 8 = 0 ∧ 1 ≤ k ∧ k ≤ 16 then { p with spillK := k } else p
  else if 0xF20 ≤ reg ∧ reg < 0xF40 then
    let i := Fin.ofNat 4 ((reg - 0xF20) / 8)
    { p with dpat := p.dpat.set i.val (m (p.dpat.get i) &&& 0x00FFFFFFFFFF000F) i.isLt }
  else if reg = 0xF40 then { p with derr := m p.derr &&& 0x000000FFFFFFFFFF }
  else if reg = 0xF50 then { p with htbase := m p.htbase &&& 0x01FFFFFFFFFF8000 }
  else if reg = 0xF58 then
    let k := (m p.gvtctl).toNat % 64
    if k = 0 then p else { p with gvtctl := BitVec.ofNat 64 k }
  else if reg = 0xF60 then { p with tlerr := m p.tlerr &&& 0x0000FFFFFFFFFFFF }
  else if reg = 0xF70 then { p with polerr := m p.polerr &&& 0xFFFFFFFF }
  else p

/-- A store to a register of the control page of a core's context with fields of its own (01 R16). -/
def State.ctrlWrite (s : State) (core off n : Nat) (v : Word) : State :=
  s.modCtx (s.core core).ctx (fun c => { c with page := c.page.write off n v })

/-- A request for a performance count (15 R384): one made while BUSY is ignored, and an event above 7 only sets ERR. -/
def State.pmRequest (s : State) (ctx e : Nat) : State :=
  if (s.ctx ctx).page.pmbusy.isSome then s
  else if 7 < e then s.modCtx ctx (fun c => { c with page := { c.page with pmerr := true } })
  else (s.modCtx ctx (fun c => { c with page := { c.page with pmbusy := some e, pmerr := false } })).dueOne .pmAnswer [ctx]

/-- The copy unit of a cluster takes no further chain: its queue is full (12 R322). -/
def Cluster.chainsFull (k : Cluster) : Bool :=
  decide (Config.chainsWalked + Config.chainsQueued ≤ k.chains.length + k.chainQ.length)

/-! The command window (12 R300). -/

/-- The commands of a queue of the engine. -/
def Engine.queue (e : Engine) (q : Nat) : List MCmd := e.queues.get (Fin.ofNat 8 q)
/-- The engine with a queue replaced. -/
def Engine.setQueue (e : Engine) (q : Nat) (l : List MCmd) : Engine :=
  { e with queues := e.queues.set (Fin.ofNat 8 q).val l (Fin.ofNat 8 q).isLt }

/-- The aligned dword of the command window at an offset. -/
def State.qwinDword (s : State) (core off : Nat) : Word :=
  let e := (s.cluster (clusterOf core)).engine
  if off = 0x40 then BitVec.ofNat 64 ((e.queue (core % 8)).filter (fun c => c.seq != 0)).length
  else if 0x100 ≤ off ∧ off < 0x120 then idWord (s.slotAt core ((off - 0x100) / 8)).lastJob
  else if off = 0x200 then
    (match e.keeper with
     | some k => BitVec.ofNat 64 (8 + k % 8)
     | none => 0)
  else 0

/-- A store of n bytes to MCTL made due as its step (12 R318). -/
def State.qwinStore (s : State) (off : Nat) (v : Word) : State :=
  if off = 0x48 ∧ s.me.gangRole ≠ 2 then
    match bitsOf v.toNat 16 2 with
    | 1 => s.dueOne .mctlResume [s.cur.core, v.toNat % 65536]
    | 2 => s.dueOne .mctlCancel [s.cur.core, v.toNat % 65536]
    | _ => s
  else s

end Sys2Proof.Machine
end

