-- ==== Sys2Proof/Machine/MemAccess.lean ====
section
/-! DEFINITION. One access of the running slot at the place its translation gave: loads, stores and atomics of local memory,
device memory, host memory, the control page and the command window (01 R12; 05 R113, R116; 07 R177). -/

namespace Sys2Proof.Machine

/-- A place in the running core's own local memory: its offset. -/
def State.ownLocal (s : State) (a : Nat) : Option Nat :=
  if 2 ^ 52 ≤ a ∧ (a - 2 ^ 52) / 65536 = s.cur.core then some ((a - 2 ^ 52) % 65536) else none

/-- Bytes of HBM moved for a context, counted (15 R384 event 6). -/
def State.countHbm (s : State) (ctx a n : Nat) : State :=
  if a % 2 ^ 44 < 2 ^ 39 ∧ a < 2 ^ 52 then
    s.modCtx ctx (fun x => { x with counts := x.counts.set 6 (x.counts.get 6 + BitVec.ofNat 64 n) })
  else s

/-- The accesses of an agent are in order for one that performs at once: none outstanding, and every write in its view has
performed (05 R116); always so where every access performs at once (log 20). -/
def State.settled (s : State) (x : Slot) (agent : Nat) : Bool := s.eager || (x.ops.isEmpty && s.released agent 7)

/-- The slots that a bundle of the running slot runs on: its own, or those of its gang (06 R156). -/
def State.memberCores (s : State) : List Nat :=
  match s.me.gang with
  | some r => gangCores r
  | none => [s.cur.core]

/-- The running slot and the members of its gang settled. -/
def State.allSettled (s : State) : Bool :=
  s.memberCores.all (fun c => s.settled (s.slotAt c s.cur.slot) (slotAgent c s.cur.slot))

/-- The running slot settled, or parked until it is. -/
def State.settle (s : State) : Except State State :=
  if s.settled s.me s.myAgent then .ok s else .error (s.park .order)

/-- An uncorrectable line of an access (04 R97). -/
def State.poisoned (s : State) (a n : Nat) : Bool := (linesOf a n).any s.poison.contains

/-- The running slot ended by an uncorrectable memory error, of which the host is told (04 R97; 14 R363); a gang's follower is
marked with its cause, for its leader's GANGFAULT (06 R157). -/
def State.memoryError (s : State) (a : Nat) : State :=
  let s := s.tellHost a
  if s.me.gangRole = 2 then
    let (c, s) := s.someCause
    { (s.setMe { s.me with st := .stopped (256 + c) }) with performed := false }
  else { (s.lost s.cur.core s.cur.slot) with performed := false }

/-- The answers of the running slot used up: the instruction has its data. -/
def State.hostDone (s : State) : State :=
  let h := s.holder
  { s with hostAnswer := s.hostAnswer.filter (fun e => e.1 != slotAgent h.core h.slot) }

/-- A host read asked for: the slot waits for the completion, whose value and status are the host's (01 R10; logs 20, 21). -/
def State.askHost (s : State) (a n : Nat) : State :=
  let (v, s) := (s.readHost (dieOf s.cur.core) a n).draw 512
  let (st, s) := s.choose 2
  let h := s.holder
  ((s.park .answer).dueOne .hostCompletion [h.core, h.slot, v.toNat, st, a])

/-- What stands for the bytes of a host read that an error completion answers (01 R10). -/
def hostError : Nat := 2 ^ 512

/-- The bytes of a host read that has been answered; the slot waits first. An error completion is an uncorrectable memory error of
the access that it answers (01 R10; 04 R97). -/
def State.hostBytes (s : State) (a n : Nat) : Except State (List Byte × State) :=
  let h := s.holder
  match s.hostAnswer.find? (fun e => e.1 == slotAgent h.core h.slot && e.2.1 == a) with
  | none => .error (s.askHost a n)
  | some (_, _, v) => if v = hostError then .error (s.hostDone.memoryError a) else .ok (leBytes n v, s)

/-- The bytes that an atomic reads of host memory, in one access with its write: the host's own, or an error completion (01
R10; 05 R125; log 21). -/
def State.hostNow (s : State) (a n : Nat) : Except State (List Byte × State) :=
  let (v, s) := (s.readHost (dieOf s.cur.core) a n).draw (8 * n)
  let (st, s) := s.choose 2
  if st = 1 then .error (s.memoryError a) else .ok (leBytes n v.toNat, s)

/-- The bytes of memory that the running slot reads at once as one unit, and whether they are a tagged capability; `acq` is the
scope of an acquire (01 R21; 05 R119, R120, R123, R124). -/
def State.readMine (s : State) (a n keyid : Nat) (acq : Option Nat := none) : List Byte × Bool × State :=
  if s.eager then let (bs, s) := s.readKey a n keyid; (bs, s.tagAt a keyid, s)
  else
    let (u, ids, s) := s.readUnit s.myAgent ⟨a, n, [], some true, 0, keyid⟩
    let s := match acq with
      | some k => s.joinView s.myAgent (s.acquired s.myAgent k ids)
      | none => s
    (u.bytes, u.tag == some true, s.modMe (fun x => { x with acqReads := joinNat x.acqReads ids }))

/-- The bytes that an atomic reads at their home at once: the last writes in the arrival order, which come to the slot's view (05
R120, R123, R125). -/
def State.readLast (s : State) (a n keyid : Nat) (acq : Option Nat) : List Byte × Bool × State :=
  if s.eager then s.readMine a n keyid acq
  else
    let (bs, s) := s.readKey a n keyid
    let ids := s.lastArrivals a n
    let s := ids.foldl (fun (s : State) id => s.joinView s.myAgent (s.downOf id)) s
    let s := match acq with
      | some k => s.joinView s.myAgent (s.acquired s.myAgent k ids)
      | none => s
    (bs, false, s.modMe (fun x => { x with acqReads := joinNat x.acqReads ids }))

/-- The bytes that a load of n bytes reads at a place, with the tag of its granule (07 R177; 05 R119, R120, R136): of device
memory as its agent may read them, under the running activation's Pantry. `now` reads at the home at once, for an atomic (05 R125);
`acq` is the scope of an acquire, and `win` an access through HOSTWIN, which is just performed (R177). -/
def State.loadTagged (s : State) (p : Place) (n : Nat) (xval2 : Word) (now : Bool) (acq : Option Nat := none) (win : Bool := false) :
    Except State (List Byte × Bool × State) :=
  match s.settle with
  | .error e => .error e
  | .ok s =>
  match p with
  | .ctrl off => let (bs, s) := s.ctrlLoad off n; .ok (bs, false, s)
  | .qwin off => .ok (((leBytes 8 (s.qwinDword s.cur.core (off / 8 * 8)).toNat).drop (off % 8)).take n, false, s)
  | .host a win =>
    (match (if win then .ok s else s.touchGlobal a n false xval2) with
     | .error e => .error e
     | .ok s =>
       match (if now then s.hostNow a n else s.hostBytes a n) with
       | .error e => .error e
       | .ok (bs, s) =>
         (match s.me.spec, s.me.actKey with
          | true, some k => .ok (if win then bs else s.overlay k a bs, false, s)
          | _, _ => .ok (bs, false, s)))
  | .mem a keyid _ =>
    if s.poisoned a n then .error (s.memoryError a)
    else
      match s.ownLocal a with
      | some off =>
        (match s.touchLocal off n false xval2 with
         | .error e => .error e
         | .ok s => .ok (if now then s.readLast a n keyid acq else s.readMine a n keyid acq))
      | none =>
        match (if win then .ok s else s.touchGlobal a n false xval2) with
        | .error e => .error e
        | .ok s =>
          let (bs, tag, s) := if now then s.readLast a n keyid acq else s.readMine a n keyid acq
          let s := s.countHbm s.myCtxId a n
          (match s.me.spec, s.me.actKey with
           | true, some k => .ok (if win then bs else s.overlay k a bs, tag, s)
           | _, _ => .ok (bs, tag, s))

/-- The bytes that a load of n bytes reads at a place. -/
def State.loadAt (s : State) (p : Place) (n : Nat) (xval2 : Word) (acq : Option Nat := none) (win : Bool := false) :
    Except State (List Byte × State) :=
  (s.loadTagged p n xval2 false acq win).map (fun r => (r.1, r.2.2))

/-- What the running slot's next store carries (05 R122): for each fence before it, and for a release at a scope its view. -/
def State.myRels (s : State) (rel : Option Nat) : List (Nat × List Nat) :=
  match rel with
  | some k => (k, s.view s.myAgent) :: s.me.relFence
  | none => s.me.relFence

/-- D set for the translated page of a write of the running slot that performs, or enters the Pantry, in the same step (03 R82,
R85). -/
def State.dirtied (s : State) (page : Option (Nat × Nat)) : State :=
  match page with
  | some (sp, vpn) => s.setDirty s.cur.core s.myCtxId sp vpn
  | none => s

/-- A store of bytes at a place; `page` names the translated page for dirty tracking, `rel` the scope of a release, and `after` what it
comes after beside the slot's view (03 R82; 05 R114, R122, R135; 07 R177). -/
def State.storeAt (s : State) (p : Place) (page : Option (Nat × Nat)) (bs : List Byte) (tag : Option Bool) (xval2 : Word)
    (rel : Option Nat := none) (after : WriteRec → Bool := fun _ => false) : Except State State :=
  match s.settle with
  | .error e => .error e
  | .ok s =>
  match p with
  | .ctrl off => .ok (s.ctrlStore off bs.length (BitVec.ofNat 64 (leNat bs)))
  | .qwin off => .ok (s.qwinStore off (BitVec.ofNat 64 (leNat bs)))
  | .host a win =>
    (match (if win then .ok s else s.touchGlobal a bs.length true xval2) with
     | .error e => .error e
     | .ok s =>
       match s.me.spec, s.me.actKey with
       | true, some k => (s.pantryWrite k a bs false 0 xval2).map (fun s => s.dirtied page)
       | _, _ => .ok ((s.dirtied page).postHost (dieOf s.cur.core) a bs))
  | .mem a keyid _ =>
    match s.ownLocal a with
    | some off =>
      (match s.touchLocal off bs.length true xval2 with
       | .error e => .error e
       | .ok s => .ok (s.homeWrite s.myAgent (s.myRels rel) none after a bs tag 0))
    | none =>
      match s.touchGlobal a bs.length true xval2 with
      | .error e => .error e
      | .ok s =>
        match s.me.spec, s.me.actKey with
        | true, some k => (s.pantryWrite k a bs (tag == some true) keyid xval2).map (fun s => s.dirtied page)
        | _, _ => .ok (((s.dirtied page).homeWrite s.myAgent (s.myRels rel) none after a bs tag keyid).countHbm s.myCtxId a bs.length)

/-- The translated page of an access, for GLOBAL and HOSTWIN. -/
def pageOf (space : Nat) (ea : Int) : Option (Nat × Nat) :=
  if space = 0 ∨ space = 3 then some (space, ea.toNat / 4096) else none

/-- An access of several elements that ran out of room at one of them and traps LARDFULL, as an instruction that performed
nothing: the activations rolled back to make room stay so (07 R182; 14 R361). -/
def State.allOrNone (s0 : State) (r : Except State State) : Except State State :=
  match r with
  | .ok s => .ok s
  | .error e =>
    if !s0.me.spec || e.me.actKey != s0.me.actKey || e.me.st.why.isSome || e.me.xstat == s0.me.xstat then .error e
    else
      let b := e.me.bank e.me.tl
      let gone := s0.cores.entries.flatMap (fun c => (c.2.acts.filter (fun a =>
        !(e.core c.1).acts.any (fun d => d.key == a.key))).map (fun a => (c.1, a.key)))
      let t := gone.foldl (fun (s : State) g =>
        if (s.core g.1).acts.any (fun a => a.key == g.2) then s.rollback g.1 g.2 .free false else s) s0
      .error (t.raise .lardfull b.xval b.xval2)

/-- The new value of an `amo` (11 R282); `none` where `cas` writes nothing. -/
def amoNew (op n : Nat) (old s c : Nat) : Option Nat :=
  let w := 8 * n
  let m := 2 ^ w
  match op with
  | 0 => some ((old + s) % m)
  | 1 => some s
  | 2 => if old = c then some s else none
  | 3 => some (old &&& s)
  | 4 => some (old ||| s)
  | 5 => some (old ^^^ s)
  | 6 => some (if sxNat old w ≤ sxNat s w then old else s)
  | 7 => some (if sxNat old w ≤ sxNat s w then s else old)
  | 8 => some (if old ≤ s then old else s)
  | _ => some (if old ≤ s then s else old)

/-! The reference machine's presentation of an operation (05 R111, R116), in the mode that runs it. -/

/-- An operation of the running slot presented: its destination is interlocked until it lands (05 R111; 09 R219), but for g0, where nothing lands. -/
def State.present (s : State) (kind : OpKind) (units : List Unit_) (dest : Option RegName) (width : Nat) (signed : Bool)
    (acq rel : Option Nat) (page : Option (Nat × Nat) := none) : State :=
  let pos := s.me.ops.length
  let op : MemOp := ⟨s.nextWrite, kind, units, dest, width, signed, acq, rel, false, [], page⟩
  let s := s.modMe (fun x => { x with ops := x.ops ++ [op], board := match dest with
    | some r => if r.isConst then x.board else x.board ++ [r]
    | none => x.board })
  ({ s with nextWrite := s.nextWrite + 1 }).dueOne .memoryIssue [s.myAgent, pos]

/-- Whether an access runs through the reference machine: not in the mode where each performs at once, and never a
speculative write, which lies in no write order (05 R136; log 20). -/
def State.relaxed (s : State) (p : Place) : Bool :=
  match p with
  | .mem _ _ _ => !s.eager && !s.me.spec
  | .host _ _ => false
  | .ctrl _ => false
  | .qwin _ => false

end Sys2Proof.Machine
end

