-- ==== Sys2Proof/Machine/Sections.lean ====
section
/-! DEFINITION. The service cores' accesses to device memory (05 R133, R134), and the bytes of a Loft image: its sections and
its header (14 R371, R372), which a dump record uses too (R375); how they are written, and read back (logs 40, 68). -/

namespace Sys2Proof.Machine

/-! The service cores (05 R133, R134; 15 R378). -/

/-- Bytes written to device memory by a service core, a release at `sys` that carries every write that has performed (05 R134);
the firmware's writes go through the one of die 0, quadrant 0 (15 R379). -/
def State.serviceWrite (s : State) (p unit a : Nat) (bs : List Byte) (tag : Option Bool) (keyid : Nat) : State :=
  let agent := serviceAgent p unit
  (s.joinView agent s.arrived).homeWrite agent [(7, s.arrived)] none (fun w => w.reach == .sys) a bs tag keyid

/-- Bytes of device memory read by a service core under no key: the last arrivals, which join its view (05 R120, R134); of an
uncorrectable line, of which the host is told, they are free (04 R97; log 21). -/
def State.serviceRead (s : State) (p unit a n : Nat) : List Byte × State :=
  match (linesOf a n).find? s.poison.contains with
  | some l =>
    let (v, s) := (s.tellHost (64 * l)).draw (8 * n)
    (leBytes n v.toNat, s)
  | none =>
    let (bs, s) := s.readKey a n 0
    (bs, (s.lastArrivals a n).foldl (fun s id => s.joinView (serviceAgent p unit) (s.downOf id)) s)

/-- What a local address of a package leads to: nothing in the Cellar or outside the populated ranges (01 R10; 02 R38). -/
def State.localBacked (s : State) (p a : Nat) : Bool :=
  decide (a < Config.cellarFrame * 4096) || (decide (2 ^ 39 ≤ a) && decide (a < 2 ^ 42)) ||
    (cxlRanges (s.pkg p).cfg.ports).any (fun r => decide (2 ^ 42 + r.1 ≤ a) && decide (a < 2 ^ 42 + r.1 + r.2))

/-- Bytes of the root space that a command may reach: frames of one package, none of them of its Cellar (01 R10; 02 R38). -/
def State.rootOk (s : State) (a n : Nat) : Bool :=
  let (p, l) := (pkgOfAddr a, a % 2 ^ 44)
  n == 0 || (decide (a < 2 ^ 52) && (s.pkgs.get? p).isSome &&
    (decide (l + n ≤ Config.cellarFrame * 4096) || (decide (2 ^ 39 ≤ l) && s.localBacked p (l + n - 1))))

/-- Bytes at an address of the root space that the firmware of a package reads (01 R11): host memory's are free (01 R10; log 21), and
the host is told of a completion with an error status as of a poisoned line (04 R97); any other are read under no key. -/
def State.rootRead (s : State) (p a n : Nat) : List Byte × State :=
  if isHostFrame (a / 4096) then
    let (v, s) := (s.readHost (2 * p) a n).draw (8 * n)
    let (st, s) := s.choose 2
    (leBytes n v.toNat, if st = 1 then s.tellHost a else s)
  else s.serviceRead p 0 a n

/-- Bytes written at an address of the root space by the firmware of a package. -/
def State.rootWrite (s : State) (p a : Nat) (bs : List Byte) : State :=
  if isHostFrame (a / 4096) then s.postHost (2 * p) a bs else s.serviceWrite p 0 a bs none 0

/-! Values as bytes (00 R1). -/

/-- A dword. -/
def dwBytes (x : Word) : List Byte := leBytes 8 x.toNat

/-- A dword that holds a number. -/
def nwBytes (n : Nat) : List Byte := leBytes 8 n

/-- A dword of some bytes. -/
def dwAt (bs : List Byte) (i : Nat) : Word := BitVec.ofNat 64 (leNat ((bs.drop (8 * i)).take 8))

/-- A capability's sixteen bytes. -/
def capBytes (c : Cap) : List Byte := dwBytes c.lo ++ dwBytes c.hi

/-- A trap bank. -/
def bankBytes (b : TrapBank) : List Byte := dwBytes b.xpc ++ dwBytes b.xcause ++ dwBytes b.xval ++ dwBytes b.xval2 ++ dwBytes b.xscratch

/-- A trap bank that begins at a dword. -/
def bankAt (bs : List Byte) (i : Nat) : TrapBank := ⟨dwAt bs i, dwAt bs (i + 1), dwAt bs (i + 2), dwAt bs (i + 3), dwAt bs (i + 4)⟩

/-- The tags of the capability registers (14 R372). -/
def tagMask (l : List Cap) : Nat := (l.zipIdx.foldl (fun n c => if c.1.tag then n + 2 ^ c.2 else n) 0)

/-- A key as the image holds it, with a timeline id; infinity has every VRT bit set. -/
def keyBytes (k : Option Key) (tl : Nat) : List Byte :=
  match k with
  | some k => nwBytes k.vrt ++ nwBytes (k.src % 2 ^ 20 * 2 ^ 44 + k.seq % 2 ^ 32 * 2 ^ 12 + tl)
  | none => nwBytes (2 ^ 64 - 1) ++ nwBytes tl

/-- The key that begins at a dword. -/
def keyAt (bs : List Byte) (i : Nat) : Option Key :=
  let (v, w) := ((dwAt bs i).toNat, (dwAt bs (i + 1)).toNat)
  if v = 2 ^ 64 - 1 && bitsOf w 12 52 == 0 then none else some ⟨v, bitsOf w 44 20, bitsOf w 12 32⟩

/-! Sections (14 R372; 15 R385). -/

/-- The `bar` that a slot has arrived through and still waits at, as a dword of the image: nothing, or its level and episode (10
R272; log 68). -/
def Slot.arrivalDword (x : Slot) : Nat :=
  match x.arrived with
  | some (l, e, _) => 1 + l % 4 + 4 * e
  | none => 0

/-- A SLOT image. -/
def Slot.image (x : Slot) (elapsed : Nat) : List Byte :=
  dwBytes x.xstat ++ bankBytes x.bank1 ++ bankBytes x.bank2 ++ dwBytes x.pkperm ++ dwBytes (wordOfInt x.pc) ++ capBytes x.code ++
    (x.g.toList.drop 1).flatMap dwBytes ++ x.c.toList.flatMap capBytes ++ nwBytes (tagMask x.c.toList) ++
    x.v.toList.flatMap vecBytes ++ (x.k.toList.drop 1).flatMap dwBytes ++
    nwBytes (x.latch.toNat * 2 ^ 32 + min elapsed 0xFFFF) ++ nwBytes x.arrivalDword

/-- The slot that a SLOT image gives, READY at its next bundle, with ELAPSED. -/
def slotOfImage (bs : List Byte) : Slot × Nat :=
  let mask := (dwAt bs 78).toNat
  let caps (i : Nat) : Cap := ⟨dwAt bs (46 + 2 * i), dwAt bs (47 + 2 * i), bitsOf mask i 1 == 1⟩
  let last := (dwAt bs 342).toNat
  let bar := (dwAt bs 343).toNat
  ({ Slot.reset with
     st := .ready, xstat := dwAt bs 0, bank1 := bankAt bs 1, bank2 := bankAt bs 6, pkperm := dwAt bs 11,
     pc := (dwAt bs 12).toInt, npc := (dwAt bs 12).toInt, code := ⟨dwAt bs 13, dwAt bs 14, true⟩,
     g := Vector.ofFn (fun i : Fin 32 => if i.val = 0 then 0 else dwAt bs (14 + i.val)),
     c := Vector.ofFn (fun i : Fin 16 => caps i.val),
     v := Vector.ofFn (fun i : Fin 32 => vecOfBytes ((bs.drop (632 + 64 * i.val)).take 64)),
     k := Vector.ofFn (fun i : Fin 8 => if i.val = 0 then 0 else dwAt bs (334 + i.val)),
     latch := BitVec.ofNat 32 (last / 2 ^ 32),
     arrived := if bar = 0 then none else some ((bar - 1) % 4, bar / 4, (dwAt bs 12).toInt) }, last % 65536)

/-- A CORE image: registers, local memory, the tagged granules, and the job table. -/
def Core.image (c : Core) (mem : List Byte) (tags : List Nat) : List Byte :=
  dwBytes c.agectl ++ dwBytes c.lardcfg ++ dwBytes c.statemap ++ dwBytes c.tlcfg ++ nwBytes c.hwLimit.toNat ++
    nwBytes c.srng.toNat ++ dwBytes c.xtvec1 ++ nwBytes c.seq.toNat ++ nwBytes (if c.colour then 1 else 0) ++
    dwBytes c.sent0 ++ dwBytes c.recv0 ++ dwBytes c.sent1 ++ dwBytes c.recv1 ++ keyBytes c.minsent 0 ++ mem ++
    List.replicate (65536 - mem.length) 0 ++ leBytes 512 (tags.foldl (fun n g => n + 2 ^ g) 0) ++
    (List.range 256).flatMap (fun i => dwBytes (c.job i).res ++ dwBytes (c.job i).stat)

/-- A job entry from its two dwords (11 R286). -/
def jobOfImage (res stat : Word) : Job :=
  let n := stat.toNat
  let st : JobSt := match bitsOf n 16 2 with
    | 0 => .free
    | 1 => .pending
    | 2 => .done
    | _ => .faulted
  { Job.reset with st := st, kind := bitsOf n 20 4, id := BitVec.ofNat 16 n, res := res }

/-- A core with what a CORE image gives it, and its local memory with the tagged granules. -/
def Core.ofImage (c : Core) (bs : List Byte) : Core × List Byte × List Nat :=
  let tags := leNat ((bs.drop 65656).take 512)
  ({ c with agectl := dwAt bs 0, lardcfg := dwAt bs 1, statemap := dwAt bs 2, tlcfg := dwAt bs 3, hwLimit := (dwAt bs 4).setWidth 12,
            srng := (dwAt bs 5).setWidth 32, xtvec1 := dwAt bs 6, seq := (dwAt bs 7).setWidth 32, colour := (dwAt bs 8).getLsbD 0,
            sent0 := dwAt bs 9, recv0 := dwAt bs 10, sent1 := dwAt bs 11, recv1 := dwAt bs 12, minsent := keyAt bs 13,
            jobs := ⟨((List.range 256).map (fun i => (i, jobOfImage (dwAt bs (8271 + 2 * i)) (dwAt bs (8272 + 2 * i))))).filter
              (fun e => e.2 != Job.reset)⟩ },
   (bs.drop 120).take 65536, (List.range 4096).filter (fun g => bitsOf tags g 1 == 1))

/-- The units of a message: its header, then its payload (06 R140, R141). -/
def Msg.unitBytes (m : Msg) : List Byte :=
  dwBytes m.vrt ++ dwBytes m.dw1 ++ nwBytes (m.dw2.toNat % 2 ^ 48) ++ dwBytes m.dw3 ++
    (m.pay.toList.flatMap vecBytes).take (64 * m.units - 32)

/-- The message whose units begin some bytes, from the agent of its sender's first slot. -/
def msgOfBytes (bs : List Byte) : Msg :=
  let n := 64 * (bitsOf (dwAt bs 2).toNat 43 2 + 1) - 32
  let pay := (bs.drop 32).take n
  let m : Msg := ⟨dwAt bs 0, dwAt bs 1, dwAt bs 2, dwAt bs 3, Vector.ofFn (fun i : Fin 4 => vecOfBytes ((pay.drop (64 * i.val)).take 64)), [], 0⟩
  { m with agent := slotAgent m.src 0 }

/-- The messages that stand one after another in some bytes, and what follows them. -/
def msgsOfBytes : Nat → List Byte → List Msg × List Byte
  | 0, bs => ([], bs)
  | n + 1, bs =>
    let m := msgOfBytes bs
    let (l, rest) := msgsOfBytes n (bs.drop (64 * m.units))
    (m :: l, rest)

/-- A QUEUE image. -/
def Core.queueImage (c : Core) : List Byte :=
  [0, 1, 2, 3, 4].flatMap (fun q => nwBytes (c.queue q).length ++ (c.queue q).flatMap (fun e => e.msg.unitBytes))

/-- A core with the queues that a QUEUE image gives it. -/
def Core.ofQueueImage (c : Core) (bs : List Byte) : Core :=
  ([0, 1, 2, 3, 4].foldl (fun (acc : Core × List Byte) q =>
    let (l, rest) := msgsOfBytes (dwAt acc.2 0).toNat (acc.2.drop 8)
    (acc.1.setQueue q (l.map (fun m => ⟨m, 0, none, .free, false, false⟩)), rest)) (c, bs)).1

/-- A window entry (14 R372). -/
def Window.bytes (w : Window) : List Byte :=
  nwBytes (w.wvpn % 2 ^ 45 + w.wsp % 2 * 2 ^ 45 + w.maxperm.toNat * 2 ^ 46 + w.kinds.toNat * 2 ^ 53 + (if w.anysrc then 2 ^ 55 else 0) +
    if w.once then 2 ^ 56 else 0) ++ nwBytes (w.wpages % 2 ^ 32 + w.wsrc % 2 ^ 20 * 2 ^ 32)

/-- The window entry of two dwords. -/
def windowOfImage (x y : Word) : Window :=
  let n := x.toNat
  ⟨bitsOf n 0 45, bitsOf y.toNat 0 32, bitsOf n 45 1, BitVec.ofNat 7 (bitsOf n 46 7), BitVec.ofNat 2 (bitsOf n 53 2),
    x.getLsbD 55, bitsOf y.toNat 32 20, x.getLsbD 56⟩

/-- A CONTEXT section: the registers of the context's page, the policy's state, its windows, the count of its grids, and the GVT
of each timeline. -/
def Ctx.contextImage (c : Ctx) (gvts : List (Nat × Option Key)) : List Byte :=
  let p := c.page
  dwBytes p.pkdef ++ nwBytes p.spillK ++ p.dpat.toList.flatMap dwBytes ++ dwBytes p.derr ++ dwBytes p.derrdst ++ dwBytes p.htbase ++
    dwBytes p.gvtctl ++ dwBytes p.tlerr ++ dwBytes p.tlerrval ++ dwBytes p.polerr ++ c.pstate.toList.flatMap dwBytes ++
    c.windows.toList.flatMap Window.bytes ++ nwBytes c.gridCount ++ gvts.flatMap (fun e => keyBytes e.2 e.1)

/-- A context with what a CONTEXT section gives it. -/
def Ctx.ofContextImage (c : Ctx) (bs : List Byte) : Ctx :=
  { c with page := { c.page with pkdef := dwAt bs 0, spillK := (dwAt bs 1).toNat, dpat := Vector.ofFn (fun i : Fin 4 => dwAt bs (2 + i.val)),
                                 derr := dwAt bs 6, derrdst := dwAt bs 7, htbase := dwAt bs 8, gvtctl := dwAt bs 9, tlerr := dwAt bs 10,
                                 tlerrval := dwAt bs 11, polerr := dwAt bs 12 },
           pstate := Vector.ofFn (fun i : Fin 16 => dwAt bs (13 + i.val)),
           windows := Vector.ofFn (fun i : Fin 16 => windowOfImage (dwAt bs (29 + 2 * i.val)) (dwAt bs (30 + 2 * i.val))),
           gridCount := (dwAt bs 61).toNat }

/-- A counter (14 R372). -/
def Counter.bytes (c : Counter) : List Byte :=
  nwBytes ((c.value % 2 ^ 32).toNat + (if c.armed then 2 ^ 32 else 0) + c.core.toNat * 2 ^ 33 + c.queue.toNat * 2 ^ 36 + c.hidx.toNat * 2 ^ 39) ++
    dwBytes c.arg

/-- The counter of two dwords. -/
def counterOfImage (x arg : Word) : Counter :=
  let n := x.toNat
  ⟨(x.setWidth 32).toInt, x.getLsbD 32, BitVec.ofNat 3 (bitsOf n 33 3), BitVec.ofNat 3 (bitsOf n 36 3), BitVec.ofNat 10 (bitsOf n 39 10), arg, []⟩

/-- An activation table: lo, hi, the slopes and the intercepts (12 R313). -/
def ActTable.bytes (t : ActTable) : List Byte :=
  ([t.lo, t.hi] ++ t.slope.toList ++ t.icpt.toList).flatMap (fun x => leBytes 4 x.toNat)

/-- The activation table of some bytes. -/
def actOfImage (bs : List Byte) : ActTable :=
  let g (i : Nat) : BitVec 32 := BitVec.ofNat 32 (leNat ((bs.drop (4 * i)).take 4))
  ⟨g 0, g 1, Vector.ofFn (fun i => g (2 + i.val)), Vector.ofFn (fun i => g (66 + i.val))⟩

/-- A truth value as a bit. -/
def bit (b : Bool) : Nat := if b then 1 else 0

/-- A pending matrix command: its dwords, its job id and its cursor; above them what else the engine keeps of it (log 68). -/
def MCmd.bytes (m : MCmd) : List Byte :=
  m.dw.toList.flatMap dwBytes ++
    nwBytes (m.job.toNat + m.slot % 4 * 2 ^ 16 + bit m.infm * 2 ^ 18 + m.rnd.toNat * 2 ^ 19 + bit m.begun * 2 ^ 22 + bit m.ended * 2 ^ 23 +
      bit m.held * 2 ^ 24 + m.cause % 256 * 2 ^ 32) ++ nwBytes (m.cursor % 2 ^ 24 + m.seq * 2 ^ 24)

/-- The command of eighty bytes. -/
def cmdOfImage (bs : List Byte) : MCmd :=
  let j := (dwAt bs 8).toNat
  let c := (dwAt bs 9).toNat
  ⟨Vector.ofFn (fun i => dwAt bs i.val), BitVec.ofNat 16 j, bitsOf j 16 2, j.testBit 18, BitVec.ofNat 3 (bitsOf j 19 3), [], c % 2 ^ 24,
    j.testBit 22, j.testBit 23, bitsOf j 32 8, j.testBit 24, c / 2 ^ 24⟩

/-- Lists that each begin with their count, of items of a number of bytes, and what follows them. -/
def listsOf (size : Nat) : Nat → List Byte → List (List (List Byte)) × List Byte
  | 0, bs => ([], bs)
  | n + 1, bs =>
    let k := (dwAt bs 0).toNat
    let (l, rest) := listsOf size n (bs.drop (8 + size * k))
    ((List.range k).map (fun i => (bs.drop (8 + size * i)).take size) :: l, rest)

/-- A CLUSTER section with the arrivals at the episodes of its block (14 R372; log 68). -/
def Cluster.image (k : Cluster) (cl : Nat) (blk : KMap Nat) : List Byte :=
  let e := k.engine
  (List.range 512).flatMap (fun i => (k.counters.getD i Counter.reset).bytes) ++ e.fmt.toList.flatMap dwBytes ++
    (List.range 1024).flatMap (fun i => leBytes 2 (e.scale.getD i 0).toNat) ++
    (List.range 8).flatMap (fun i => (e.act.getD i ActTable.reset).bytes) ++ nwBytes e.srng.toNat ++
    leBytes 128 (e.held.foldl (fun n r => n + 2 ^ r) 0) ++
    e.held.flatMap (fun r => (e.acc.getD r (Vector.replicate 64 0)).toList.flatMap (fun x => leBytes 4 x.toNat)) ++
    e.queues.toList.flatMap (fun q => nwBytes q.length ++ q.flatMap MCmd.bytes) ++
    nwBytes e.wld.entries.length ++ e.wld.entries.flatMap (fun r => nwBytes r.1 ++ dwBytes r.2.src ++ nwBytes r.2.line) ++
    (List.range 8).flatMap (fun i => nwBytes (k.clusArr.getD (8 * cl + i) 0) ++ nwBytes (blk.getD (8 * cl + i) 0))

/-- A map of the pairs of a list. -/
def mapOf {α : Type} (l : List (Nat × α)) : KMap α := l.foldl (fun m e => m.set e.1 e.2) .empty

/-- A cluster with what a CLUSTER section gives it, and the arrivals at the episodes of its block. -/
def Cluster.ofImage (k : Cluster) (cl : Nat) (bs : List Byte) : Cluster × List (Nat × Nat) :=
  let at_ (i : Nat) : Word := dwAt bs i
  let half (i : Nat) : BitVec 16 := BitVec.ofNat 16 (leNat ((bs.drop (8256 + 2 * i)).take 2))
  let bitmap := leNat ((bs.drop 14472).take 128)
  let held := (List.range 1024).filter (fun r => bitsOf bitmap r 1 == 1)
  let row (i : Nat) : Vector (BitVec 32) 64 :=
    Vector.ofFn (fun j => BitVec.ofNat 32 (leNat ((bs.drop (14600 + 256 * i + 4 * j.val)).take 4)))
  let (queues, rest) := listsOf 80 8 (bs.drop (14600 + 256 * held.length))
  let (lines, rest) := listsOf 24 1 rest
  let arr (j : Nat) : List (Nat × Nat) := (List.range 8).map (fun i => (8 * cl + i, (dwAt rest (2 * i + j)).toNat))
  ({ k with
     counters := mapOf ((List.range 512).map (fun i => (i, counterOfImage (at_ (2 * i)) (at_ (2 * i + 1))))), clusArr := mapOf (arr 0),
     engine := { k.engine with
       fmt := Vector.ofFn (fun i => at_ (1024 + i.val)), scale := mapOf ((List.range 1024).map (fun i => (i, half i))),
       act := mapOf ((List.range 8).map (fun i => (i, actOfImage ((bs.drop (10304 + 520 * i)).take 520)))),
       srng := (at_ 1808).setWidth 32, held := held, acc := mapOf (held.zipIdx.map (fun r => (r.1, row r.2))),
       queues := Vector.ofFn (fun i => (queues.getD i.val []).map cmdOfImage),
       wld := mapOf ((lines.getD 0 []).map (fun x => ((dwAt x 0).toNat, ⟨8 * cl, dwAt x 1, (dwAt x 2).toNat⟩))) } }, arr 1)

/-- A chain of a CHAIN section (14 R372): job id, head, entry index, CURSOR and loops, each with what else the unit keeps of the chain
above it or behind (log 68). -/
def Chain.bytes (c : Chain) (queued : Bool) : List Byte :=
  let (j, g) := match c.owner with
    | .job id => (id.toNat, 0)
    | .graph q frame node => (2 ^ 20, q % 2 ^ 20 + node % 2 ^ 12 * 2 ^ 20 + frame * 2 ^ 32)
  nwBytes (j + bit c.inGlobal * 2 ^ 16 + bit c.infm * 2 ^ 17 + c.slot % 4 * 2 ^ 18 + bit queued * 2 ^ 21 + c.id % 256 * 2 ^ 24) ++
    nwBytes c.head ++ nwBytes c.entry ++ nwBytes c.cursor ++ nwBytes g ++ c.dpat.toList.flatMap dwBytes ++ nwBytes c.loops.length ++
    c.loops.flatMap (fun l => nwBytes l.1 ++ nwBytes l.2)

/-- The chains that stand in some bytes, with whether each was still queued. -/
def chainsOfImage (ctx core : Nat) : Nat → List Byte → List (Chain × Bool)
  | 0, _ => []
  | n + 1, bs =>
    if bs.length < 80 then []
    else
      let j := (dwAt bs 0).toNat
      let g := (dwAt bs 4).toNat
      let owner : ChainOwner := if j.testBit 20 then .graph (g % 2 ^ 20) (g / 2 ^ 32) (bitsOf g 20 12) else .job (BitVec.ofNat 16 j)
      let k := (dwAt bs 9).toNat
      let loops := (List.range k).map (fun i => ((dwAt bs (10 + 2 * i)).toNat, (dwAt bs (11 + 2 * i)).toNat))
      (⟨bitsOf j 24 8, ctx, core, bitsOf j 18 2, owner, j.testBit 16, (dwAt bs 1).toNat, (dwAt bs 2).toNat, (dwAt bs 3).toNat, loops,
        Vector.ofFn (fun i => dwAt bs (5 + i.val)), j.testBit 17, [], !j.testBit 21, none⟩, j.testBit 21) ::
        chainsOfImage ctx core n (bs.drop (80 + 16 * k))

/-- A collective job of a COLL section (14 R372): its descriptor, job id, core, and cursor or rendezvous state, which is the running
time that it has waited (13 R355; log 68). -/
def Coll.bytes (c : Coll) : List Byte :=
  c.desc.toList.flatMap dwBytes ++ nwBytes c.job.toNat ++ nwBytes c.core ++
    nwBytes (bit c.started + bit c.ended * 2 + c.cause % 256 * 2 ^ 2 + (if c.started then c.cursor else c.since) * 2 ^ 10)

/-- The collective job of eighty-eight bytes. -/
def collOfImage (ctx : Nat) (bs : List Byte) : Coll :=
  let n := (dwAt bs 10).toNat
  let started := n.testBit 0
  ⟨ctx, (dwAt bs 9).toNat, BitVec.ofNat 16 (dwAt bs 8).toNat, Vector.ofFn (fun i => dwAt bs i.val), [], started,
    if started then 0 else n / 2 ^ 10, if started then n / 2 ^ 10 else 0, bitsOf n 2 8, n.testBit 1, []⟩

/-- A channel of a FLIGHT section: sending core, destination core and queue, a count, and its messages. -/
def Channel.bytes (c : Channel) : List Byte :=
  nwBytes (match c.msgs with
    | m :: _ => m.src
    | [] => 0) ++ nwBytes c.core ++ nwBytes c.queue ++ nwBytes c.msgs.length ++ c.msgs.flatMap Msg.unitBytes

/-- The channels that stand in some bytes. -/
def channelsOfImage : Nat → List Byte → List Channel
  | 0, _ => []
  | n + 1, bs =>
    if bs.length < 32 then []
    else
      let (l, rest) := msgsOfBytes (dwAt bs 3).toNat (bs.drop 32)
      ⟨slotAgent (dwAt bs 0).toNat 0, (dwAt bs 1).toNat, (dwAt bs 2).toNat, l⟩ :: channelsOfImage n rest

/-! The image of a package (14 R371, R372). -/

/-- A section with its place in the directory's order. -/
structure Section where
  type  : Nat
  index : Nat
  bytes : List Byte
  deriving DecidableEq, Repr

/-- A length cut to the next multiple of 64. -/
def padTo (n : Nat) : Nat := (n + 63) / 64 * 64

/-- Bytes filled with zeros to a multiple of 64. -/
def padded (bs : List Byte) : List Byte := bs ++ List.replicate (padTo bs.length - bs.length) 0

/-- The directory of sections that begin at an offset, one behind another. -/
def directory : Nat → List Section → List Byte
  | _, [] => []
  | o, x :: t => nwBytes (x.type + x.index % 2 ^ 22 * 2 ^ 12) ++ nwBytes (o % 2 ^ 32 + x.bytes.length % 2 ^ 32 * 2 ^ 32) ++
      directory (o + padTo x.bytes.length) t

/-- The offset of VALID in an image (14 R371). -/
def validAt : Nat := 0xF8

/-- What VALID holds in a whole image (14 R371). -/
def validWord (gen : Nat) : Nat := 2 ^ 63 + gen % 2 ^ 63

/-- The bytes of an image with VALID zero: its header, its directory, its sections (14 R371, R372). -/
def imageBytes (ctx pkg gen stTime : Nat) (slow : Bool) (l : List Section) : List Byte :=
  let first := 256 + padTo (16 * l.length)
  let body := l.flatMap (fun x => padded x.bytes)
  padded (nwBytes 0x4C4F465400000001 ++ leBytes 4 1 ++ leBytes 4 (if slow then 1 else 0) ++ leBytes 4 ctx ++ leBytes 4 pkg ++ nwBytes gen ++
    nwBytes stTime ++ nwBytes (first + body.length) ++ leBytes 4 l.length ++ List.replicate 4 0 ++ nwBytes 256 ++ List.replicate 192 0) ++
    padded (directory first l) ++ body

/-- The bytes of LATE: its capacity, its count with how many of its messages the CORE sections count as received, its messages, and
room for the others (log 68). -/
def lateBytes (l : List Msg) (counted : Nat) : List Byte :=
  let bs := l.flatMap Msg.unitBytes
  nwBytes Config.lateCapacity ++ nwBytes (l.length + counted * 2 ^ 32) ++ bs ++ List.replicate (256 * Config.lateCapacity - bs.length) 0

/-- The LATE section of an image on a package. -/
def Image.lateSection (i : Image) (p : Nat) : List Byte :=
  let mine (m : Msg) : Bool := pkgOf m.dest == p
  lateBytes (i.late.filter mine) ((i.late.take i.counted).filter mine).length

/-- The GVT of each timeline of a context that its image holds. -/
def State.imageLines (s : State) (ctx : Nat) : List (Nat × Option Key) :=
  let gvt := ((s.ctx ctx).image.clusters.values.head?.map (fun k => k.gvt)).getD .empty
  (s.timelines.entries.filter (fun e => e.2 == ctx)).map (fun e => (e.1, gvt.getD e.1 (some ⟨0, 0, 0⟩)))

/-- The sections of a saved context's image on a package, its working cores given (14 R372). -/
def State.imageSections (s : State) (ctx p : Nat) (cores : List Nat) : List Section :=
  let c := s.ctx ctx
  let i := c.image
  let mine (core : Nat) : Bool := pkgOf core == p
  let chains := (i.clusters.values.flatMap (fun k => k.chains.map (fun c => (c, false)) ++ k.chainQ.map (fun c => (c, true)))).filter
    (fun x => mine x.1.core)
  let slots := (i.slots.filter (fun x => mine x.core)).map (fun x => (⟨4, 4 * x.core + x.slot, x.data.image (x.elapsed / Config.cyclesPerMicro)⟩ : Section))
  let cores := cores.filter mine
  [⟨1, 0, c.contextImage (s.imageLines ctx)⟩] ++
    cores.map (fun k => ⟨2, k, (i.cores.getD k Core.reset).image (i.locals.getD k ([], [])).1 (i.locals.getD k ([], [])).2⟩) ++
    cores.map (fun k => ⟨3, k, (i.cores.getD k Core.reset).queueImage⟩) ++
    cores.flatMap (fun k => (List.range 4).flatMap (fun j => slots.filter (fun x => x.index == 4 * k + j))) ++
    (i.clusters.entries.filter (fun e => mine (8 * e.1))).map (fun e => ⟨5, 8 * e.1, e.2.image e.1 (match e.2.block.bind s.blocks.get? with
      | some b => b.arr
      | none => .empty)⟩) ++
    (cores.filter (fun k => chains.any (fun x => x.1.core == k))).map (fun k =>
      ⟨6, k, (chains.filter (fun x => x.1.core == k)).flatMap (fun x => x.1.bytes x.2)⟩) ++
    ((List.range 512).filter (fun d => d / 2 == p && i.colls.any (fun e => e.1 == d))).map (fun d =>
      ⟨7, d, (i.colls.filter (fun e => e.1 == d)).flatMap (fun e => e.2.bytes)⟩) ++
    [⟨8, 0, (i.flight.filter (fun f => mine f.core)).flatMap Channel.bytes⟩, ⟨9, 0, i.lateSection p⟩]

/-- An image written on a package: its bytes, then VALID as a release that carries them (14 R371); one that does not fit the
area leaves VALID zero (log 68). -/
def State.writeImage (s : State) (ctx p : Nat) (area : Nat × Nat) (cores : List Nat) : State :=
  let c := s.ctx ctx
  let bs := imageBytes ctx p c.gen c.image.stTime c.image.slow (s.imageSections ctx p cores)
  if area.2 < bs.length then s
  else (s.rootWrite p area.1 bs).rootWrite p (area.1 + validAt) (nwBytes (validWord c.gen))

/-- An image written in every area of its context. -/
def State.writeImages (s : State) (ctx : Nat) (cores : List Nat) : State :=
  let s := s.modCtx ctx (fun c => { c with image := { c.image with context := c.contextImage (s.imageLines ctx) } })
  (s.ctx ctx).lofts.entries.foldl (fun s e => s.writeImage ctx e.1 e.2 cores) s

/-- The first write of a save: VALID is zero in every area (14 R371). -/
def State.clearValid (s : State) (ctx : Nat) : State :=
  (s.ctx ctx).lofts.entries.foldl (fun s e => s.rootWrite e.1 (e.2.1 + validAt) (nwBytes 0)) s

/-- The offset of a section by the directory that stands in memory. -/
def State.sectionAt (s : State) (a type index : Nat) : Option Nat :=
  let n := leNat (s.mem.read (a + 0x30) 4)
  let d := a + leNat (s.mem.read (a + 0x38) 8)
  ((List.range n).find? (fun i => leNat (s.mem.read (d + 16 * i) 8) == type + index * 2 ^ 12)).map (fun i =>
    leNat (s.mem.read (d + 16 * i + 8) 4))

/-- The entry of a job of a saved context written in the table of its core's section, a release at `sys` of the mapping engine that
completes it (02 R64; 14 R371). -/
def State.writeJobEntry (s : State) (ctx core : Nat) (id : BitVec 16) (view : List Nat) : State :=
  match (s.ctx ctx).lofts.get? (pkgOf core) with
  | none => s
  | some area =>
    match s.sectionAt area.1 2 core with
    | none => s
    | some o =>
      let j := ((s.ctx ctx).image.cores.getD core Core.reset).job (id.toNat % 256)
      s.homeWrite (mapAgent (pkgOf core)) [(7, view)] none (fun _ => false) (area.1 + o + 66168 + 16 * (id.toNat % 256)) (dwBytes j.res ++ dwBytes j.stat)
        none 0

/-- LATE written with the messages kept (14 R371, R372). -/
def State.writeLate (s : State) (ctx core : Nat) : State :=
  match (s.ctx ctx).lofts.get? (pkgOf core) with
  | none => s
  | some area =>
    match s.sectionAt area.1 9 0 with
    | none => s
    | some o => s.rootWrite (pkgOf core) (area.1 + o) ((s.ctx ctx).image.lateSection (pkgOf core))

/-! Reading an image back (14 R373; 19 R393). -/

/-- VALID and GEN agree in an area (14 R371). -/
def State.areaWhole (s : State) (p a : Nat) : Bool × State :=
  let (h, s) := s.rootRead p a 256
  (leNat (h.drop validAt) == validWord (leNat ((h.drop 0x18).take 8)), s)

/-- Every area of a context holds a whole image. -/
def State.areasWhole (s : State) (ctx : Nat) : Bool × State :=
  (s.ctx ctx).lofts.entries.foldl (fun (acc : Bool × State) e =>
    let (b, s) := acc.2.areaWhole e.1 e.2.1
    (acc.1 && b, s)) (true, s)

/-- The sections that the directory of an area names, read from memory, with the GEN of its header. -/
def State.readSections (s : State) (p a : Nat) : Nat × List Section × State :=
  let (h, s) := s.rootRead p a 64
  let n := leNat ((h.drop 0x30).take 4)
  let (d, s) := s.rootRead p (a + leNat ((h.drop 0x38).take 8)) (16 * n)
  let (l, s) := (List.range n).foldl (fun (acc : List Section × State) i =>
    let (x, y) := ((dwAt d (2 * i)).toNat, (dwAt d (2 * i + 1)).toNat)
    let (bs, s) := acc.2.rootRead p (a + y % 2 ^ 32) (y / 2 ^ 32)
    (acc.1 ++ [⟨x % 256, bitsOf x 12 22, bs⟩], s)) ([], s)
  (leNat ((h.drop 0x18).take 8), l, s)

/-- An image with a section as the memory of a package holds it (log 40). -/
def Image.take (i : Image) (ctx p : Nat) (x : Section) : Image :=
  let k := i.clusters.getD (x.index / 8) Cluster.reset
  match x.type with
  | 2 =>
    let (c, mem, tags) := (i.cores.getD x.index Core.reset).ofImage x.bytes
    { i with cores := i.cores.set x.index c, locals := i.locals.set x.index (mem, tags) }
  | 3 => { i with cores := i.cores.set x.index ((i.cores.getD x.index Core.reset).ofQueueImage x.bytes) }
  | 4 =>
    let (d, us) := slotOfImage x.bytes
    { i with slots := i.slots.filter (fun e => 4 * e.core + e.slot != x.index) ++
               [⟨x.index / 4, x.index % 4, d, us * Config.cyclesPerMicro⟩] }
  | 5 => { i with clusters := i.clusters.set (x.index / 8) (k.ofImage (x.index / 8) x.bytes).1 }
  | 6 =>
    let l := chainsOfImage ctx x.index (x.bytes.length / 80) x.bytes
    let others (l : List Chain) : List Chain := l.filter (fun c => c.core != x.index)
    { i with clusters := i.clusters.set (x.index / 8) { k with
        chains := others k.chains ++ (l.filter (fun c => !c.2)).map (fun c => c.1)
        chainQ := others k.chainQ ++ (l.filter (fun c => c.2)).map (fun c => c.1) } }
  | 7 =>
    { i with colls := i.colls.filter (fun e => e.1 != x.index) ++
        (List.range (x.bytes.length / 88)).map (fun j => (x.index, collOfImage ctx (x.bytes.drop (88 * j)))) }
  | 8 => { i with flight := i.flight.filter (fun f => pkgOf f.core != p) ++ channelsOfImage (x.bytes.length / 32) x.bytes }
  | 9 =>
    let n := (dwAt x.bytes 1).toNat
    let (l, _) := msgsOfBytes (n % 2 ^ 32) (x.bytes.drop 16)
    let others (l : List Msg) : List Msg := l.filter (fun m => pkgOf m.dest != p)
    let first := others (i.late.take i.counted) ++ l.take (n / 2 ^ 32)
    { i with late := first ++ others (i.late.drop i.counted) ++ l.drop (n / 2 ^ 32), counted := first.length }
  | _ => i

/-- The GVT of a timeline of a context as a CONTEXT section gives it, held by its saved clusters (07 R193). -/
def State.takeLine (s : State) (ctx : Nat) (x y : Word) : State :=
  let t := y.toNat % 256
  if s.timelines.get? t ≠ some ctx then s
  else
    let k := if x = BitVec.allOnes 64 ∧ bitsOf y.toNat 12 52 = 0 then none
      else some (⟨x.toNat, bitsOf y.toNat 44 20, bitsOf y.toNat 12 32⟩ : Key)
    let put (c : Cluster) : Cluster := { c with gvt := c.gvt.set t k }
    { s.modCtx ctx (fun c => { c with image := { c.image with clusters := c.image.clusters.mapVal (fun _ k => put k) } }) with
      announced := s.announced.set t k }

/-- A context with a CONTEXT section as memory holds it: the registers, and the GVT of each timeline that the section names. -/
def State.takeContext (s : State) (ctx : Nat) (x : Section) : State :=
  (List.range ((x.bytes.length - 496) / 16)).foldl (fun (s : State) i => s.takeLine ctx (dwAt x.bytes (62 + 2 * i)) (dwAt x.bytes (63 + 2 * i)))
    (s.modCtx ctx (fun c => c.ofContextImage x.bytes))

/-- The arrivals at the episodes of a cluster's block as its section holds them (10 R272; 14 R372). -/
def State.takeArrivals (s : State) (ctx : Nat) (x : Section) : State :=
  let k := (s.ctx ctx).image.clusters.getD (x.index / 8) Cluster.reset
  match k.block.bind s.blocks.get?, k.block with
  | some b, some i =>
    { s with blocks := s.blocks.set i { b with arr := (k.ofImage (x.index / 8) x.bytes).2.foldl (fun m e => m.set e.1 e.2) b.arr } }
  | _, _ => s

/-- A section of an area taken: one whose bytes are those that the image gives changes nothing (log 40). The clusters come before the
GVTs that they hold. -/
def State.takeSection (s : State) (ctx p : Nat) (have_ : List Section) (x : Section) : State :=
  if have_.contains x || (x.type == 1 && x.bytes == (s.ctx ctx).image.context) then s
  else if x.type = 1 then s.takeContext ctx x
  else
    let s := if x.type = 5 then s.takeArrivals ctx x else s
    s.modCtx ctx (fun c => { c with image := c.image.take ctx p x })

/-- The image of a context as its areas hold it, with the cores that their CORE sections name (14 R373, R374). -/
def State.takeImage (s : State) (ctx : Nat) : List Nat × State :=
  (s.ctx ctx).lofts.entries.foldl (fun (acc : List Nat × State) e =>
    let (gen, l, s) := acc.2.readSections e.1 e.2.1
    let named := (l.filter (fun x => x.type == 2)).map (fun x => x.index)
    let have_ := s.imageSections ctx e.1 named
    let order := l.filter (fun x => x.type != 1) ++ l.filter (fun x => x.type == 1)
    (acc.1 ++ named, order.foldl (fun s x => s.takeSection ctx e.1 have_ x) (s.modCtx ctx (fun c => { c with gen := gen })))) ([], s)

/-! The live core, for a dump (14 R375). -/

/-- A core's local memory as its CORE section holds it: its bytes, the spill pool zero and untagged, and its tagged granules (01
R20; 14 R372). -/
def State.localSection (s : State) (core : Nat) : List Byte × List Nat :=
  let f := (s.core core).force
  let lo := 0xFF00 - 1024 * f.spillK
  let l := s.mem.read (localBase core) 65536
  (l.take lo ++ List.replicate (1024 * f.spillK) 0 ++ l.drop 0xFF00,
   ((s.tags.filter (fun g => decide (localBase core / 16 ≤ g) && decide (g < localBase core / 16 + 4096))).map
     (fun g => g - localBase core / 16)).filter (fun g => decide (g < lo / 16) || decide (0xFF0 ≤ g)))

/-- Local memory with no valid entry in the Larder (07 R179). -/
def larderCleared (core : Nat) (f : InForce) (mem : List Byte) : List Byte :=
  (List.range (larderEntries f.larderK)).foldl (fun (l : List Byte) i =>
    let o := larderHeader core f i - localBase core + 8
    l.set o (l.getD o 0 &&& 0xFD)) mem

/-- A CORE image of a core as it stands, its Larder empty (14 R372, R375). -/
def State.coreImage (s : State) (core : Nat) : List Byte :=
  (s.core core).image (larderCleared core (s.core core).force (s.localSection core).1) (s.localSection core).2

end Sys2Proof.Machine
end

