-- ==== Sys2Proof/Machine/Queues.lean ====
section
/-! DEFINITION. Messages between a sender's port and a slot: departure, arrival, counters, queues, ageing and activation
(06 R140 to R154; 04 R92; 07 R173 to R176, R187). -/

namespace Sys2Proof.Machine

/-! Dropped messages (06 R143, R144). -/

/-- A drop counted in a context's DERR, with its first reason and header (06 R144). -/
def State.countDrop (s : State) (ctx reason : Nat) (hdr : Word) : State :=
  s.modCtx ctx (fun c =>
    let p := c.page
    let n := bitsOf p.derr.toNat 0 32
    if n = 0 then
      { c with page := { p with derr := BitVec.ofNat 64 (reason * 2 ^ 32 + 1), derrdst := hdr } }
    else { c with page := { p with derr := setField p.derr 0 32 (min (n + 1) 0xFFFFFFFF) } })

/-! Queues (06 R149; 04 R92). -/

/-- Where an entry stands in QT: before the first entry of a higher key (04 R92). -/
def insertKey (e : QEntry) : List QEntry → List QEntry
  | [] => [e]
  | x :: t => if e.msg.key.lt x.msg.key then e :: x :: t else x :: insertKey e t

/-- The place of a queue's head: the oldest entry, or in QT the lowest key not taken (06 R149). -/
def headIndex (q : Nat) (l : List QEntry) : Option Nat := if q = 4 then l.findIdx? (fun e => !e.taken) else if l.isEmpty then none else some 0

/-- Queue heads with the clock since which each has been its queue's head (06 R149). -/
def Core.heads (c : Core) (clock : Nat) : Core :=
  { c with queues := Vector.ofFn (fun i =>
      let l := c.queues.get i
      let h := headIndex i.val l
      (l.zipIdx.map (fun (e, j) =>
        if h = some j then (if e.head.isSome then e else { e with head := some clock }) else { e with head := none }))) }

/-- Units of the spill pool in use: the units of the entries that met a full queue; such an entry stands in the pool until it
leaves its queue (04 R92; log 56). -/
def Core.spilled (c : Core) : Nat :=
  c.queues.toList.foldl (fun n l => (l.filter (fun e => e.spilled)).foldl (fun n e => n + e.msg.units) n) 0

/-- A queue's sixty-four hardware places are taken (04 R92). -/
def Core.full (c : Core) (q : Nat) : Bool := decide (Config.queueDepth ≤ ((c.queue q).filter (fun e => !e.spilled)).length)

/-- Units that the spill pool in force holds (04 R91, R92). -/
def Core.spillRoom (c : Core) : Nat := 16 * c.force.spillK

/-- A queue accepts a message of a number of units: in hardware or whole in the pool (04 R92). -/
def Core.hasRoom (c : Core) (q units : Nat) : Bool :=
  !c.full q || decide (c.spilled + units ≤ c.spillRoom)

/-- The EMPTY slots of a core asked to take an entry, in ascending order (06 R149). -/
def State.fillSlots (s : State) (core : Nat) : State :=
  s.due ((List.range 4).map (fun i => ⟨.activate, [core, i]⟩))

/-- An entry accepted into a queue of a core: `idle` slots wake (12 R338), EMPTY slots take entries. -/
def State.enqueue (s : State) (core q : Nat) (e : QEntry) : State :=
  let s := s.modCore core (fun c =>
    let l := c.queue q
    let e := { e with spilled := c.full q }
    let c := c.setQueue q (if q = 4 then insertKey e l else l ++ [e])
    let c := if q = 4 then { c with lvtNote := c.lvtNote ++ [e.msg.key] } else c
    (c.heads s.clock).wakeIf (fun x => x.st.why == some .idle))
  s.fillSlots core

/-- A message that the device makes on behalf of no core (01 R14; 06 R153; 12 R333): its bit 63 of dword 2, which no
sender sets, marks that the INFM check never traps for it. -/
def deviceMsg (core hidx ctx seq : Nat) (pay : Vector VWord 4) (view : List Nat) : Msg where
  vrt := 0
  dw1 := BitVec.ofNat 64 (core % 2 ^ 20 * 2 ^ 32 + seq % 2 ^ 32)
  dw2 := BitVec.ofNat 64 (2 ^ 63 + hidx % 1024 * 2 ^ 23 + core % 2 ^ 20)
  dw3 := BitVec.ofNat 64 (ctx % 2 ^ 20)
  pay := pay
  view := view
  agent := core

/-- The mark of a message that the device made. -/
def Msg.device (m : Msg) : Bool := m.dw2.getLsbD 63

/-! Counters (06 R152, R153). -/

/-- A counter's task fired: a synthetic entry at the end of its queue, whether or not the spill pool has room (06 R153; log
57). -/
def State.fire (s : State) (cluster : Nat) (c : Counter) : State :=
  let core := cluster * 8 + c.core.toNat
  let m := deviceMsg core c.hidx.toNat (s.core core).ctx 0 (Vector.replicate 4 0) c.view
  s.enqueue core (c.queue.toNat % 4) ⟨m, c.arg, none, .free, false, false⟩

/-- A counter of a cluster set. -/
def State.setCounter (s : State) (cluster i : Nat) (c : Counter) : State :=
  s.modCluster cluster (fun k => { k with counters := k.counters.set i c })

/-- An arrival at a counter (06 R153), with the view of its message (05 R127). -/
def State.counterArrive (s : State) (cluster i : Nat) (view : List Nat) : State :=
  let c := (s.cluster cluster).counters.getD i Counter.reset
  let c := { c with value := max (c.value - 1) (-(2 ^ 31 : Nat)), view := joinNat c.view view }
  if c.armed && c.value == 0 then (s.setCounter cluster i { c with armed := false, view := [] }).fire cluster c
  else s.setCounter cluster i c

/-- Arm (06 R153). -/
def State.counterArm (s : State) (cluster i n : Nat) (core queue hidx : Nat) (arg : Word) (view : List Nat) : State :=
  let c := (s.cluster cluster).counters.getD i Counter.reset
  let c : Counter := { c with value := min (c.value + n) ((2 ^ 31 : Nat) - 1), armed := true, core := BitVec.ofNat 3 core, queue := BitVec.ofNat 3 queue, hidx := BitVec.ofNat 10 hidx, arg := arg, view := joinNat c.view view }
  if c.value ≤ 0 then (s.setCounter cluster i { c with armed := false, view := [] }).fire cluster c
  else s.setCounter cluster i c

/-! Departure and arrival. -/

/-- A channel's messages (05 R111). -/
def State.channel (s : State) (sender core queue : Nat) : List Msg :=
  ((s.channels.find? (fun c => c.sender == sender && c.core == core && c.queue == queue)).map (fun c => c.msgs)).getD []

/-- A channel with its messages replaced; an empty one is dropped. -/
def State.setChannel (s : State) (sender core queue : Nat) (l : List Msg) : State :=
  let others := s.channels.filter (fun c => !(c.sender == sender && c.core == core && c.queue == queue))
  { s with channels := if l.isEmpty then others else others ++ [⟨sender, core, queue, l⟩] }

/-- The core that a message goes to: of firmware's context, the Garret core that its firmware core id names (01 R14). -/
def Msg.destCore (m : Msg) : Nat := if m.ctx = 0xFFFFF then 2 ^ 20 + m.dest else m.dest

/-- A message enters its channel, and its arrival is made due (05 R127; 06 R143). -/
def State.launchMsg (s : State) (m : Msg) : State :=
  let q := m.dq
  let d := m.destCore
  (s.setChannel m.agent d q (s.channel m.agent d q ++ [m])).due
    [if m.sign then ⟨.antiMessageArrive, [m.agent, d]⟩ else ⟨.messageArrive, [m.agent, d, q]⟩]

/-- DEST is a working core of the partition of a context (06 R143 reason 1), or for firmware's context a Garret core. -/
def State.inPartition (s : State) (ctx core : Nat) : Bool :=
  if ctx = 0xFFFFF then s.garretExists core else s.coreExists core && (s.ctx ctx).dies.contains (dieOf core)

/-- Back-pressure holds a message in its port: an earlier one of its pair of queues waits in the eject buffer of its destination
(04 R92; 11 R296; log 75). An anti-message goes on, since it may take that one away. -/
def State.backs (s : State) (m : Msg) : Bool :=
  !m.sign && (s.core m.destCore).eject.any (fun e => e.agent == m.agent && e.dq == m.dq)

/-- The steps of the ports that may go on once an eject buffer has given a message up (11 R296). -/
def State.portDues (s : State) : List Due :=
  (s.cores.entries.filter (fun e => !e.2.port.isEmpty)).map (fun e => ⟨.outboundDepart, [e.1]⟩)

/-- A message leaves the outbound port of its core (06 R143; 11 R296), unless back-pressure holds it there. Arguments: core. -/
def execOutboundDepart (s : State) : Out :=
  let core := s.arg 0
  match (s.core core).port with
  | [] => .next s
  | m :: t =>
    if s.inPartition m.ctx m.dest && s.backs m then .next s else
    let s := s.modCore core (fun c => { c with port := t })
    if !s.inPartition m.ctx m.dest then
      let s := if m.dq = 4 then s.modCore core (fun c => c.countRecv m) else s
      .next ((s.countDrop m.ctx 1 m.dw2).due (if t.isEmpty then [] else [⟨.outboundDepart, [core]⟩]))
    else .next ((s.launchMsg m).due (if t.isEmpty then [] else [⟨.outboundDepart, [core]⟩]))

/-- The LATE section of a destination's package is full (14 R372; log 68). -/
def State.lateFull (s : State) (ctx core : Nat) : Bool :=
  decide (Config.lateCapacity ≤ ((s.ctx ctx).image.late.filter (fun m => pkgOf m.dest == pkgOf core)).length)

/-- A message kept with the saved messages of its context, in arrival order, and written to its image once that is whole (06 R143;
14 R369, R371, R372): it counts as received (07 R188). -/
def State.keepLate (s : State) (core : Nat) (m : Msg) : State :=
  let s := s.modCtx m.ctx (fun c => { c with image := { c.image with late := c.image.late ++ [m] } })
  if (s.ctx m.ctx).st = .saved then s.writeLate m.ctx core
  else if m.dq = 4 then s.modCore core (fun k => k.countRecv m)
  else s

/-- The receipt of a timed message that is dropped counted at its destination, or for it where its context is saved (07 R188). -/
def State.receipt (s : State) (core : Nat) (m : Msg) : State :=
  if m.dq ≠ 4 then s
  else if (s.ctx m.ctx).st = .saved then s.modCtx m.ctx (fun c => { c with image := { c.image with drops := c.image.drops ++ [m] } })
  else s.modCore core (fun c => c.countRecv m)

/-- The VRT of a timed message raised above a finite GVT held at its destination, whether or not the core takes entries (07
R173); above the greatest VRT there is none, and the message keeps that one (log 85). -/
def State.raised (s : State) (core : Nat) (m : Msg) : Msg :=
  match s.boundTimeline core with
  | none => m
  | some t =>
    match s.gvtAt (clusterOf core) t with
    | none => m
    | some g => if m.vrt.toNat ≤ g.vrt && m.dq == 4 then { m with vrt := BitVec.ofNat 64 (min (g.vrt + 1) (2 ^ 64 - 1)) } else m

/-- A core can accept a message now: a counter note takes no room (04 R92; 06 R153). -/
def Core.takes (c : Core) (m : Msg) : Bool := m.hidx == 1023 || c.hasRoom m.dq m.units

/-- A message accepted by a core (06 R152, R153): its counter is decremented, and unless it is a counter note it enters its
queue. Where the counter's own entry has taken the last room, it waits first of all in the eject buffer, its arrival at the
counter done (04 R92). -/
def State.acceptMsg (s : State) (core : Nat) (m : Msg) : State :=
  let s := if m.ctr ≠ 0 then s.counterArrive (clusterOf core) (m.ctr % 512) m.view else s
  if !(s.core core).takes m then
    s.modCore core (fun c => { c with eject := { m with dw2 := setField m.dw2 33 10 0 } :: c.eject })
  else if m.hidx = 1023 then s
  else (s.receipt core m).enqueue core m.dq ⟨s.raised core m, 0, none, .free, false, false⟩

/-- A message that has passed its checks delivered to a core (04 R92): it waits in the eject buffer where its queue has no
room, or an earlier one of its pair waits there. -/
def State.deliver (s : State) (core : Nat) (m : Msg) : State :=
  if (s.core core).eject.any (fun e => e.agent == m.agent && e.dq == m.dq) || !(s.core core).takes m then
    s.modCore core (fun c => { c with eject := c.eject ++ [m] })
  else s.acceptMsg core m

/-- A message arrives at its destination's fabric port (06 R143); one for a saved context whose LATE is full waits in the eject
buffer with those behind it (14 R372). Arguments: sender, core, queue. -/
def execMessageArrive (s : State) : Out :=
  let (a, core, q) := (s.arg 0, s.arg 1, s.arg 2)
  match s.channel a core q with
  | [] => .next s
  | m :: t =>
    let again := s.dueOne .messageArrive [a, core, q]
    if m.sign then .next again
    else
      let s := s.setChannel a core q t
      let st := (s.ctx m.ctx).st
      let fw := m.ctx == 0xFFFFF
      if !fw && (st == .reset || st == .retiring || st == .free) && m.ctx != 0 then .next (s.receipt core m)
      else if m.ctx = 0 then .next ((s.receipt core m).countDrop m.ctx 2 m.dw2)
      else if m.ctr ≠ 0 && m.ctr < 512 then .next ((s.receipt core m).countDrop m.ctx 3 m.dw2)
      else if !fw && q < 4 && !s.blocks.values.any (fun b => b.ctx == m.ctx && b.clusters.contains (clusterOf core)) then .next ((s.receipt core m).countDrop m.ctx 4 m.dw2)
      else if !fw && (st == .saved || (s.core core).saved) then
        .next (if s.lateFull m.ctx core then again else s.keepLate core m)
      else .next (s.deliver core m)

end Sys2Proof.Machine
end

