-- ==== Sys2Proof/Machine/Activation.lean ====
section
/-! DEFINITION. Taking an entry and activating its handler (06 R146, R149; 07 R176, R183), eject buffers (04 R92),
anti-messages (07 R187), and the message and activation instructions (11 R296 to R298; 07 R192). -/

namespace Sys2Proof.Machine

/-! Virtual time of a core (07 R174). -/

/-- The keys that hold a core's floor down: QT entries not taken, RUNNING activations, and messages accepted since the
last report (07 R174). -/
def Core.floorKeys (c : Core) : List Key :=
  ((c.queue 4).filter (fun e => !e.taken)).map (fun e => e.msg.key) ++
    (c.acts.filter (fun a => !a.finished)).map (fun a => a.key) ++ c.lvtNote

/-- The floor of a core: the least of those keys (07 R174). -/
def Core.floor (c : Core) : Option Key := c.floorKeys.foldl (fun m k => keyMin m (some k)) none

/-- A VRT as software reads it: infinity is all ones (07 R172). -/
def vrtWord (k : Option Key) : Word :=
  match k with
  | some k => BitVec.ofNat 64 k.vrt
  | none => BitVec.allOnes 64

/-! Candidates (06 R149; 07 R176). -/

/-- An entry is not HELD, or its hold has ended (07 R176): a hold for the GVT key as GVT reaches it (R183), a hold for a writer as
that commits or is rolled back (R181). -/
def holdEnded (gvt : Option Key) (e : QEntry) : Bool :=
  match e.hold with
  | .free => true
  | .ended => true
  | .untilGvt => gvt == some e.msg.key
  | .untilWriter _ _ => false

/-- An entry of QT is not held back (07 R171, R176). -/
def State.qtReady (s : State) (core : Nat) (e : QEntry) : Bool :=
  let c := s.core core
  match s.timelineOf core with
  | none => false
  | some t =>
    match s.gvtAt (clusterOf core) t with
    | none => false
    | some g =>
      !e.taken && decide (c.acts.length < Config.activations) && holdEnded (some g) e &&
        (c.force.win == 0 || decide (e.msg.vrt.toNat < g.vrt + 2 ^ c.force.win))

/-- A core of a stopping block takes no entry from Q0 to Q3 (06 R167). -/
def State.coreStops (s : State) (core : Nat) : Bool :=
  match s.blockOf core with
  | some (_, b) => b.stopping
  | none => false

/-- The candidates of a core by queue (06 R149). -/
def State.candidate (s : State) (core q : Nat) : Option QEntry :=
  let l := (s.core core).queue q
  if q = 4 then l.find? (s.qtReady core)
  else if s.coreStops core then none
  else l.head?

/-- The rank of a candidate, with the cycles it has waited as its queue's head (06 R149); a QT candidate behind an entry held
back has not been the head (log 63). -/
def State.rank (s : State) (core q : Nat) (e : QEntry) : Nat × Nat :=
  let base := if q = 4 then 1 else if q = 0 then 0 else q + 1
  let w := match e.head with
    | some t => s.clock - t
    | none => 0
  let lim := bitsOf (s.core core).agectl.toNat 0 16
  (if lim = 0 then base else base - w / (64 * lim), w)

/-- The order of candidates: lower rank, then the larger wait, then the lower base (06 R149). -/
def better (a b : Nat × Nat × Nat) : Bool :=
  decide (a.1 < b.1) || (a.1 == b.1 && (decide (b.2.1 < a.2.1) || (a.2.1 == b.2.1 && decide (a.2.2 < b.2.2))))

/-- The candidate that a core takes: its queue and the entry. -/
def State.best (s : State) (core : Nat) : Option (Nat × QEntry) :=
  ([0, 4, 1, 2, 3].foldl (fun (acc : Option ((Nat × Nat × Nat) × Nat × QEntry)) q =>
    match s.candidate core q with
    | none => acc
    | some e =>
      let r := s.rank core q e
      let key := (r.1, r.2, if q = 4 then 1 else if q = 0 then 0 else q + 1)
      match acc with
      | none => some (key, q, e)
      | some (k, q', e') => if better key k then some (key, q, e) else some (k, q', e')) none).map (fun r => r.2)

/-! Activation (06 R146). -/

/-- The slot set up for a message, before the handler entry is read (06 R146; 01 R24; 03 R79; 15 R385): firmware's runs at TL2 (13
R342). Its place in program order goes on, with the fences and reads of the activations before (05 R110, R124). -/
def Slot.setup (x : Slot) (m : Msg) (carg pkdef : Word) (spec : Bool) (clock : Nat) : Slot :=
  let st := setField (setField (setField (setField (setField x.xstat 0 4 (if m.ctx = 0xFFFFF then 2 else 0)) 15 1 0) 9 1 (if m.dq = 4 then 1 else 0))
    10 1 (if spec then 1 else 0)) 11 4 0
  { x with
    st := .ready, xstat := st, pkperm := pkdef, pend := [], board := [], monitor := none, latch := 0, walkFault := none,
    gang := none, yielded := [], stallTo := 0, began := clock, actKey := if m.dq = 4 then some m.key else none, dist := 0,
    g := (((Vector.replicate 32 (0 : Word)).set 1 m.vrt).set 2 m.dw1).set 3 carg,
    v := ((((Vector.replicate 32 (0 : VWord)).set 0 m.pay[0]).set 1 m.pay[1]).set 2 m.pay[2]).set 3 m.pay[3],
    k := Vector.replicate 8 0,
    c := (Vector.replicate 16 Cap.zero).set 15 Cap.local15 }

/-- What the reading of a handler-table entry comes to. -/
inductive HandlerRead where
  /-- Its four dwords and its tag. -/
  | entry (bytes : List Byte) (tag : Bool) (s : State)
  /-- An address that faults, and the state after its walk. -/
  | fault (addr : Nat) (s : State)
  /-- An uncorrectable line (04 R97). -/
  | lost (addr : Nat)

/-- The handler-table entry of an index as the activating slot reads it (06 R145, R146), through its core's TLBs or by a walk (03
R66, R82). -/
def State.handlerEntry (s : State) (ctx hidx : Nat) : HandlerRead :=
  let a := (s.ctx ctx).page.htbase.toNat + 32 * hidx
  match s.xlatCore s.cur.core ctx a with
  | .ok (.mem p key _) =>
    if s.poisoned p 32 then .lost p
    else
      let s := s.coreWalked s.cur.core ctx (a / 4096)
      let (bs, tag, s) := s.readMine p 16 key
      let (cs, _, s) := s.readMine (p + 16) 16 key
      .entry (bs ++ cs) tag s
  | _ => .fault a (s.coreWalked s.cur.core ctx (a / 4096))

/-- The activation of a slot by a message (06 R146): its traps are taken with XVAL2 0, XPC the entry's cursor if the entry
was read and is tagged; the registers set before keep their values (00 R5; log 95). -/
def State.activateSlot (s : State) (core slot : Nat) (m : Msg) (carg : Word) (spec : Bool) : State :=
  let ctx := (s.core core).ctx
  let s := (s.joinView (slotAgent core slot) (s.core core).retire).joinView (slotAgent core slot) m.view
  let s := s.modSlotAt core slot (fun x =>
    { x.setup m carg (s.ctx ctx).page.pkdef spec s.clock with fetchView := s.view (slotAgent core slot) })
  let s := s.modCtx ctx (fun c => { c with counts := c.counts.set 2 (c.counts.get 2 + 1) })
  let s := { s with cur := ⟨core, slot⟩ }
  let go (s : State) (c : Cause) (xval : Word) (pc : Int) : State :=
    let t := s.raiseAt c xval 0 pc
    t.modSlotAt core slot (fun x => { x with pc := x.npc })
  let hidx := BitVec.ofNat 64 m.hidx
  if !m.device && m.infm != s.me.infm then go s .infmmismatch (if m.infm then 1 else 0) 0
  else
    match s.handlerEntry ctx m.hidx with
    | .fault a s => go s .notmapped (BitVec.ofNat 64 a) 0
    | .lost a => (s.tellHost a).fatal core slot 3
    | .entry bs tag s =>
      let c : Cap := ⟨BitVec.ofNat 64 (leNat (bs.take 8)), BitVec.ofNat 64 (leNat ((bs.drop 8).take 8)), tag⟩
      let d2 := leNat ((bs.drop 16).take 8)
      let pc := if tag then c.cursor else 0
      if 2 ≤ d2 || leNat (bs.drop 24) ≠ 0 then go s .resfield hidx pc
      else if d2 = 0 then go s .illegal hidx pc
      else if !tag then go s .tag hidx 0
      else if c.space ≠ 0 then go s .space hidx pc
      else if !hasBits c.perm 4 then go s .perm hidx pc
      else (s.modMe (fun x => { x with code := c, pc := c.cursor, npc := c.cursor })).trace 1 core slot 0 c.cursor

/-- The lowest EMPTY slot of a core (06 R149). -/
def Core.emptySlot (c : Core) : Option Nat := (List.range 4).find? (fun i => (c.slot i).st == .empty)

/-- A slot that may be EMPTY asks for the best candidate of its core, and the lowest EMPTY slot takes it (06 R149; 07 R175,
R183). Arguments: core, slot. -/
def execActivate (s : State) : Out :=
  let core := s.arg 0
  let c := s.core core
  let slot := c.emptySlot.getD 4
  if 4 ≤ slot || c.window || c.saved || !(c.ctx == 0xFFFFF || (s.ctx c.ctx).st == .running) then .next s
  else
    match s.best core with
    | none => .next s
    | some (q, e) =>
      if q = 4 then
        let gvt := (s.timelineOf core).bind (fun t => s.gvtAt (clusterOf core) t)
        let spec := !(e.hold != .free && gvt == some e.msg.key)
        let take (x : QEntry) : QEntry := if x.msg.key == e.msg.key && !x.taken then { x with taken := true } else x
        let act : Act := ⟨e.msg.key, (s.timelineOf core).getD 0, some slot, false, e, [], [], [], []⟩
        let s := s.modCore core (fun c => { (c.setQueue 4 ((c.queue 4).map take)).heads s.clock with acts := c.acts ++ [act] })
        .next (s.activateSlot core slot e.msg e.carg spec)
      else
        let s := s.modCore core (fun c => (c.setQueue q (c.queue q).tail).heads s.clock)
        .next ((s.activateSlot core slot e.msg e.carg false).dueOne .ejectAccept [core])

/-- The first message of an eject buffer that its queue has room for, none of its pair before it (04 R92). -/
def acceptable (c : Core) : List Msg → List Msg → Option (Msg × List Msg)
  | _, [] => none
  | before, m :: t =>
    if !before.any (fun b => b.agent == m.agent && b.dq == m.dq) && c.takes m then some (m, before ++ t)
    else acceptable c (before ++ [m]) t

/-- A message waiting in an eject buffer is accepted (04 R92). Arguments: core. -/
def execEjectAccept (s : State) : Out :=
  let core := s.arg 0
  match acceptable (s.core core) [] (s.core core).eject with
  | none => .next s
  | some (m, rest) =>
    .next (((s.modCore core (fun c => { c with eject := rest })).acceptMsg core m).due (⟨.ejectAccept, [core]⟩ :: s.portDues))

/-- A message is the twin of an anti-message: SRC and SEQ agree, and VRT, but for a raise at its arrival (07 R173, R187). -/
def twinOf (anti m : Msg) : Bool :=
  m.dq == 4 && !m.sign && m.src == anti.src && m.seq == anti.seq && decide (anti.vrt.toNat ≤ m.vrt.toNat)

/-- An anti-message meets its twin (07 R187; 06 R143); one that is not yet the first of its channel waits. Arguments: sender,
core. -/
def execAntiMessageArrive (s : State) : Out :=
  let (a, core) := (s.arg 0, s.arg 1)
  match s.channel a core 4 with
  | [] => .next s
  | m :: t =>
    if !m.sign then .next (s.dueOne .antiMessageArrive [a, core])
    else
      let s := s.setChannel a core 4 t
      let st := (s.ctx m.ctx).st
      if st == .reset || st == .retiring || st == .free then .next (s.receipt core m)
      else if st == .saved || (s.core core).saved then .next (s.keepLate core m)
      else
        let s := s.receipt core m
        match (s.core core).eject.find? (twinOf m), ((s.core core).queue 4).find? (fun e => twinOf m e.msg) with
        | some e, _ => .next (((s.receipt core e).modCore core (fun c =>
          { c with eject := c.eject.filter (fun x => !twinOf m x) })).due s.portDues)
        | none, some e =>
          if e.taken then .next (s.rollback core e.msg.key .free true)
          else .next ((s.modCore core (fun c =>
            (c.setQueue 4 ((c.queue 4).filter (fun x => !twinOf m x.msg))).heads s.clock)).dueOne .ejectAccept [core])
        | none, none => .next s

/-! Sending (11 R296). -/

/-- The payload of n units from consecutive vector registers, as v0 to v3 receive it (06 R141). -/
def payloadOf (x : Slot) (v : BitVec 5) (un : Nat) : Vector VWord 4 :=
  let bytes := ((List.range (un + 1)).flatMap (fun i => vecBytes (x.rdV (v + BitVec.ofNat 5 i)))).take (64 * un + 32)
  Vector.ofFn (fun i => vecOfBytes ((bytes.drop (64 * i.val)).take 64))

/-- A message built and put into the sending core's port: SEQ, COLOUR and the counts of a timed message (06 R142; 07
R188). -/
def State.post (s : State) (core : Nat) (agent : Nat) (vrt dw2 : Word) (infm : Bool) (pay : Vector VWord 4) (view : List Nat) :
    State × Msg :=
  let c := s.core core
  let timed := bitsOf dw2.toNat 20 3 == 4
  let w := setField (setField dw2 46 1 (if infm then 1 else 0)) 47 1 (if c.colour && timed then 1 else 0)
  let m : Msg := ⟨vrt, BitVec.ofNat 64 (core % 2 ^ 20 * 2 ^ 32 + c.seq.toNat), w, BitVec.ofNat 64 c.ctx, pay, view, agent⟩
  let c := { c with seq := c.seq + 1, port := c.port ++ [m] }
  let c := if timed then c.countSent m else c
  let s := s.setCore core c
  let s := s.modCtx c.ctx (fun x => { x with counts := x.counts.set 7 (x.counts.get 7 + 1) })
  (s.dueOne .outboundDepart [core], m)

/-- Dword 2 of a message from an operand, with UNITS filled (11 R296). -/
def headerOf (g : Word) (un : Nat) : Word := setField (g &&& 0x7FFFFFFFFFF) 43 2 un

/-- `send` (11 R296): DQ 4 to 7 rejected; deferred in a speculative activation; held while the port is full. -/
def execSend (a v : BitVec 5) (un : BitVec 2) (s : State) : Out :=
  if 31 < v.toNat + un.toNat then .refused (.illFormed "SEND")
  else
    let g := s.rdG a
    let w := headerOf g un.toNat
    if 3 < bitsOf g.toNat 20 3 then s.trapOut .illegal g (BitVec.ofNat 64 a.toNat)
    else
      match s.me.spec, s.me.actKey with
      | true, some k =>
        .next (joinEx (s.defer k 0 (.send (setField w 46 1 (if s.me.infm then 1 else 0)) (payloadOf s.me v un.toNat))))
      | _, _ =>
        if Config.portDepth ≤ s.myCore.port.length then .next s.stall
        else .next (s.post s.cur.core s.myAgent 0 w s.me.infm (payloadOf s.me v un.toNat) (s.view s.myAgent)).1

/-- `sendt` (11 R296; 07 R173; 06 R154): a message of a speculative activation is noted for its anti-message. -/
def execSendt (a v : BitVec 5) (un : BitVec 2) (t : BitVec 5) (s : State) : Out :=
  if 31 < v.toNat + un.toNat then .refused (.illFormed "SENDT")
  else
    let g := s.rdG a
    let w := headerOf g un.toNat
    let g1 := (s.rdG 1).toNat
    let top := 2 ^ 64 - 2
    if bitsOf g.toNat 20 3 ≠ 4 || bitsOf g.toNat 23 10 = 1023 then s.trapOut .illegal g (BitVec.ofNat 64 a.toNat)
    else if bitsOf g.toNat 33 10 ≠ 0 then s.trapOut .ctrtimed g 0
    else if s.me.timed && decide (top ≤ g1) then s.trapOut .illegal (s.rdG 1) 0
    else if Config.portDepth ≤ s.myCore.port.length then .next s.stall
    else
      let vrt := if s.me.timed then min (max (s.rdG t).toNat (g1 + 1)) top else min (s.rdG t).toNat top
      let (s', m) := s.post s.cur.core s.myAgent (BitVec.ofNat 64 vrt) w s.me.infm (payloadOf s.me v un.toNat)
        (s.view s.myAgent)
      match s.me.spec, s.me.actKey with
      | true, some k => .next (s'.modAct s.cur.core k (fun x => { x with sent := x.sent ++ [m] }))
      | _, _ => .next s'

/-- `ctrarm` (11 R297). -/
def execCtrarm (a n g : BitVec 5) (s : State) : Out :=
  let x := (s.rdG a).toNat
  let k := (s.rdG n).toNat
  let q := bitsOf x 12 3
  if s.me.timed then s.trapOut .ctrtimed 0 0
  else if 4 < q || bitsOf x 15 10 = 1023 then s.trapOut .illegal (s.rdG a) (BitVec.ofNat 64 a.toNat)
  else if k = 0 || 2 ^ 31 ≤ k then s.trapOut .illegal (s.rdG n) (BitVec.ofNat 64 n.toNat)
  else if q = 4 then s.trapOut .ctrtimed (s.rdG a) 0
  else .next (s.counterArm (clusterOf s.cur.core) (bitsOf x 0 9) k (bitsOf x 9 3) q (bitsOf x 15 10) (s.rdG g)
    (s.view s.myAgent))

/-! Activation control (11 R298). -/

/-- Whether the accesses of the running slot, and of the members of its gang, have returned or reached `core`; always where
each performs at once (05 R128). -/
def State.accessesDone (s : State) : Bool :=
  s.memberCores.all (fun c => (s.slotAt c s.cur.slot).ops.isEmpty &&
    s.writes.entries.all (fun w => !(w.2.agent == slotAgent c s.cur.slot && w.2.reach == .own)))

/-- The running activation ended by `done` or `gexit`: a gang leader disbands its gang, and what its followers' slots have in
view joins their cores' retire views (05 R128). -/
def State.finish (s : State) : State :=
  let s := s.memberCores.foldl (fun (s : State) c => if c = s.cur.core then s else
    s.modCore c (fun k => { k with retire := joinNat k.retire (s.view (slotAgent c s.cur.slot)) })) s
  let s := s.disbandMine
  let pc := s.me.pc
  (s.trace 4 s.cur.core s.cur.slot 0 pc).endActivation s.cur.core s.cur.slot

/-- `done` (11 R298; 05 R128). -/
def execDone (s : State) : Out :=
  if s.me.tl = 2 then s.trapOut .illegal 0 0
  else if !s.accessesDone then .next (s.park .order)
  else .next s.finish

/-- `yield` (06 R148): passed over until every other READY slot has issued or left READY. -/
def execYield (s : State) : Out :=
  let others := (List.range 4).filter (fun i => i != s.cur.slot && decide ((s.slotAt s.cur.core i).st = .ready))
  .next (s.modMe (fun x => { x with yielded := others }))

/-- The count of a queue in `qstat`, saturating at 255 (11 R298). -/
def Core.qcount (c : Core) (q : Nat) : Nat := min 255 ((c.queue q).filter (fun e => !e.taken)).length

/-- The result of `qstat` (11 R298). -/
def Core.qstat (c : Core) : Word :=
  BitVec.ofNat 64 (min 255 (c.spillRoom - c.spilled) * 2 ^ 40 + c.qcount 4 * 2 ^ 32 + c.qcount 3 * 2 ^ 24 +
    c.qcount 2 * 2 ^ 16 + c.qcount 1 * 2 ^ 8 + c.qcount 0)

/-- `qstat` (11 R298). -/
def execQstat (d : BitVec 5) (s : State) : Out := .next (s.wrG d s.myCore.qstat)

/-- `abort` (07 R192). -/
def execAbort (m : BitVec 1) (s : State) : Out :=
  match s.me.spec, s.me.actKey with
  | true, some k => .next (s.rollback s.cur.core k (if m = 1 then .free else .untilGvt) (m == 1))
  | _, _ => s.trapOut .illegal 0 0

/-- `gvtrd` (11 R298). -/
def execGvtrd (d : BitVec 5) (s : State) : Out :=
  .next (s.wrG d (match s.timelineOf s.cur.core with
    | some t => vrtWord (s.gvtAt (clusterOf s.cur.core) t)
    | none => BitVec.allOnes 64))

/-- `lvtrd` (11 R298; 07 R174): the VRT of the core's floor. -/
def execLvtrd (d : BitVec 5) (s : State) : Out := .next (s.wrG d (vrtWord s.myCore.floor))

end Sys2Proof.Machine
end

