-- ==== Sys2Proof/Machine/Capability.lean ====
section
/-! DEFINITION. The capability instructions other than `ldc` and `stc` (01 R29 to R31; 11 R284, R285). -/

namespace Sys2Proof.Machine

/-- A cursor outside [0, 2^57), or new bounds outside the old ones (01 R29; 11 R284). -/
def Cap.boundsBad (c : Cap) (l : Nat) : Bool :=
  decide (c.cursor < 0) || decide ((2 ^ 57 : Nat) ≤ c.cursor) || decide (c.cursor < c.base) ||
    decide ((c.base + c.len : Nat) < c.cursor + roundedLen l)

/-- `cmov` (11 R284). -/
def execCmov (cd cs : BitVec 4) (s : State) : Out := .next (s.wrC cd (s.rdC cs))

/-- `cadd` (11 R284): the register's value is an unsigned number, the immediate a signed one (log 16). -/
def execCadd (cd cs : BitVec 4) (g : BitVec 5) (imm : BitVec 7) (s : State) : Out :=
  .next (s.wrC cd ((s.rdC cs).addOff ((s.rdG g).toNat + imm.toInt)))

/-- `cbnd` (01 R30; 11 R284). -/
def execCbnd (cd cs : BitVec 4) (g : BitVec 5) (imm : BitVec 7) (s : State) : Out :=
  let c := s.rdC cs
  let l := (s.rdG g).toNat + imm.toNat
  if !c.tag then s.trapOut .tag (BitVec.ofNat 64 cs.toNat) 0
  else if l = 0 then s.trapOut .bounds (wordOfInt c.cursor) 0
  else if c.boundsBad l then s.trapOut .bounds (wordOfInt c.cursor) (BitVec.ofNat 64 (roundedLen l))
  else .next (s.wrC cd (Cap.make true c.space (lenFields l).1 (lenFields l).2 0 c.perm.toNat c.cursor.toNat))

/-- `cprm` (11 R284). -/
def execCprm (cd cs : BitVec 4) (imm : BitVec 7) (s : State) : Out :=
  let c := s.rdC cs
  if !c.tag then s.trapOut .tag (BitVec.ofNat 64 cs.toNat) 0
  else .next (s.wrC cd (Cap.make true c.space c.le c.lm c.off (c.perm &&& imm).toNat c.base))

/-- `cspc` (01 R31; 11 R285). -/
def execCspc (d cs : BitVec 4) (spc : BitVec 3) (s : State) : Out :=
  let c := s.rdC cs
  if 5 < spc.toNat then .refused (.illFormed "CSPC")
  else if !c.tag then s.trapOut .tag (BitVec.ofNat 64 cs.toNat) 0
  else .next (s.wrC d (c.setSpace spc.toNat s.cur.core))

/-- `cget` (11 R285). -/
def execCget (d : BitVec 5) (cs : BitVec 4) (fieldNo : BitVec 4) (s : State) : Out :=
  match (s.rdC cs).field fieldNo.toNat with
  | some y => .next (s.wrG d y)
  | none => .refused (.illFormed "CGET")

/-- `ctag` (11 R285). -/
def execCtag (d cs : BitVec 4) (s : State) : Out := .next (s.wrC d (s.rdC cs).untag)

end Sys2Proof.Machine
end

