-- ==== Sys2Proof/Machine/Cellar.lean ====
section
/-! DEFINITION. The mapping engine (02 R32 to R65, R400): the Cellar's tree, the checks of a request, reservations, the cuts
and shootdowns, and the completions. -/

namespace Sys2Proof.Machine

/-! Request units (02 R39; 11 R291). -/

/-- A field of a request unit. -/
def uf (u : Vector Word 5) (dw lo n : Nat) : Nat := bitsOf (u.get (Fin.ofNat 5 dw)).toNat lo n

/-- The result codes (02 R42). -/
inductive Code where
  | done | notheld | nowindow | depth | keyconflict | frozen | revoked | overlap | noauth | cellarfull
  deriving DecidableEq, Repr

/-- The number of a result code (02 R42). -/
def Code.num : Code → Nat
  | .done => 0
  | .notheld => 1
  | .nowindow => 2
  | .depth => 3
  | .keyconflict => 4
  | .frozen => 5
  | .revoked => 6
  | .overlap => 7
  | .noauth => 8
  | .cellarfull => 9

/-- The result word (02 R42). -/
def resultWord (c : Code) (count : Nat) : Word := BitVec.ofNat 64 (count % 2 ^ 32 * 256 + c.num)

/-! The tree (02 R36, R37). -/

/-- Nodes in the order of a child list: by FRAME, then by NODEID. -/
def insertKid (e : Nat × Node) : List (Nat × Node) → List (Nat × Node)
  | [] => [e]
  | d :: t => if e.2.frame < d.2.frame || (e.2.frame == d.2.frame && decide (e.1 < d.1)) then e :: d :: t else d :: insertKid e t

/-- The children of a node, in the order of its list. -/
def kids (cellar : KMap Node) (id : Nat) : List (Nat × Node) :=
  (cellar.entries.filter (fun e => e.2.parent == some id)).foldr insertKid []

/-- The lowest number from n up that no entry of a sorted list has. -/
def lowestFree : List (Nat × Node) → Nat → Nat
  | [], n => n
  | (k, _) :: t, n => if k = n then lowestFree t (n + 1) else lowestFree t n

/-- The lowest free NODEID (02 R48). -/
def freeNode (cellar : KMap Node) : Nat := lowestFree cellar.entries 0

/-- The free nodes of a Cellar (02 R65). -/
def freeNodes (cellar : KMap Node) : Nat := Config.cellarNodes - cellar.entries.length

/-- The five dwords of a node's image that hold fields (02 R36). -/
def nodeDwords (cellar : KMap Node) (id : Nat) : List Nat :=
  match cellar.get? id with
  | none => [0, 0, 0, 0, 0]
  | some x =>
    let none_ := 0xFFFFFFFF
    let next := match x.parent with
      | none => none_
      | some p => (((kids cellar p).dropWhile (fun e => e.1 != id)).drop 1 |>.map (fun e => e.1)).headD none_
    [(x.sp % 2) * 2 ^ 59 + (if x.frozen then 2 ^ 58 else 0) + (if x.granted then 2 ^ 57 else 0) +
       (if x.revoked then 2 ^ 56 else 0) + x.depth * 2 ^ 52 + x.ctx * 2 ^ 32 + id,
     x.vpn,
     x.pkey * 2 ^ 59 + x.keyid * 2 ^ 47 + x.perm.toNat * 2 ^ 40 + x.frame,
     ((kids cellar id).map (fun e => e.1)).headD none_ * 2 ^ 32 + x.parent.getD none_,
     x.npages * 2 ^ 32 + next]

/-- The 64-byte image of a node as a vector register receives it (11 R292). -/
def nodeImage (cellar : KMap Node) (id : Nat) : VWord :=
  vecOfBytes ((nodeDwords cellar id).flatMap (fun d => leBytes 8 d))

/-- The nodes of a context in a space that meet a range of pages, in VPN order, on one package. -/
def insertVpn (e : Nat × Node) : List (Nat × Node) → List (Nat × Node)
  | [] => [e]
  | d :: t => if e.2.vpn < d.2.vpn then e :: d :: t else d :: insertVpn e t

/-- The nodes of a context in a space that meet pages [lo, hi), cut or not, in VPN order. -/
def meeting (cellar : KMap Node) (ctx sp lo hi : Nat) : List (Nat × Node) :=
  (cellar.entries.filter (fun e => e.2.ctx == ctx && e.2.sp == sp && decide (e.2.vpn < hi) && decide (lo < e.2.vpn + e.2.npages))).foldr insertVpn []

/-- The nodes among them that are held (02 R32). -/
def held (cellar : KMap Node) (ctx sp lo hi : Nat) : List (Nat × Node) :=
  (meeting cellar ctx sp lo hi).filter (fun e => !cutBelow cellar 17 e.1)

/-- The node that covers a page, and the page after the last that it stands for: a held one; else one that is cut, as far as
no page is held, here or by the pages given of other packages (02 R32, R40, R43). -/
def coverOf (cellar : KMap Node) (ctx sp vpn hi : Nat) (others : List (Nat × Nat)) : Option ((Nat × Node) × Nat) :=
  match held cellar ctx sp vpn (vpn + 1) with
  | e :: _ => some (e, e.2.vpn + e.2.npages)
  | [] =>
    if others.any (fun r => decide (r.1 ≤ vpn) && decide (vpn < r.2)) then none
    else
      (meeting cellar ctx sp vpn (vpn + 1)).head?.map (fun e =>
        (e, ((held cellar ctx sp vpn hi).map (fun d => d.2.vpn) ++ others.map (fun r => r.1)).foldl
          (fun m p => if vpn < p then min m p else m) (e.2.vpn + e.2.npages)))

/-- The source nodes that cover pages [lo, hi), or the first page not covered by one of this Cellar (02 R40, R48); a node that
is cut is named by the pages it stands for. -/
def sourcesFrom (cellar : KMap Node) (ctx sp hi : Nat) (others : List (Nat × Nat)) : Nat → Nat → Except Nat (List (Nat × Node))
  | 0, lo => if lo < hi then .error lo else .ok []
  | n + 1, lo =>
    if hi ≤ lo then .ok []
    else
      match coverOf cellar ctx sp lo hi others with
      | none => .error lo
      | some (e, up) =>
        let e := if cutBelow cellar 17 e.1 then
          (e.1, { e.2 with vpn := lo, frame := e.2.frame + (lo - e.2.vpn), npages := up - lo }) else e
        match sourcesFrom cellar ctx sp hi others n up with
        | .error p => .error p
        | .ok l => .ok (e :: l)

/-- The pages of [lo, hi) that a context holds by frames of other packages, as runs (02 R40). -/
def State.heldElsewhere (s : State) (pkg ctx sp lo hi : Nat) : List (Nat × Nat) :=
  (s.pkgs.entries.filter (fun e => e.1 != pkg)).flatMap (fun e =>
    (held e.2.cellar ctx sp lo hi).map (fun d => (d.2.vpn, d.2.vpn + d.2.npages)))

/-- The source nodes of a `map` or `grant` at an engine, or the first page that none covers (02 R40, R48). -/
def State.sources (s : State) (pkg : Nat) (u : Vector Word 5) : Except Nat (List (Nat × Node)) :=
  let (ctx, sp, lo) := (uf u 0 32 20, uf u 0 5 1, uf u 1 0 45)
  let hi := lo + uf u 3 0 32
  let cellar := (s.pkg pkg).cellar
  let others := s.heldElsewhere pkg ctx sp lo hi
  sourcesFrom cellar ctx sp hi others (2 * (cellar.entries.length + others.length) + 2) lo

/-! The checks of the source engine (02 R43, R48, R51, R53). -/

/-- The first source node that fails a test, as the index of its first page in the request. -/
def firstBad (svpn : Nat) (l : List (Nat × Node)) (bad : Nat × Node → Bool) : Option Nat :=
  (l.find? bad).map (fun e => max svpn e.2.vpn - svpn)

/-- The lesser of two indices. -/
def minIdx (a b : Option Nat) : Option Nat :=
  match a, b with
  | none, y => y
  | x, none => x
  | some x, some y => some (min x y)

/-- The KEYID check of one source node (02 R51): the index of the first page concerned. A child that is cut and has not yet
left the Cellar is not a live one (log 58). -/
def keyBad (cellar : KMap Node) (svpn hi keyid : Nat) (e : Nat × Node) : Option Nat :=
  let lo := max svpn e.2.vpn
  let up := min hi (e.2.vpn + e.2.npages)
  if e.2.parent.isSome then (if keyid = 0 ∨ keyid = e.2.keyid then none else some (lo - svpn))
  else if isHostFrame e.2.frame then (if keyid = 0 then none else some (lo - svpn))
  else
    let fa := e.2.frame + (lo - e.2.vpn)
    let fb := e.2.frame + (up - e.2.vpn)
    ((kids cellar e.1).filter (fun c => !c.2.revoked && c.2.keyid != keyid && decide (c.2.frame < fb) &&
      decide (fa < c.2.frame + c.2.npages))).foldl (fun m c => minIdx m (some (max c.2.frame fa - fa + (lo - svpn)))) none

/-- Steps 1 to 6 of 02 R43 for a `map` or `grant`: the source nodes, or the refusal. -/
def State.sourceChecks (s : State) (pkg : Nat) (u : Vector Word 5) (grant : Bool) : Except (Code × Nat) (List (Nat × Node)) :=
  let cellar := (s.pkg pkg).cellar
  let sctx := uf u 0 32 20
  let svpn := uf u 1 0 45
  let hi := svpn + uf u 3 0 32
  let want := BitVec.ofNat 7 (uf u 4 0 7)
  let keyid := if grant then 0 else uf u 4 7 12
  match s.sources pkg u with
  | .error p => .error (.notheld, p - svpn)
  | .ok l =>
    let lacks (e : Nat × Node) : Bool :=
      let p := effPerm cellar 17 e.1
      (grant && sctx == 0) || !p.getLsbD 6 || want &&& ~~~ p != 0
    match firstBad svpn l (fun e => cutBelow cellar 17 e.1), firstBad svpn l (fun e => e.2.frozen), firstBad svpn l lacks,
      firstBad svpn l (fun e => e.2.depth == 15),
      l.foldl (fun m e => match m with
        | some i => some i
        | none => keyBad cellar svpn hi keyid e) none with
    | some i, _, _, _, _ => .error (.revoked, i)
    | none, some i, _, _, _ => .error (.frozen, i)
    | none, none, some i, _, _ => .error (.noauth, i)
    | none, none, none, some i, _ => .error (.depth, i)
    | none, none, none, none, some i => .error (.keyconflict, i)
    | none, none, none, none, none => .ok l

/-! Completion (02 R42, R64). -/

/-- A grid of a context. -/
def State.grid (s : State) (ctx id : Nat) : Option Grid := (s.ctx ctx).grids.get? id

/-- The state with a grid replaced. -/
def State.setGrid (s : State) (ctx id : Nat) (g : Grid) : State := s.modCtx ctx (fun c => { c with grids := c.grids.set id g })

/-- The state with a grid changed. -/
def State.modGrid (s : State) (ctx id : Nat) (f : Grid → Grid) : State :=
  match s.grid ctx id with
  | some g => s.setGrid ctx id (f g)
  | none => s

/-- What the completion of a job of a table is to its block and its grid: one job fewer to wait for (06 R159, R165). -/
def State.jobEnded (s : State) (ctx core : Nat) (c : Core) (id : BitVec 16) (view : List Nat) : State :=
  match (c.jobOf id).bind (fun j => j.block) with
  | some (_, g) => (s.modGrid ctx g (fun x => { x with view := joinNat x.view view })).due
      [⟨.blockRetire, [clusterOf core]⟩, ⟨.gridComplete, [ctx, g]⟩]
  | none => s

/-- A job of a context completed wherever its table stands: on its core, in the Loft image of a saved context, or nowhere
for a context in RESET (02 R64). -/
def State.completeCtxJob (s : State) (ctx core : Nat) (id : BitVec 16) (res : Word) (faulted hold : Bool) (view : List Nat) :
    State :=
  let c := s.core core
  if c.ctx = ctx then
    let s := (s.completeJob core id res faulted hold view).jobEnded ctx core c id view
    s.due ((List.range 4).filterMap (fun i =>
      if (s.slotAt core i).st.why = some (.mapResult id) then some ⟨.mapResult, [core, i]⟩ else none))
  else if (s.ctx ctx).st = .saved then
    let t := s.modCtx ctx (fun x => { x with image := { x.image with
      cores := x.image.cores.modify core Core.reset (fun c => c.completeJob id res faulted hold view) } })
    (t.writeJobEntry ctx core id view).jobEnded ctx core ((s.ctx ctx).image.cores.getD core Core.reset) id view
  else s

/-- The control mailbox completed: BUSY clear, RESULT a code (15 R379). -/
def State.mailboxDone (s : State) (pkg result : Nat) : State :=
  s.modPkg pkg (fun p => { p with mailbox := { p.mailbox with busy := false, result := result } })

/-- A mailbox argument written (15 R379). -/
def State.setArg (s : State) (pkg i : Nat) (x : Word) : State :=
  let j := Fin.ofNat 8 i
  s.modPkg pkg (fun p => { p with mailbox := { p.mailbox with arg := p.mailbox.arg.set j.val x j.isLt } })

/-- The result word of a request delivered by an engine to where it came from, with the engine's view (02 R42, R64, R400). -/
def State.answer (s : State) (pkg : Nat) (u : Vector Word 5) (o : Origin) (res : Word) : State :=
  match o with
  | .job core id => s.completeCtxJob (uf u 0 32 20) core id res false false (s.view (mapAgent pkg))
  | .mailbox pkg => (s.setArg pkg 7 res).mailboxDone pkg 0
  | .retire ctx => s.dueOne .contextFree [ctx]

/-- The engine of a package changed. -/
def State.modEng (s : State) (p : Nat) (f : MapEngine → MapEngine) : State := s.modPkg p (fun k => { k with eng := f k.eng })

/-- The engine of a package. -/
def State.eng (s : State) (p : Nat) : MapEngine := (s.pkg p).eng

/-- The Cellar of a package replaced. -/
def State.setCellar (s : State) (p : Nat) (c : KMap Node) : State := s.modPkg p (fun k => { k with cellar := c })

/-- The step that serves a request. -/
def EngReq.step : EngReq → Instr
  | .space u _ => (match uf u 0 0 4 with
    | 1 => .mapRequest
    | 2 => .grantRequest
    | _ => .unmapRequest)
  | .window _ _ => .windowUpdate
  | .query _ _ _ _ _ _ _ _ _ => .mqQuery
  | .reserve _ _ => .reservation

/-- The request in execution at engine p waits for engine q, or for one whose own waits for it in turn. -/
def State.waitsFor (s : State) : Nat → Nat → Nat → Bool
  | 0, _, _ => false
  | n + 1, p, q =>
    match (s.eng p).busy with
    | .waiting _ _ d => d == q || State.waitsFor s n d q
    | .idle => false
    | .answered _ _ _ _ _ => false

/-- A request that an engine serves before its request in execution ends: the reservation without which that one would wait for
ever (02 R41, R46; log 61). -/
def State.passes (s : State) (pkg : Nat) : EngReq → Bool
  | .space _ _ => false
  | .window _ _ => false
  | .query _ _ _ _ _ _ _ _ _ => false
  | .reserve src _ => s.waitsFor (s.pkgs.entries.length + 1) pkg src

/-- The request whose turn it is in an engine's order (02 R41): the first; while that one waits for another engine, the first behind
it that must pass. -/
def State.turn (s : State) (pkg : Nat) : Option EngReq :=
  match (s.eng pkg).busy with
  | .idle => (s.eng pkg).queue.head?
  | .waiting _ _ _ => (s.eng pkg).queue.tail.find? (s.passes pkg)
  | .answered _ _ _ _ _ => none

/-- The step of the request whose turn it is at an engine made due. -/
def State.callEngine (s : State) (pkg : Nat) : State :=
  match s.turn pkg with
  | none => s
  | some r => s.dueOne r.step [pkg]

/-- The steps whose turn it is at the engines made due, once the request of one waits for another. -/
def State.callEngines (s : State) : State :=
  (s.pkgs.entries.map (fun e => e.1)).foldl (fun (s : State) p => match (s.eng p).busy with
    | .waiting _ _ _ => s.callEngine p
    | .idle => s
    | .answered _ _ _ _ _ => s) s

/-- A request arrives at an engine, at the end of its order (02 R41). -/
def State.request (s : State) (pkg : Nat) (r : EngReq) : State :=
  let idle := (s.turn pkg).isNone
  let s := s.modEng pkg (fun e => { e with queue := e.queue ++ [r] })
  if idle then s.callEngine pkg else s

/-- The request whose turn it was is done with, and the next request's step is made due. -/
def State.served (s : State) (pkg : Nat) : State :=
  let p := s.passes pkg
  (s.modEng pkg (fun e => match e.busy with
    | .idle => { e with queue := e.queue.tail }
    | _ => { e with queue := e.queue.take 1 ++ e.queue.tail.eraseP p })).callEngine pkg

/-- The head of an engine's order is done with, and the next request's step is made due. -/
def State.popRequest (s : State) (pkg : Nat) : State :=
  (s.modEng pkg (fun e => { e with queue := e.queue.tail, busy := .idle })).callEngine pkg

/-- A request refused: its head popped and its result delivered. -/
def State.refuse (s : State) (pkg : Nat) (u : Vector Word 5) (o : Origin) (c : Code) (n : Nat) : State :=
  (s.popRequest pkg).answer pkg u o (resultWord c n)

/-- The package of the engine that a request goes to: that of the first page's frame, else the issuer's own (02 R40; 11
R290; log 17). -/
def State.homeOf (s : State) (ctx sp vpn own : Nat) : Nat :=
  match s.covering ctx (if sp = 1 then 3 else 0) vpn with
  | some (p, _, _) => p
  | none =>
    ((s.pkgs.entries.find? (fun e => !(meeting e.2.cellar ctx sp vpn (vpn + 1)).isEmpty)).map (fun e => e.1)).getD own

/-! Map and grant (02 R46 to R55). -/

/-- A reservation asked of the destination's home engine (02 R46): a message to another engine, which takes its place in that
engine's order; at the source engine itself it stands at the request's own point (R41). -/
def State.askReservation (s : State) (pkg dest : Nat) (u : Vector Word 5) : State :=
  if dest = pkg then
    (s.modEng pkg (fun e => { e with queue := e.queue.take 1 ++ .reserve pkg u :: e.queue.tail })).callEngine pkg
  else (s.request dest (.reserve pkg u)).callEngines

/-- The source engine's checks of the request at the head of its order, then its reservation asked for. -/
def State.sourceRequest (s : State) (pkg : Nat) (grant : Bool) : Out :=
  match (s.eng pkg).queue, (s.eng pkg).busy with
  | .space u o :: _, .idle =>
    if uf u 0 0 4 ≠ (if grant then 2 else 1) then .next s
    else
      match s.sourceChecks pkg u grant with
      | .error (c, i) => .next (s.refuse pkg u o c i)
      | .ok _ =>
        let dest := (s.ctx (uf u 3 32 20)).home
        .next ((s.modEng pkg (fun e => { e with busy := .waiting u o dest })).askReservation pkg dest u)
  | _, _ => .next s

/-- A `map` at the source engine (02 R48). Arguments: package. -/
def execMapRequest (s : State) : Out := s.sourceRequest (s.arg 0) false

/-- A `grant` at the source engine (02 R53). Arguments: package. -/
def execGrantRequest (s : State) : Out := s.sourceRequest (s.arg 0) true

/-- The first page of a destination range that its context holds or has reserved (02 R46). -/
def State.firstTaken (s : State) (home ctx sp lo n : Nat) : Option Nat :=
  let taken := s.pkgs.entries.foldl (fun m e =>
    (held e.2.cellar ctx sp lo (lo + n)).foldl
      (fun m d => minIdx m (some (max lo d.2.vpn - lo))) m) none
  ((s.eng home).resv.filter (fun r => r.ctx == ctx && r.space == sp && decide (r.vpn < lo + n) && decide (lo < r.vpn + r.pages))).foldl
    (fun m r => minIdx m (some (max lo r.vpn - lo))) taken

/-- A receive window that admits a request (02 R46). -/
def Window.admits (w : Window) (u : Vector Word 5) : Bool :=
  let lo := uf u 2 0 45
  w.wpages != 0 && w.wsp == uf u 0 6 1 && decide (w.wvpn ≤ lo) && decide (lo + uf u 3 0 32 ≤ w.wvpn + w.wpages) &&
    w.kinds.getLsbD (uf u 0 0 4 - 1) && (w.anysrc || w.wsrc == uf u 0 32 20) &&
    BitVec.ofNat 7 (uf u 4 0 7) &&& ~~~ w.maxperm == 0

/-- A window of a context replaced. -/
def Ctx.setWindow (c : Ctx) (i : Nat) (w : Window) : Ctx :=
  { c with windows := c.windows.set (Fin.ofNat 16 i).val w (Fin.ofNat 16 i).isLt }

/-- The reservation of 02 R46 at the destination's home engine: its refusal, or the state with it recorded. -/
def State.reserve (s : State) (home src : Nat) (u : Vector Word 5) : Except (Code × Nat) State :=
  let ctx := uf u 3 32 20
  let d := s.ctx ctx
  let from_ := uf u 0 32 20
  let firmware := from_ == 0 || from_ == 0xFFFFF
  if d.frozen then .error (.frozen, 0)
  else if ctx = 0 || !(d.st == .saved || d.st == .running) then .error (.nowindow, 0)
  else
    match (if firmware then none else (List.range 16).find? (fun i => (d.windows.get (Fin.ofNat 16 i)).admits u)), firmware with
    | none, false => .error (.nowindow, 0)
    | w, _ =>
      match s.firstTaken home ctx (uf u 0 6 1) (uf u 2 0 45) (uf u 3 0 32) with
      | some i => .error (.overlap, i)
      | none =>
        let once := match w with
          | some i => (d.windows.get (Fin.ofNat 16 i)).once
          | none => false
        let old := match w with
          | some i => if once then some (i, (d.windows.get (Fin.ofNat 16 i)).wpages) else none
          | none => none
        let s := s.modEng home (fun e => { e with resv := e.resv ++ [⟨src, ctx, uf u 0 6 1, uf u 2 0 45, uf u 3 0 32, old⟩] })
        .ok (match old with
          | some (i, _) => s.modCtx ctx (fun c => c.setWindow i { c.windows.get (Fin.ofNat 16 i) with wpages := 0 })
          | none => s)

/-- A reservation made or refused (02 R46). Arguments: package of the destination's home engine. -/
def execReservation (s : State) : Out :=
  let home := s.arg 0
  match s.turn home with
  | some (.reserve src unit) =>
    let s := s.served home
    (match (s.eng src).busy with
     | .waiting u o dest =>
       let (s, code, n) := match s.reserve home src unit with
         | .ok s' => (s', 0, 0)
         | .error (c, i) => (s, c.num, i)
       .next ((s.modEng src (fun e => { e with busy := .answered u o dest code n })).dueOne .reservationAnswer [src])
     | _ => .next s)
  | _ => .next s

/-- The pieces that a grant splits a node into, [lo, hi) being the granted pages (02 R53). -/
def pieces (x : Node) (lo hi : Nat) : List (Nat × Nat) :=
  (if x.vpn < lo then [(x.vpn, lo)] else []) ++ [(lo, hi)] ++ (if hi < x.vpn + x.npages then [(hi, x.vpn + x.npages)] else [])

/-- The first boundary of a grant that cuts a child (02 R54), as an index in the request. -/
def grantCuts (cellar : KMap Node) (svpn hi : Nat) (l : List (Nat × Node)) : Option Nat :=
  l.foldl (fun m e => match m with
    | some i => some i
    | none =>
      let lo := max svpn e.2.vpn
      let up := min hi (e.2.vpn + e.2.npages)
      let cut (p : Nat) : Bool := (kids cellar e.1).any (fun c =>
        decide (c.2.frame < e.2.frame + (p - e.2.vpn)) && decide (e.2.frame + (p - e.2.vpn) < c.2.frame + c.2.npages))
      if cut lo then some (lo - svpn) else if cut up then some (up - 1 - svpn) else none) none

/-- The new nodes that a grant takes (02 R53). -/
def grantNeeds (svpn hi : Nat) (l : List (Nat × Node)) : Nat :=
  l.foldl (fun n e => n + (pieces e.2 (max svpn e.2.vpn) (min hi (e.2.vpn + e.2.npages))).length - 1) 0

/-- One child created by a map (02 R48). -/
def mapNode (cellar : KMap Node) (u : Vector Word 5) (frozen : Bool) (e : Nat × Node) : KMap Node :=
  let svpn := uf u 1 0 45
  let lo := max svpn e.2.vpn
  let hi := min (svpn + uf u 3 0 32) (e.2.vpn + e.2.npages)
  cellar.set (freeNode cellar)
    ⟨uf u 0 6 1, frozen, false, false, e.2.depth + 1, uf u 3 32 20, uf u 2 0 45 + (lo - svpn), uf u 4 19 5,
     if e.2.parent.isNone then uf u 4 7 12 else e.2.keyid, BitVec.ofNat 7 (uf u 4 0 7), e.2.frame + (lo - e.2.vpn), hi - lo,
     some e.1⟩

/-- A node split for a grant and its middle piece moved to the receiver (02 R53): the Cellar and the granted piece's id. The node
is taken as the Cellar then holds it: an earlier split may have moved it to another piece. -/
def grantNode (cellar : KMap Node) (u : Vector Word 5) (frozen : Bool) (e : Nat × Node) : KMap Node × Nat :=
  let svpn := uf u 1 0 45
  let x := cellar.getD e.1 e.2
  let lo := max svpn x.vpn
  let hi := min (svpn + uf u 3 0 32) (x.vpn + x.npages)
  let put (acc : KMap Node × List (Nat × Nat × Nat)) (p : Nat × Nat) : KMap Node × List (Nat × Nat × Nat) :=
    let id := if acc.2.isEmpty then e.1 else freeNode acc.1
    let n : Node := { x with vpn := p.1, frame := x.frame + (p.1 - x.vpn), npages := p.2 - p.1 }
    (acc.1.set id n, acc.2 ++ [(id, n.frame, n.npages)])
  let (c, made) := (pieces x lo hi).foldl put (cellar, [])
  let home (f : Nat) : Nat := ((made.find? (fun m => decide (m.2.1 ≤ f) && decide (f < m.2.1 + m.2.2))).map (fun m => m.1)).getD e.1
  let c := (kids cellar e.1).foldl (fun c k => c.set k.1 { k.2 with parent := some (home k.2.frame) }) c
  let g := home (x.frame + (lo - x.vpn))
  (match c.get? g with
   | some n => c.set g { n with ctx := uf u 3 32 20, sp := uf u 0 6 1, vpn := uf u 2 0 45 + (lo - svpn),
                                perm := BitVec.ofNat 7 (uf u 4 0 7), pkey := uf u 4 19 5, granted := true, frozen := frozen }
   | none => c, g)

/-- The descendants of a node, depth first in child-list order, at most a number of levels deep. -/
def descendants (cellar : KMap Node) : Nat → Nat → List (Nat × Node)
  | 0, _ => []
  | n + 1, id => (kids cellar id).flatMap (fun k => k :: descendants cellar n k.1)

/-- The dies on which contexts run (02 R55, R59). -/
def State.diesOf (s : State) (ctxs : List Nat) : List Nat :=
  ctxs.foldl (fun l c => if (s.ctx c).st = .running then joinNat l (s.ctx c).dies else l) []

/-- A shootdown sent (02 R55, R59): its dies' acknowledgements made due, or its completion when there is none. -/
def State.shoot (s : State) (pkg : Nat) (x : Shoot) : State :=
  let x := { x with id := (s.eng pkg).next, dies := s.diesOf (x.ranges.map (fun r => r.1)) }
  let s := s.modEng pkg (fun e => { e with shoots := e.shoots ++ [x], next := e.next + 1 })
  if x.dies.isEmpty then s.dueOne (if x.grant then .grantComplete else .unmapComplete) [pkg]
  else s.due (x.dies.map (fun d => ⟨.shootdownAck, [pkg, d]⟩))

/-- A request that has been performed: the destination's home engine ends its reservation (02 R47). -/
def State.release (s : State) (u : Vector Word 5) : State :=
  let home := (s.ctx (uf u 3 32 20)).home
  (s.modEng home (fun e => { e with releases := e.releases ++ [u] })).dueOne .reservationRelease [home]

/-- The source engine refuses a request whose reservation stands: the destination's engine drops it (02 R46). -/
def State.dropRequest (s : State) (pkg dest : Nat) (u : Vector Word 5) (o : Origin) (c : Code) (i : Nat) : State :=
  let s := s.popRequest pkg
  (s.modEng dest (fun e => { e with drops := e.drops ++ [(u, o, c.num, i)] })).dueOne .reservationDrop [dest]

/-- A reservation of a unit's destination range. -/
def Reservation.isOf (r : Reservation) (u : Vector Word 5) : Bool :=
  r.ctx == uf u 3 32 20 && r.space == uf u 0 6 1 && r.vpn == uf u 2 0 45

/-- The destination's answer at the source engine (02 R48, R53, R54); a reservation that the retirement of its context has
dropped meanwhile is none (R64; log 62). Arguments: package. -/
def execReservationAnswer (s : State) : Out :=
  let pkg := s.arg 0
  match (s.eng pkg).busy with
  | .answered u o dest code n =>
    if code ≠ 0 then .next ((s.popRequest pkg).answer pkg u o (BitVec.ofNat 64 (n % 2 ^ 32 * 256 + code)))
    else if !(s.eng dest).resv.any (fun r => r.isOf u) then .next (s.refuse pkg u o .nowindow 0)
    else
      let cellar := (s.pkg pkg).cellar
      let svpn := uf u 1 0 45
      let hi := svpn + uf u 3 0 32
      let frozen := (s.ctx (uf u 3 32 20)).frozen
      match s.sources pkg u with
      | .error i => .next (s.dropRequest pkg dest u o .notheld (i - svpn))
      | .ok l =>
        if uf u 0 0 4 = 1 then
          if freeNodes cellar < l.length then .next (s.dropRequest pkg dest u o .cellarfull 0)
          else
            let s := s.setCellar pkg (l.foldl (fun c e => mapNode c u frozen e) cellar)
            .next (((s.popRequest pkg).release u).answer pkg u o (resultWord .done l.length))
        else
          match grantCuts cellar svpn hi l with
          | some i => .next (s.dropRequest pkg dest u o .overlap i)
          | none =>
            let need := grantNeeds svpn hi l
            if freeNodes cellar < need then .next (s.dropRequest pkg dest u o .cellarfull 0)
            else
              let want := BitVec.ofNat 7 (uf u 4 0 7)
              let frames := l.map (fun e => (e.2.frame + (max svpn e.2.vpn - e.2.vpn),
                min hi (e.2.vpn + e.2.npages) - max svpn e.2.vpn))
              let (c, ranges) := l.foldl (fun (acc : KMap Node × List (Nat × Nat × Nat × Nat)) e =>
                let lo := max svpn e.2.vpn
                let up := min hi (e.2.vpn + e.2.npages)
                let (c, g) := grantNode acc.1 u frozen e
                let narrow := if e.2.perm &&& ~~~ want != 0
                  then (descendants c 16 g).map (fun k => (k.2.ctx, k.2.sp, k.2.vpn, k.2.npages)) else []
                (c, acc.2 ++ [(uf u 0 32 20, uf u 0 5 1, lo, up - lo)] ++ narrow)) (cellar, [])
              let s := (s.setCellar pkg c).popRequest pkg
              .next (s.shoot pkg ⟨0, true, [], ranges, [], [], need, o, u, frames⟩)
  | _ => .next s

/-- A reservation dropped, its ONCE window reopened, and the request refused (02 R46). A window that an `rwin` has rewritten
since gets the WPAGES of the reservation too (log 59). Arguments: package. -/
def execReservationDrop (s : State) : Out :=
  let home := s.arg 0
  match (s.eng home).drops with
  | [] => .next s
  | (u, o, code, n) :: t =>
    let mine := (s.eng home).resv.find? (fun r => r.isOf u)
    let s := s.modEng home (fun e => { e with drops := t, resv := e.resv.filter (fun r => !r.isOf u) })
    let s := match mine.bind (fun r => r.window) with
      | some (i, w) => s.modCtx (uf u 3 32 20) (fun c => c.setWindow i { c.windows.get (Fin.ofNat 16 i) with wpages := w })
      | none => s
    .next (s.answer ((mine.map (fun r => r.src)).getD home) u o (BitVec.ofNat 64 (n % 2 ^ 32 * 256 + code)))

/-- A reservation ended by the completion of its request (02 R47). Arguments: package. -/
def execReservationRelease (s : State) : Out :=
  let home := s.arg 0
  match (s.eng home).releases with
  | [] => .next s
  | u :: t => .next (s.modEng home (fun e => { e with releases := t, resv := e.resv.filter (fun r => !r.isOf u) }))

/-! Shootdowns (02 R59, R60; 03 R71, R85). -/

/-- A translation entry within a named range. -/
def TlbEntry.within (e : TlbEntry) (r : Nat × Nat × Nat × Nat) : Bool :=
  e.ctx == r.1 && e.space == r.2.1 && decide (e.vpn < r.2.2.1 + r.2.2.2) && decide (r.2.2.1 < e.vpn + e.pages)

/-- The entries of a list outside every named range. -/
def outside (ranges : List (Nat × Nat × Nat × Nat)) (l : List TlbEntry) : List TlbEntry :=
  l.filter (fun e => !ranges.any (fun r => e.within r))

/-- The entries of a die within named ranges removed, and the monitors on their pages lost (04 R107). -/
def State.invalidate (s : State) (die : Nat) (ranges : List (Nat × Nat × Nat × Nat)) : State :=
  let here (core : Nat) : Bool := dieOf core == die
  let lost (x : Slot) : Bool := x.st.why == some .waita && (match x.monitor with
    | some m => !m.local_ && ranges.any (fun r => m.ctx == r.1 && spBit m.space == r.2.1 && decide (r.2.2.1 ≤ m.vpn) &&
        decide (m.vpn < r.2.2.1 + r.2.2.2))
    | none => false)
  { s with
    cores := s.cores.mapVal (fun i c => if here i then
      { (c.wakeIf lost) with rangeTlb := outside ranges c.rangeTlb, pageTlb := outside ranges c.pageTlb } else c)
    clusters := s.clusters.mapVal (fun i c => if here (i * 8) then { c with tlb2 := outside ranges c.tlb2 } else c) }

/-- Every access of the die's agents of some contexts has performed, and every write of an agent placed there (02 R59): where
each performs at once, always. -/
def State.quiet (s : State) (die : Nat) (ctxs : List Nat) : Bool :=
  s.eager || (s.cores.entries.all (fun e => dieOf e.1 != die || !ctxs.contains e.2.ctx || e.2.slots.toList.all (fun x => x.ops.isEmpty)) &&
    s.writes.entries.all (fun w => w.2.reach == .sys || (agentPlace w.2.agent).die != some die))

/-- The first shootdown that still waits for a die acknowledged by it (02 R59; 03 R71): walks in progress for its contexts
finish first. Arguments: package, die. -/
def execShootdownAck (s : State) : Out :=
  let (pkg, die) := (s.arg 0, s.arg 1)
  match (s.eng pkg).shoots.find? (fun x => x.dies.contains die) with
  | none => .next s
  | some x =>
    let ctxs := x.ranges.map (fun r => r.1)
    if (s.die die).walks.any (fun w => ctxs.contains w.ctx) || !s.quiet die ctxs then .next (s.dueOne .shootdownAck [pkg, die])
    else
      let s := s.invalidate die x.ranges
      let dies := x.dies.filter (fun d => d != die)
      let s := s.modEng pkg (fun e => { e with shoots := e.shoots.map (fun y => if y.id == x.id then { y with dies := dies } else y) })
      .next (if dies.isEmpty then s.dueOne (if x.grant then .grantComplete else .unmapComplete) [pkg] else s)

/-- The writes that have performed in runs of frames joined into an engine's view, which its completion then carries (02 R60,
R61; 03 R83). -/
def State.seen (s : State) (pkg : Nat) (frames : List (Nat × Nat)) : State :=
  s.joinView (mapAgent pkg) (frames.foldl (fun l r =>
    joinNat l (s.metBy (4096 * r.1) (4096 * r.2) (fun _ w => w.reach == .sys))) [])

/-- A shootdown whose acknowledgements are all in, and every earlier unmap it waits for complete (02 R62). -/
def MapEngine.ready (e : MapEngine) (grant : Bool) : Option Shoot :=
  e.shoots.find? (fun x => x.grant == grant && x.dies.isEmpty && !x.after.any (fun i => e.shoots.any (fun y => y.id == i)))

/-- A grant completes (02 R55). Arguments: package. -/
def execGrantComplete (s : State) : Out :=
  let pkg := s.arg 0
  match (s.eng pkg).ready true with
  | none => .next s
  | some x =>
    let s := s.modEng pkg (fun e => { e with shoots := e.shoots.filter (fun y => y.id != x.id) })
    .next (((s.seen pkg x.frames).release x.unit).answer pkg x.unit x.origin (resultWord .done x.count))

/-! Unmap (02 R57 to R62). -/

/-- The subtree roots of an unmap (02 R57). -/
def unmapRoots (cellar : KMap Node) (lo hi : Nat) (self : Bool) (h : List (Nat × Node)) : List (Nat × Node) :=
  h.flatMap (fun e =>
    let fa := e.2.frame + (max lo e.2.vpn - e.2.vpn)
    let fb := e.2.frame + (min hi (e.2.vpn + e.2.npages) - e.2.vpn)
    (if self && e.2.parent.isSome then [e] else []) ++
      (kids cellar e.1).filter (fun c => decide (c.2.frame < fb) && decide (fa < c.2.frame + c.2.npages)))

/-- Subtrees walked depth first: the nodes not yet cut, in order, and the earlier cuts met (02 R59, R62). -/
def cutWalk (cellar : KMap Node) : Nat → List (Nat × Node) → List Nat × List (Nat × Node)
  | 0, _ => ([], [])
  | n + 1, l => l.foldl (fun acc e =>
      if e.2.revoked then (acc.1 ++ [e.1], acc.2)
      else if acc.2.any (fun x => x.1 == e.1) then acc
      else
        let (m, d) := cutWalk cellar n (kids cellar e.1)
        (acc.1 ++ m, acc.2 ++ [e] ++ d)) ([], [])

/-- The cut of an unmap, and its shootdown (02 R58, R59, R62). -/
def State.cut (s : State) (pkg : Nat) (u : Vector Word 5) (o : Origin) (roots : List (Nat × Node)) : State :=
  let cellar := (s.pkg pkg).cellar
  let (met, l) := cutWalk cellar 17 roots
  let l := l.foldl (fun (acc : List (Nat × Node)) e => if acc.any (fun x => x.1 == e.1) then acc else acc ++ [e]) []
  let s := s.setCellar pkg (l.foldl (fun c e => c.set e.1 { e.2 with revoked := true }) cellar)
  let after := ((s.eng pkg).shoots.filter (fun x => !x.grant && x.nodes.any met.contains)).map (fun x => x.id)
  s.shoot pkg ⟨0, false, l.map (fun e => e.1), l.map (fun e => (e.2.ctx, e.2.sp, e.2.vpn, e.2.npages)), [], after, l.length, o, u,
    l.map (fun e => (e.2.frame, e.2.npages))⟩

/-- An `unmap` at its engine (02 R57, R58); the withdrawal of a retiring context is over every node it holds there (R64).
Arguments: package. -/
def execUnmapRequest (s : State) : Out :=
  let pkg := s.arg 0
  match (s.eng pkg).queue, (s.eng pkg).busy with
  | .space u o :: _, .idle =>
    if uf u 0 0 4 ≠ 3 then .next s
    else
      let cellar := (s.pkg pkg).cellar
      let retire := match o with
        | .retire _ => true
        | _ => false
      let lo := if retire then 0 else uf u 1 0 45
      let hi := if retire then 2 ^ 45 else lo + uf u 3 0 32
      let sctx := uf u 0 32 20
      let h := meeting cellar sctx (uf u 0 5 1) lo hi ++ (if retire then meeting cellar sctx (1 - uf u 0 5 1) lo hi else [])
      let others := (s.heldElsewhere pkg sctx (uf u 0 5 1) lo hi).foldl (fun m r => minIdx m (some (max lo r.1 - lo))) none
      match others, retire, firstBad lo h (fun e => cutBelow cellar 17 e.1) with
      | some i, false, _ => .next (s.refuse pkg u o .notheld i)
      | _, false, some i => .next (s.refuse pkg u o .revoked i)
      | _, _, _ =>
        if h.isEmpty then .next (s.refuse pkg u o .notheld 0)
        else .next ((s.popRequest pkg).cut pkg u o (unmapRoots cellar lo hi (uf u 0 4 1 == 1) h))
  | _, _ => .next s

/-- An `unmap` completes (02 R59, R62): its nodes return to the free list. Arguments: package. -/
def execUnmapComplete (s : State) : Out :=
  let pkg := s.arg 0
  match (s.eng pkg).ready false with
  | none => .next s
  | some x =>
    let s := s.modEng pkg (fun e => { e with shoots := e.shoots.filter (fun y => y.id != x.id) })
    let s := s.setCellar pkg ((s.pkg pkg).cellar.filter (fun i _ => !x.nodes.contains i))
    .next (((s.seen pkg x.frames).answer pkg x.unit x.origin (resultWord .done x.count)).dueOne .unmapComplete [pkg])

/-! Windows and queries. -/

/-- A receive window written (11 R291). Arguments: package. -/
def execWindowUpdate (s : State) : Out :=
  let pkg := s.arg 0
  match s.turn pkg with
  | some (.window u o) =>
    let ctx := uf u 0 32 20
    let w : Window := ⟨uf u 1 0 45, uf u 2 0 32, uf u 1 45 1, BitVec.ofNat 7 (uf u 2 32 7), BitVec.ofNat 2 (uf u 2 39 2),
      uf u 2 41 1 == 1, uf u 3 0 20, uf u 2 42 1 == 1⟩
    let s := s.modCtx ctx (fun c => c.setWindow (uf u 0 0 4) w)
    .next ((s.served pkg).answer pkg u o 0)
  | _ => .next s

/-- The SIZE code of a page entry (03 R75). -/
def sizeCode (pages : Nat) : Nat := if pages = 262144 then 3 else if pages = 512 then 2 else if pages = 16 then 1 else 0

/-- The leaf entry of a page (03 R75). -/
def State.leaf (s : State) (ctx space vpn : Nat) : List Byte :=
  match s.covering ctx space vpn with
  | none => leBytes 16 0
  | some (_, id, d) =>
    let (trk, a, w) := match s.tracked ctx space vpn with
      | none => (0, 0, 0)
      | some (addr, j) => let g := leNat (s.mem.read addr 8); (1, bitsOf g (2 * j) 1, bitsOf g (2 * j + 1) 1)
    leBytes 8 (d.keyid * 2 ^ 52 + d.pkey * 2 ^ 47 + d.perm.toNat * 2 ^ 40 + (d.frame + (vpn - d.vpn))) ++
      leBytes 8 (id * 2 ^ 32 + 2 ^ 31 + a * 2 ^ 30 + w * 2 ^ 29 + trk * 2 ^ 28 + sizeCode (s.entrySize ctx space vpn d) * 2 ^ 26)

/-- The engine that a query of a page goes on to from its context's home engine: that of the Cellar that holds the covering
node (11 R292). -/
def State.queryNext (s : State) (pkg mode ctx space vpn : Nat) : Option Nat :=
  if mode < 2 ∧ pkg = (s.ctx ctx).home then ((s.covering ctx space vpn).map (fun r => r.1)).filter (fun p => p != pkg) else none

/-- What a query reads at an engine (11 R292): of a page, what that engine's Cellar holds. -/
def State.queryImage (s : State) (pkg mode nodeid ctx space vpn : Nat) : VWord :=
  match mode with
  | 0 => if (s.covering ctx space vpn).any (fun r => r.1 == pkg) then vecOfBytes (s.leaf ctx space vpn) else 0
  | 1 =>
    (match s.covering ctx space vpn with
     | some (p, id, _) => if p = pkg then nodeImage (s.pkg p).cellar id else 0
     | none => 0)
  | _ =>
    let cellar := (s.pkg pkg).cellar
    match cellar.get? nodeid with
    | none => 0
    | some x =>
      let heldBy (y : Option Node) : Bool := match y with
        | some y => y.ctx == ctx
        | none => false
      if ctx = 0 || heldBy (some x) || heldBy (x.parent.bind cellar.get?) then nodeImage cellar nodeid else 0

/-- A node query that goes on to the engine of the covering node, or is answered: its register written and its slot woken (11
R292). Arguments: package. -/
def execMqQuery (s : State) : Out :=
  let pkg := s.arg 0
  match s.turn pkg with
  | some (.query core slot began dest mode nodeid ctx space vpn) =>
    (match s.queryNext pkg mode ctx space vpn with
     | some p => .next ((s.served pkg).request p (.query core slot began dest mode nodeid ctx space vpn))
     | none =>
       let img := s.queryImage pkg mode nodeid ctx space vpn
       let s := s.served pkg
       let x := s.slotAt core slot
       .next (if x.began = began ∧ x.st.why = some .query then s.setSlotAt core slot (x.wake.wrV dest img) else s))
  | _ => .next s

/-- The result of a request that traps on refusal reaches its slot (02 R44; 11 R290): DONE is acquired. Arguments: core, slot. -/
def execMapResult (s : State) : Out :=
  let (core, slot) := (s.arg 0, s.arg 1)
  let x := s.slotAt core slot
  match x.st.why with
  | some (.mapResult id) =>
    (match (s.core core).jobOf id with
     | none => .next s
     | some j =>
       if j.st = .pending then .next s
       else if j.res.toNat % 256 = 0 then
         .next (((s.joinView (slotAgent core slot) j.view).modCore core (fun c =>
           { c with jobs := c.jobs.set (id.toNat % 256) { j with st := .free } })).setSlotAt core slot x.wake)
       else
         let halted := match x.st with
           | .halted _ => true
           | _ => false
         let s := { s.setSlotAt core slot x.wake with cur := ⟨core, slot⟩ }
         let s := s.raiseAt .maprefused j.res (BitVec.ofNat 64 id.toNat) (x.pc - 8)
         .next (s.modSlotAt core slot (fun y =>
           { y with pc := y.npc, st := if halted ∧ y.st = .ready then .halted .ready else y.st })))
  | _ => .next s

/-! Harvests (03 R83). -/

/-- The pages of a group dword: space, first page (03 R81). -/
def Ctx.groupOf (c : Ctx) (addr : Nat) : Option (Nat × Nat) :=
  (c.tracks.find? (fun t => decide (t.bitmap ≤ addr) && decide (addr < t.bitmap + t.pages / 32 * 8) && (addr - t.bitmap) % 8 == 0)).map
    (fun t => (t.space, t.vpn + (addr - t.bitmap) / 8 * 32))

/-- The cached dirty state of a group's pages removed from every TLB (03 R83 step 2). -/
def State.dropDirty (s : State) (ctx space vpn n : Nat) : State :=
  let clear (e : TlbEntry) : TlbEntry := if e.within (ctx, space, vpn, n) then { e with dirty := false } else e
  { s with cores := s.cores.mapVal (fun _ c => { c with rangeTlb := c.rangeTlb.map clear, pageTlb := c.pageTlb.map clear })
           clusters := s.clusters.mapVal (fun _ c => { c with tlb2 := c.tlb2.map clear }) }

/-- The frames of the pages of a group, as runs of one (03 R81). -/
def State.groupFrames (s : State) (ctx addr : Nat) : List (Nat × Nat) :=
  match (s.ctx ctx).groupOf addr with
  | none => []
  | some (sp, vpn) => (List.range 32).filterMap (fun i =>
      (s.covering ctx sp (vpn + i)).map (fun d => (d.2.2.frame + (vpn + i - d.2.2.vpn), 1)))

/-- The Pantry lines in some frames of the activations of a context: their writes have set D and are still to perform (03 R82,
R83; 07 R181). -/
def State.pantryIn (s : State) (ctx : Nat) (frames : List (Nat × Nat)) : List (Nat × Key × Nat) :=
  s.clusters.values.flatMap (fun k => (k.pantry.filter (fun p =>
    (s.core p.core).ctx == ctx && frames.any (fun f => f.1 == p.line / 64))).map (fun p => (p.core, p.key, p.line)))

/-- A harvest off the list of its engine, its mark cleared (03 R83 step 5). -/
def State.harvestEnded (s : State) (pkg : Nat) (h : Harvest) : State :=
  (s.modEng pkg (fun e => { e with harvests := e.harvests.filter (fun y => !(y.core == h.core && y.id == h.id)) })).modCtx h.ctx
    (fun c => { c with harvesting := c.harvesting.filter (fun a => a != h.addr / 8) })

/-- The first harvest that has not swapped removes the cached state and swaps its dword with zero (03 R83); one whose dword is
uncorrectable ends FAULTED (04 R97). Arguments: package. -/
def execHarvestSwap (s : State) : Out :=
  let pkg := s.arg 0
  match (s.eng pkg).harvests.find? (fun h => h.swapped.isNone) with
  | none => .next s
  | some h =>
    let s := match (s.ctx h.ctx).groupOf h.addr with
      | some (sp, vpn) => s.dropDirty h.ctx (spBit sp) vpn 32
      | none => s
    if s.poison.contains (h.addr / 64) then
      let (c, s) := ((s.harvestEnded pkg h).tellHost (h.addr / 64 * 64)).someCause
      .next (s.completeJob h.core h.id (BitVec.ofNat 64 c) true false (s.view (mapAgent pkg)))
    else
      let old := BitVec.ofNat 64 (leNat (s.mem.read h.addr 8))
      let held := s.pantryIn h.ctx (s.groupFrames h.ctx h.addr)
      let s := s.homeWrite (mapAgent pkg) [] none (fun w => w.reach == .sys) h.addr (leBytes 8 0) none 0
      .next ((s.modEng pkg (fun e => { e with harvests := e.harvests.map (fun y =>
        if y.core == h.core && y.id == h.id then { y with swapped := some old, held := held } else y) })).dueOne .harvestComplete [pkg])

/-- No write of a context is under way: none that its slots have yet to issue, and none that has yet to perform (03 R83). -/
def State.written (s : State) (ctx : Nat) : Bool :=
  s.eager || (s.writes.entries.all (fun w => w.2.reach == .sys) && s.cores.entries.all (fun c => c.2.ctx != ctx ||
    c.2.slots.toList.all (fun x => x.ops.all (fun o => match o.kind with
      | .load => true
      | .store => false
      | .amo _ _ _ => false
      | .fence _ => true))))

/-- Every write that a harvest reports has performed (03 R83 step 4). -/
def State.harvested (s : State) (h : Harvest) : Bool :=
  s.written h.ctx && !(s.pantryIn h.ctx (s.groupFrames h.ctx h.addr)).any h.held.contains

/-- A harvest completes once every write it reports has performed, and carries them (03 R83). Arguments: package. -/
def execHarvestComplete (s : State) : Out :=
  let pkg := s.arg 0
  let l := (s.eng pkg).harvests.filter (fun h => h.swapped.isSome)
  if l.isEmpty then .next s
  else
    match l.find? s.harvested with
    | none => .next (s.dueOne .harvestComplete [pkg])
    | some h =>
      let s := (s.harvestEnded pkg h).seen pkg (s.groupFrames h.ctx h.addr)
      .next (s.completeJob h.core h.id (h.swapped.getD 0) false false (s.view (mapAgent pkg)))

/-- A retiring context returns to FREE when its last withdrawal completes (02 R64). Arguments: context. -/
def execContextFree (s : State) : Out :=
  let ctx := s.arg 0
  let holds := s.pkgs.entries.any (fun e => e.2.cellar.entries.any (fun d => d.2.ctx == ctx))
  if (s.ctx ctx).st = .retiring ∧ ctx ≠ 0 ∧ !holds then
    .next { s with ctxs := s.ctxs.erase ctx, timelines := s.timelines.filter (fun _ c => c != ctx) }
  else .next s

end Sys2Proof.Machine
end

