-- ==== Sys2Proof/Machine/EngineAccess.lean ====
section
/-! DEFINITION. How the engines reach memory (12 R325; 03 R74, R82, R85; 04 R90, R97; 07 R137; 14 R370): address
descriptors, checks, reads and writes. An engine's fault is a cause code; an uncorrectable error has none in the spec, so
its code is a free value (log 21). -/

namespace Sys2Proof.Machine

/-- An engine as it reaches memory: its agent, the context it works for, its cluster, the bytes of one unit of its accesses, and
whether it translates through the cluster's second-level TLB (05 R110, R113; 03 R85). -/
structure Eng where
  agent   : Nat
  ctx     : Nat
  cluster : Nat
  unit    : Nat
  tlb     : Bool := true
  deriving DecidableEq, Repr

/-- The code kept for an uncorrectable read at an address until the job's CAUSE is written. -/
def eccCode (a : Nat) : Nat := 256 + a

/-- The code kept for a host read of a die that an error completion answers (01 R10). -/
def hostCode (die n a : Nat) : Nat := 2 ^ 64 * (1 + die + 1024 * n) + a

/-- The code kept for an access that a page's miss has led to, with the page (03 R70). -/
def missCode (m : Missed) (c : Nat) : Nat :=
  c + 2 ^ 256 * (1 + spBit m.space + 2 * (m.core + 2 ^ 24 * (m.ctx + 2 ^ 20 * m.vpn)))

/-- The page of such a code. -/
def missOf (c : Nat) : Missed :=
  let x := c / 2 ^ 256 - 1
  ⟨x / 2 % 2 ^ 24, false, x / 2 ^ 25 % 2 ^ 20, x % 2 * 3, x / 2 ^ 45⟩

/-- Where an engine's access lands. -/
inductive EPlace where
  | mem (addr keyid : Nat)
  | host (addr : Nat)
  deriving DecidableEq, Repr

/-- The space of a descriptor: its reserved bits and its space checked (12 R325). -/
def descSpace (d : Nat) : Except Nat Nat :=
  let sp := d / 2 ^ 61 % 8
  if (sp = 0 ∨ sp = 3) ∧ bitsOf d 57 4 ≠ 0 then .error Cause.resfield.code
  else if sp = 1 ∧ bitsOf d 19 42 ≠ 0 then .error Cause.resfield.code
  else if sp = 0 ∨ sp = 1 ∨ sp = 3 then .ok sp
  else .error Cause.space.code

/-- The address part of a descriptor. -/
def descAddr (d : Nat) : Nat := if d / 2 ^ 61 % 8 = 1 then d % 65536 else d % 2 ^ 57

/-- A core that runs a context or has been saved from it. -/
def State.runsOn (s : State) (ctx core : Nat) : Bool := (s.core core).ctx == ctx

/-- An engine's access to local memory of a core (12 R325; 04 R90; 07 R137). That of a core already saved stands where it
stood until its context's switch-out completes, and is then the image's (14 R370). -/
def State.engLocal (s : State) (ctx core off n : Nat) (w : Bool) : Except Nat EPlace :=
  let f := (s.core core).force
  if 65536 < off + n then .error Cause.bounds.code
  else if !s.runsOn ctx core || f.closed off n w || f.meets off n then .error Cause.notmapped.code
  else .ok (.mem (localAddr core off) 0)

/-- An access cut where it crosses pages. -/
def pageParts : Nat → Nat → Nat → List (Nat × Nat)
  | 0, _, _ => []
  | k + 1, a, n =>
    if n = 0 then []
    else
      let m := min n (4096 - a % 4096)
      (a, m) :: pageParts k (a + m) (n - m)

/-- The parts of an access of n bytes. -/
def partsOf (a n : Nat) : List (Nat × Nat) := pageParts (n / 4096 + 2) a n

/-- An engine's access to a translated page (03 R74, R77, R85). -/
def State.engPage (s : State) (e : Eng) (space a : Nat) (w : Bool) : Except Nat EPlace :=
  let k : AccKind := if w then .store else .load
  let hit := e.tlb && (s.tlb2Hit e.cluster e.ctx space (a / 4096) w).isSome
  let code (c : Nat) : Nat := if hit then c else missCode ⟨8 * e.cluster, false, e.ctx, space, a / 4096⟩ c
  match (if e.tlb then s.xlatEng e.cluster e.ctx space a k else s.xlatAgent e.ctx space a k) with
  | .ok (.mem p k _) => .ok (.mem p k)
  | .ok (.host p _) => .ok (.host p)
  | .fault c => .error (code c.code)
  | _ => .error (code Cause.notmapped.code)

/-- The places of an engine's access of n bytes at an offset from a descriptor, with their lengths (12 R325). -/
def State.engPlaces (s : State) (e : Eng) (d off n : Nat) (w : Bool) : Except Nat (List (EPlace × Nat)) :=
  match descSpace d with
  | .error c => .error c
  | .ok 1 =>
    (match s.engLocal e.ctx (e.cluster * 8 + bitsOf d 16 3) (d % 65536 + off) n w with
     | .error c => .error c
     | .ok p => .ok [(p, n)])
  | .ok sp =>
    (partsOf (d % 2 ^ 57 + off) n).foldr (fun x acc =>
      match s.engPage e sp x.1 w with
      | .error c => .error c
      | .ok p => (match acc with
        | .error c => .error c
        | .ok l => .ok ((p, x.2) :: l))) (.ok [])

/-- What the translations of an engine's access leave: the pages that missed, and for a write the dirty bits (03 R82, R85). -/
def State.engTouched (s : State) (e : Eng) (d off n : Nat) (w : Bool) : State :=
  let sp := d / 2 ^ 61 % 8
  if sp = 1 then s
  else (partsOf (d % 2 ^ 57 + off) n).foldl (fun (s : State) x =>
    if !e.tlb then
      let s := s.miss ⟨8 * e.cluster, false, e.ctx, sp, x.1 / 4096⟩
      match w, s.tracked e.ctx sp (x.1 / 4096) with
      | true, some (addr, j) => s.trackOr (dieOf (8 * e.cluster)) addr (2 ^ (2 * j + 1))
      | _, _ => s
    else
      let s := s.engWalked e.cluster e.ctx sp (x.1 / 4096) w
      if w then s.engDirty e.cluster e.ctx sp (x.1 / 4096) else s) s

/-- The bytes of one place, as the engine's agent may read them, an acquire at `sys` where it is to be; host bytes and the status
of their completion are the host's (01 R10; 05 R123, R129, R130; log 21). -/
def State.engReadAt (s : State) (e : Eng) (p : EPlace) (n : Nat) (acq : Bool) : Except Nat (List Byte × State) :=
  match p with
  | .mem a k =>
    (match (linesOf a n).find? s.poison.contains with
     | some l => .error (eccCode (64 * l))
     | none =>
       let (bs, ids, s) := s.readAs e.agent e.unit a n k
       let s := if acq then s.joinView e.agent (s.acquired e.agent 7 ids) else s
       .ok (bs, s.countHbm e.ctx a n))
  | .host a =>
    let (st, s) := s.choose 2
    if st = 1 then .error (hostCode (dieOf (e.cluster * 8)) n a)
    else
      let (v, s) := (s.readHost (dieOf (e.cluster * 8)) a n).draw (8 * n)
      .ok (leBytes n v.toNat, s)

/-- The bytes of an engine's read. -/
def State.engRead (s : State) (e : Eng) (d off n : Nat) (acq : Bool := false) : Except Nat (List Byte × State) :=
  match s.engPlaces e d off n false with
  | .error c => .error c
  | .ok ps =>
    ps.foldl (fun acc p => match acc with
      | .error c => .error c
      | .ok (bs, s) => (match s.engReadAt e p.1 p.2 acq with
        | .error c => .error c
        | .ok (cs, s) => .ok (bs ++ cs, s))) (.ok ([], s.engTouched e d off n false))

/-- The bytes of one place written by an engine, relaxed or as releases (05 R129). -/
def State.engWriteAt (s : State) (e : Eng) (rels : List (Nat × List Nat)) (p : EPlace) (bs : List Byte) : State :=
  match p with
  | .mem a k => (s.writeAs e.agent e.unit rels a bs k).countHbm e.ctx a bs.length
  | .host a => s.postHost (dieOf (e.cluster * 8)) a bs

/-- Bytes written by an engine whose places have been checked. -/
def State.engPut (s : State) (e : Eng) (rels : List (Nat × List Nat)) : List (EPlace × Nat) → List Byte → State
  | [], _ => s
  | (p, n) :: t, bs => State.engPut (s.engWriteAt e rels p (bs.take n)) e rels t (bs.drop n)

/-- An engine's write of bytes at an offset from a descriptor, relaxed, or a release that carries views for scopes: checked
whole, then made. -/
def State.engWrite (s : State) (e : Eng) (d off : Nat) (bs : List Byte) (rels : List (Nat × List Nat) := []) : Except Nat State :=
  match s.engPlaces e d off bs.length true with
  | .error c => .error c
  | .ok ps => .ok ((s.engTouched e d off bs.length true).engPut e rels ps bs)

/-- An agent's view replaced as its program starts, where views are kept (05 R129, R132). -/
def State.startView (s : State) (agent : Nat) (view : List Nat) : State :=
  if s.eager then s else { s with views := s.views.set agent view }

/-- The little-endian dwords of bytes. -/
def dwordsOf : Nat → List Byte → List Nat
  | 0, _ => []
  | n + 1, bs => leNat (bs.take 8) :: dwordsOf n (bs.drop 8)

/-- A cause as a job records it, the page that missed noted: for an uncorrectable read, of which the host is told, and for a host
read in error, a free one of the device's (01 R10; 03 R70; 04 R97; 14 R362; log 21). -/
def State.causeOf (s : State) (c : Nat) : Nat × State :=
  if c < 256 then (c, s)
  else if 2 ^ 256 ≤ c then (c % 2 ^ 256, s.miss (missOf c))
  else
    let s := if c < 2 ^ 64 then s.tellHost (c - 256)
      else
        let k := c / 2 ^ 64 - 1
        (s.readHost (k % 1024) (c % 2 ^ 64) (k / 1024)).tellHost (c % 2 ^ 64)
    s.someCause

/-- A LOCAL descriptor of a core (12 R325). -/
def localDesc (core off : Nat) : Nat := 2 ^ 61 + core % 8 * 65536 + off

end Sys2Proof.Machine
end

