-- ==== Sys2Proof/Machine/ScalarFloat.lean ====
section
/-! DEFINITION. The scalar float instructions (10 R243 to R245; 08 R204 to R206): values in general registers, one
rounding, the result zero-extended (R239). -/

namespace Sys2Proof.Machine

/-- The exact value of a scalar float operand; higher bits of the register are ignored (10 R239). -/
def scalarVal (fm : Fmt) (x : Word) : Exact := decodeNum fm false (x.toNat % 2 ^ fm.width)

/-- An exact result rounded once into g(D) under RND, with the draw of `rst` (10 R243; 08 R203, R206). -/
def State.putFloat (s : State) (d : BitVec 5) (fm : Fmt) (rnd : BitVec 3) (x : RMode → Exact) : State :=
  let mode := s.mode rnd
  let (dr, st) := drawIf mode s.srng
  let s' := if mode = .rst then s.setSrng st else s
  s'.wrG d (BitVec.ofNat 64 (toFloat (x mode) fm mode false s.me.infm dr))

/-- A reserved rounding code never comes from the decoder (09 R215). -/
def withRnd (rnd : BitVec 3) (mnemonic : String) (o : Out) : Out :=
  if rndOk rnd then o else .refused (.illFormed mnemonic)

/-- `fadd` (10 R243). -/
def execFadd (d a b : BitVec 5) (rnd : BitVec 3) (ty : BitVec 1) (s : State) : Out :=
  let fm := scalarFmt ty
  withRnd rnd "FADD" (.next (s.putFloat d fm rnd (fun m => addExact m (scalarVal fm (s.rdG a)) (scalarVal fm (s.rdG b)))))

/-- `fsub` (10 R243). -/
def execFsub (d a b : BitVec 5) (rnd : BitVec 3) (ty : BitVec 1) (s : State) : Out :=
  let fm := scalarFmt ty
  withRnd rnd "FSUB"
    (.next (s.putFloat d fm rnd (fun m => addExact m (scalarVal fm (s.rdG a)) (scalarVal fm (s.rdG b)).negate)))

/-- `fmul` (10 R243). -/
def execFmul (d a b : BitVec 5) (rnd : BitVec 3) (ty : BitVec 1) (s : State) : Out :=
  let fm := scalarFmt ty
  withRnd rnd "FMUL" (.next (s.putFloat d fm rnd (fun _ => mulExact (scalarVal fm (s.rdG a)) (scalarVal fm (s.rdG b)))))

/-- `ffma` (10 R243): product and sum rounded once together. -/
def execFfma (d a b c : BitVec 5) (rnd : BitVec 3) (ty : BitVec 1) (s : State) : Out :=
  let fm := scalarFmt ty
  withRnd rnd "FFMA" (.next (s.putFloat d fm rnd
    (fun m => addExact m (mulExact (scalarVal fm (s.rdG a)) (scalarVal fm (s.rdG b))) (scalarVal fm (s.rdG c)))))

/-- The code of a scalar float operand (10 R239). -/
def scalarCode (fm : Fmt) (x : Word) : Nat := x.toNat % 2 ^ fm.width

/-- `fmin` (10 R244). -/
def execFmin (d a b : BitVec 5) (ty : BitVec 1) (s : State) : Out :=
  let fm := scalarFmt ty
  .next (s.wrG d (BitVec.ofNat 64 (minMaxCode fm false (scalarCode fm (s.rdG a)) (scalarCode fm (s.rdG b)))))

/-- `fmax` (10 R244). -/
def execFmax (d a b : BitVec 5) (ty : BitVec 1) (s : State) : Out :=
  let fm := scalarFmt ty
  .next (s.wrG d (BitVec.ofNat 64 (minMaxCode fm true (scalarCode fm (s.rdG a)) (scalarCode fm (s.rdG b)))))

/-- The result of `fsgn` (10 R244): the magnitude of a with b's sign, its inverse, or the exclusive or of the signs. -/
def signCode (fm : Fmt) (sub a b : Nat) : Nat :=
  let top := 2 ^ (fm.width - 1)
  if decodeNum fm false a = .nan then nanCode fm
  else
    let sa := a / top % 2
    let sb := b / top % 2
    a % top + (match sub with
      | 0 => sb
      | 1 => 1 - sb
      | _ => (sa + sb) % 2) * top

/-- `fsgn` (10 R244). -/
def execFsgn (d a b : BitVec 5) (sbf : BitVec 3) (ty : BitVec 1) (s : State) : Out :=
  let fm := scalarFmt ty
  if sbf.toNat < 3 then
    .next (s.wrG d (BitVec.ofNat 64 (signCode fm sbf.toNat (scalarCode fm (s.rdG a)) (scalarCode fm (s.rdG b)))))
  else .refused (.illFormed "FSGN")

/-- `fcmp` (10 R244): 1 where the relation holds. -/
def execFcmp (d a b : BitVec 5) (sbf : BitVec 3) (ty : BitVec 1) (s : State) : Out :=
  let fm := scalarFmt ty
  if sbf.toNat < 7 then
    .next (s.wrG d (if relHolds sbf.toNat (cmpExact (scalarVal fm (s.rdG a)) (scalarVal fm (s.rdG b))) then 1 else 0))
  else .refused (.illFormed "FCMP")

/-- `fclass` (10 R244): one bit, for the class of a. -/
def execFclass (d a : BitVec 5) (ty : BitVec 1) (s : State) : Out :=
  let fm := scalarFmt ty
  .next (s.wrG d (BitVec.ofNat 64 (2 ^ classBit fm (scalarCode fm (s.rdG a)))))

/-- A converted code extended to 64 bits: a signed integer by its sign, any other with zeros (10 R245). -/
def extendCode (fm : Fmt) (code : Nat) : Word :=
  match fm with
  | .int w true => wordOfInt (sxNat code w)
  | .int _ false => BitVec.ofNat 64 code
  | .bin8 _ _ => BitVec.ofNat 64 code
  | .bf16 => BitVec.ofNat 64 code
  | .f32 => BitVec.ofNat 64 code

/-- `fcvt` (10 R245). -/
def execFcvt (d a tof frf : BitVec 5) (rnd : BitVec 3) (sat : BitVec 1) (s : State) : Out :=
  match Fmt.ofCode tof.toNat, Fmt.ofCode frf.toNat with
  | some t, some f =>
    let mode := if convertRounds t f then s.mode rnd else .rne
    let (dr, st) := drawIf mode s.srng
    let s' := if mode = .rst then s.setSrng st else s
    withRnd rnd "FCVT"
      (.next (s'.wrG d (extendCode t (convertScalar t f s.me.infm mode (sat = 1) dr (scalarCode f (s.rdG a))))))
  | _, _ => .refused (.illFormed "FCVT")

end Sys2Proof.Machine
end

