-- ==== Sys2Proof/Machine/Special.lean ====
section
/-! DEFINITION. The special functions of 08 R210 on `f32` codes: the exact value rounded once under `rne`. `rcp` and
`rsqrt` are computed exactly with a sticky digit; the transcendental functions are enclosed between two fixed-point
values of 512 fraction bits, and the result stands where both ends round alike. -/

namespace Sys2Proof.Machine

/-- Fraction bits of the enclosures. -/
def sfuBits : Nat := 512
/-- One in fixed point. -/
def fxOne : Nat := 2 ^ sfuBits
/-- A product in fixed point. -/
def fxMul (a b : Nat) : Nat := a * b / fxOne
/-- The half width of an enclosure: far above the truncation error of every series below. -/
def fxSlack : Nat := 2 ^ 40

/-- The sum of n terms of Σ y^k / k!, from a term and its index. -/
def expSeries (y : Nat) : Nat → Nat → Nat → Nat → Nat
  | 0, _, _, acc => acc
  | n + 1, k, t, acc => expSeries y n (k + 1) (fxMul t y / k) (acc + t)

/-- e^y of a fixed-point y below 1. -/
def fxExp (y : Nat) : Nat := expSeries y 110 1 fxOne 0

/-- The sum of n terms of Σ z^(2k+1) / (2k+1). -/
def atanhSeries (z2 : Nat) : Nat → Nat → Nat → Nat → Nat
  | 0, _, _, acc => acc
  | n + 1, k, t, acc => atanhSeries z2 n (k + 2) (fxMul t z2) (acc + t / k)

/-- The natural logarithm of a fixed-point m from 1 to 2. -/
def fxLn (m : Nat) : Nat :=
  let z := (m - fxOne) * fxOne / (m + fxOne)
  2 * atanhSeries (fxMul z z) 180 1 z 0

/-- ln 2 in fixed point. -/
def fxLn2 : Nat := fxLn (2 * fxOne)

/-- The alternating sum of n terms of atan(1 / q), the sign of the next term given. -/
def atanSeries (q2 : Nat) : Nat → Nat → Nat → Bool → Int → Int
  | 0, _, _, _, acc => acc
  | n + 1, k, t, neg, acc =>
    atanSeries q2 n (k + 2) (t / q2) (!neg) (if neg then acc - (t / k : Nat) else acc + (t / k : Nat))

/-- π in fixed point (Machin). -/
def fxPi : Nat :=
  (16 * atanSeries 25 120 1 (fxOne / 5) false 0 - 4 * atanSeries 57121 40 1 (fxOne / 239) false 0).toNat

/-- The alternating sum of n terms of the sine or cosine series, from a term and its index. -/
def trigSeries (r2 : Nat) : Nat → Nat → Nat → Bool → Int → Int
  | 0, _, _, _, acc => acc
  | n + 1, k, t, neg, acc =>
    trigSeries r2 n (k + 2) (fxMul t r2 / ((k + 1) * (k + 2))) (!neg) (if neg then acc - (t : Int) else acc + (t : Int))

/-- e^(−y) of a fixed-point y. -/
def fxExpNeg (y : Nat) : Nat :=
  let k := y / fxLn2
  if 600 < k then 0 else (fxOne * fxOne / fxExp (y - k * fxLn2)) / 2 ^ k

/-- The code between two ends that round alike; `none` where they differ. -/
def enclosed (lo hi : Exact) : Option Nat :=
  let a := roundF32 lo
  if a = roundF32 hi then some a else none

/-- The code of a signed fixed-point value within the slack, times 2 ^ e. -/
def encloseFx (x : Int) (e : Int) : Option Nat :=
  let m := x.natAbs
  let s := decide (x < 0)
  enclosed (.fin s (m - fxSlack) (e - sfuBits)) (.fin s (m + fxSlack) (e - sfuBits))

/-- A magnitude m × 2^e in fixed point; exact for every `f32` value below 2^129. -/
def fxOf (m : Nat) (e : Int) : Nat :=
  let u := e + sfuBits
  if 0 ≤ u then m * 2 ^ u.toNat else m / 2 ^ (-u).toNat

/-- The integer square root, digit by digit: n is the number of digits left. -/
def sqrtGo (x : Nat) : Nat → Nat → Nat
  | 0, r => r
  | n + 1, r => let c := r + 2 ^ n; if c * c ≤ x then sqrtGo x n c else sqrtGo x n r

/-- 2^x of a finite value. -/
def sfuExp2 (s : Bool) (m : Nat) (e : Int) : Option Nat :=
  if m = 0 then some 0x3F800000
  else if 9 < (bitLen m : Int) + e then some (if s then 0 else 0x7F800000)
  else
    let x := fxOf m e
    let n : Int := if s then -((x + fxOne - 1) / fxOne : Nat) else (x / fxOne : Nat)
    let f := if s then ((-n).toNat * fxOne - x) else x - n.toNat * fxOne
    if f = 0 then some (roundF32 (.fin false 1 n)) else encloseFx (fxExp (fxMul f fxLn2)) n

/-- log2 of a positive finite value. -/
def sfuLog2 (m : Nat) (e : Int) : Option Nat :=
  let l := bitLen m - 1
  let top : Int := l + e
  if m = 2 ^ l then some (roundF32 (exactOfInt top))
  else encloseFx (top * fxOne + (fxLn (fxOf m (-(l : Int))) * fxOne / fxLn2 : Nat)) 0

/-- 1/x of a finite nonzero value, with a sticky digit. -/
def sfuRcp (s : Bool) (m : Nat) (e : Int) : Nat :=
  let q := 2 ^ 80 / m
  roundF32 (.fin s (2 * q + if m * q = 2 ^ 80 then 0 else 1) (-e - 81))

/-- 1/√x of a positive finite value, with a sticky digit. -/
def sfuRsqrt (m : Nat) (e : Int) : Nat :=
  let (m, e) := if e % 2 = 0 then (m, e) else (2 * m, e - 1)
  let q := 2 ^ 160 / m
  let r := sqrtGo q 81 0
  roundF32 (.fin false (2 * r + if r * r * m = 2 ^ 160 then 0 else 1) (-(e / 2) - 81))

/-- sin or cos of a finite value within ±2^16. -/
def sfuTrig (cosine : Bool) (s : Bool) (m : Nat) (e : Int) : Option Nat :=
  let x := fxOf m e
  let q := fxPi / 2
  let k := (2 * x + q) / (2 * q)
  let r : Int := (x : Int) - (k * fxPi / 2 : Nat)
  let r2 := fxMul r.natAbs r.natAbs
  let cosr := trigSeries r2 60 0 fxOne false 0
  let sinr := trigSeries r2 60 1 r.natAbs false 0
  let sinr := if r < 0 then -sinr else sinr
  match (if cosine then k + 1 else k) % 4 with
  | 0 => encloseFx (if s && !cosine then -sinr else sinr) 0
  | 1 => encloseFx (if s && !cosine then -cosr else cosr) 0
  | 2 => encloseFx (if s && !cosine then sinr else -sinr) 0
  | _ => encloseFx (if s && !cosine then cosr else -cosr) 0

/-- tanh of a finite nonzero value. -/
def sfuTanh (s : Bool) (m : Nat) (e : Int) : Option Nat :=
  let t := if 10 < (bitLen m : Int) + e then 0 else fxExpNeg (2 * fxOf m e)
  let y : Int := ((fxOne - t) * fxOne / (fxOne + t) : Nat)
  encloseFx (if s then -y else y) 0

/-- 1/(1 + e^−x) of a finite nonzero value. -/
def sfuSigm (s : Bool) (m : Nat) (e : Int) : Option Nat :=
  let t := if 10 < (bitLen m : Int) + e then 0 else fxExpNeg (fxOf m e)
  encloseFx (((if s then t else fxOne) * fxOne / (fxOne + t) : Nat)) 0

/-- A special function on a code of `f32` (08 R210): 0 exp2, 1 log2, 2 rcp, 3 rsqrt, 4 sin, 5 cos, 6 tanh, 7 sigm;
`none` where the enclosure is too wide to decide. -/
def sfuCode (fn : Nat) (code : Nat) : Option Nat :=
  let nan := nanCode .f32
  let one := 0x3F800000
  let infc (s : Bool) : Nat := infOrNanCode .f32 true s
  let zero (s : Bool) : Nat := zeroCode .f32 s
  match decodeNum .f32 false code with
  | .nan => some nan
  | .inf s =>
    match fn with
    | 0 => some (if s then 0 else infc false)
    | 1 => some (if s then nan else infc false)
    | 2 => some (zero s)
    | 3 => some (if s then nan else 0)
    | 6 => some (one + if s then 2 ^ 31 else 0)
    | 7 => some (if s then 0 else one)
    | _ => some nan
  | .fin s m e =>
    let big : Bool := magLt (2 ^ 16) 0 m e
    match fn with
    | 0 => sfuExp2 s m e
    | 1 => if m = 0 then some (infc true) else if s then some nan else sfuLog2 m e
    | 2 => if m = 0 then some (infc s) else some (sfuRcp s m e)
    | 3 => if m = 0 then some (infc s) else if s then some nan else some (sfuRsqrt m e)
    | 4 => if m = 0 then some (zero s) else if big then some nan else sfuTrig false s m e
    | 5 => if m = 0 then some one else if big then some nan else sfuTrig true s m e
    | 6 => if m = 0 then some (zero s) else sfuTanh s m e
    | _ => if m = 0 then some (0x3F000000) else sfuSigm s m e

end Sys2Proof.Machine
end

