-- ==== Sys2Proof/Machine/Vector.lean ====
section
/-! DEFINITION. The vector instructions of the A slot (10 R246 to R258): elements by type, predicates, one rounding an
element, the fixed tree of 08 R207, and the element moves. None traps on a value (R236). -/

namespace Sys2Proof.Machine

/-- Values for elements in ascending order: an active element is computed, with a draw when `draws`, an inactive one keeps
its value and draws nothing (08 R203; 10 R237). -/
def laneGo (f : Nat → Nat → Nat) (act : Nat → Bool) (old : Nat → Nat) (draws : Bool) :
    List Nat → BitVec 32 → List Nat × BitVec 32
  | [], st => ([], st)
  | i :: t, st =>
    if act i then
      let (d, st) := if draws then srngDraw st else (0, st)
      let (l, st) := laneGo f act old draws t st
      (f i d :: l, st)
    else
      let (l, st) := laneGo f act old draws t st
      (old i :: l, st)

/-- The running slot's vector register d with its active w-bit elements computed by `f`, element number and draw given
(10 R237). -/
def State.mapLanes (s : State) (d : BitVec 5) (w : Nat) (k : BitVec 3) (draws : Bool) (f : Nat → Nat → Nat) : State :=
  let old := s.rdV d
  let (l, st) := laneGo f (predBit (s.rdK k)) (elem old w) draws (List.range (512 / w)) s.srng
  let s := if draws then s.setSrng st else s
  s.wrV d (packElems w l)

/-- The value of an element of an integer type (10 R237). -/
def intVal (w : Nat) (signed : Bool) (x : Nat) : Int := if signed then sxNat x w else ((x % 2 ^ w : Nat) : Int)

/-- A meaning over a vector format, or the refusal of a code that the decoder never gives. -/
def withTy (ty : BitVec 4) (mnemonic : String) (f : Fmt → Out) : Out :=
  match vecFmt ty with
  | some fm => f fm
  | none => .refused (.illFormed mnemonic)

/-- An element-wise operation: the exact integer result, wrapped or clamped, or the exact float result rounded once
(10 R246). -/
def arithLanes (d : BitVec 5) (k : BitVec 3) (sat : Bool) (rnd : BitVec 3) (fm : Fmt) (fi : Nat → (Nat → Int) → Int)
    (ff : RMode → Nat → (Nat → Exact) → Exact) (s : State) : State :=
  match fm with
  | .int w signed => s.mapLanes d w k false (fun i _ => fitInt (fi i (intVal w signed)) w signed sat)
  | .bin8 _ _ => s
  | .bf16 =>
    s.mapLanes d 16 k (s.mode rnd == .rst)
      (fun i dr => toFloat (ff (s.mode rnd) i (decodeNum .bf16 false)) .bf16 (s.mode rnd) sat false dr)
  | .f32 =>
    s.mapLanes d 32 k (s.mode rnd == .rst)
      (fun i dr => toFloat (ff (s.mode rnd) i (decodeNum .f32 false)) .f32 (s.mode rnd) sat false dr)

/-- `vadd` (10 R246). -/
def execVadd (d a b : BitVec 5) (k : BitVec 3) (ty : BitVec 4) (sat : BitVec 1) (rnd : BitVec 3) (s : State) : Out :=
  withTy ty "VADD" fun fm =>
    let x := elem (s.rdV a) fm.width
    let y := elem (s.rdV b) fm.width
    withRnd rnd "VADD" (.next (arithLanes d k (sat = 1) rnd fm (fun i v => v (x i) + v (y i))
      (fun m i v => addExact m (v (x i)) (v (y i))) s))

/-- `vsub` (10 R246). -/
def execVsub (d a b : BitVec 5) (k : BitVec 3) (ty : BitVec 4) (sat : BitVec 1) (rnd : BitVec 3) (s : State) : Out :=
  withTy ty "VSUB" fun fm =>
    let x := elem (s.rdV a) fm.width
    let y := elem (s.rdV b) fm.width
    withRnd rnd "VSUB" (.next (arithLanes d k (sat = 1) rnd fm (fun i v => v (x i) - v (y i))
      (fun m i v => addExact m (v (x i)) (v (y i)).negate) s))

/-- `vmul` (10 R246). -/
def execVmul (d a b : BitVec 5) (k : BitVec 3) (ty : BitVec 4) (sat : BitVec 1) (rnd : BitVec 3) (s : State) : Out :=
  withTy ty "VMUL" fun fm =>
    let x := elem (s.rdV a) fm.width
    let y := elem (s.rdV b) fm.width
    withRnd rnd "VMUL" (.next (arithLanes d k (sat = 1) rnd fm (fun i v => v (x i) * v (y i))
      (fun _ i v => mulExact (v (x i)) (v (y i))) s))

/-- `vfma` (10 R246): product and addend rounded, wrapped or clamped once together. -/
def execVfma (d a b : BitVec 5) (k : BitVec 3) (ty : BitVec 4) (sat : BitVec 1) (rnd : BitVec 3) (s : State) : Out :=
  withTy ty "VFMA" fun fm =>
    let x := elem (s.rdV a) fm.width
    let y := elem (s.rdV b) fm.width
    let z := elem (s.rdV d) fm.width
    withRnd rnd "VFMA" (.next (arithLanes d k (sat = 1) rnd fm (fun i v => v (x i) * v (y i) + v (z i))
      (fun m i v => addExact m (mulExact (v (x i)) (v (y i))) (v (z i))) s))

/-- The lesser or greater of two elements by type (10 R246; 08 R206). -/
def minMaxElem (fm : Fmt) (greater : Bool) (a b : Nat) : Nat :=
  match fm with
  | .int w signed =>
    if greater then (if intVal w signed a < intVal w signed b then b else a)
    else (if intVal w signed b < intVal w signed a then b else a)
  | .bin8 p u => minMaxCode (.bin8 p u) greater a b
  | .bf16 => minMaxCode .bf16 greater a b
  | .f32 => minMaxCode .f32 greater a b

/-- `vmin` (10 R246). -/
def execVmin (d a b : BitVec 5) (k : BitVec 3) (ty : BitVec 4) (rnd : BitVec 3) (s : State) : Out :=
  withTy ty "VMIN" fun fm =>
    withRnd rnd "VMIN" (.next (s.mapLanes d fm.width k false
      (fun i _ => minMaxElem fm false (elem (s.rdV a) fm.width i) (elem (s.rdV b) fm.width i))))

/-- `vmax` (10 R246). -/
def execVmax (d a b : BitVec 5) (k : BitVec 3) (ty : BitVec 4) (rnd : BitVec 3) (s : State) : Out :=
  withTy ty "VMAX" fun fm =>
    withRnd rnd "VMAX" (.next (s.mapLanes d fm.width k false
      (fun i _ => minMaxElem fm true (elem (s.rdV a) fm.width i) (elem (s.rdV b) fm.width i))))

/-- The magnitude of an element, or its negation (10 R246). -/
def signElem (fm : Fmt) (flip : Bool) (sat : Bool) (a : Nat) : Nat :=
  match fm with
  | .int w signed =>
    if flip then fitInt (0 - intVal w signed a) w signed sat
    else fitInt (intVal w signed a).natAbs w signed sat
  | .bin8 p u => signCode (.bin8 p u) (if flip then 1 else 0) a (if flip then a else 0)
  | .bf16 => signCode .bf16 (if flip then 1 else 0) a (if flip then a else 0)
  | .f32 => signCode .f32 (if flip then 1 else 0) a (if flip then a else 0)

/-- `vabs` (10 R246). -/
def execVabs (d a : BitVec 5) (k : BitVec 3) (ty : BitVec 4) (sat : BitVec 1) (rnd : BitVec 3) (s : State) : Out :=
  withTy ty "VABS" fun fm =>
    withRnd rnd "VABS" (.next (s.mapLanes d fm.width k false (fun i _ => signElem fm false (sat = 1) (elem (s.rdV a) fm.width i))))

/-- `vneg` (10 R246). -/
def execVneg (d a : BitVec 5) (k : BitVec 3) (ty : BitVec 4) (sat : BitVec 1) (rnd : BitVec 3) (s : State) : Out :=
  withTy ty "VNEG" fun fm =>
    withRnd rnd "VNEG" (.next (s.mapLanes d fm.width k false (fun i _ => signElem fm true (sat = 1) (elem (s.rdV a) fm.width i))))

/-- A bitwise operation on 32-bit lanes (10 R247). -/
def bitLanes (f : VWord → VWord → VWord) (d a b : BitVec 5) (k : BitVec 3) (s : State) : Out :=
  let r := f (s.rdV a) (s.rdV b)
  .next (s.mapLanes d 32 k false (fun i _ => elem r 32 i))

/-- `vand` (10 R247). -/
def execVand (d a b : BitVec 5) (k : BitVec 3) (s : State) : Out := bitLanes (fun x y => x &&& y) d a b k s

/-- `vor` (10 R247). -/
def execVor (d a b : BitVec 5) (k : BitVec 3) (s : State) : Out := bitLanes (fun x y => x ||| y) d a b k s

/-- `vxor` (10 R247). -/
def execVxor (d a b : BitVec 5) (k : BitVec 3) (s : State) : Out := bitLanes (fun x y => x ^^^ y) d a b k s

/-- A shift of elements by the low log2(w) bits of the other operand; integer types only (10 R248). -/
def shiftLanes (mnemonic : String) (f : Nat → Nat → Nat → Nat) (d a b : BitVec 5) (k : BitVec 3) (ty : BitVec 4)
    (s : State) : Out :=
  match vecFmt ty with
  | some (.int w _) =>
    .next (s.mapLanes d w k false (fun i _ => f w (elem (s.rdV a) w i) (elem (s.rdV b) w i % w)))
  | _ => .refused (.illFormed mnemonic)

/-- `vshl` (10 R248). -/
def execVshl (d a b : BitVec 5) (k : BitVec 3) (ty : BitVec 4) (s : State) : Out :=
  shiftLanes "VSHL" (fun w x n => x * 2 ^ n % 2 ^ w) d a b k ty s

/-- `vshr` (10 R248). -/
def execVshr (d a b : BitVec 5) (k : BitVec 3) (ty : BitVec 4) (s : State) : Out :=
  shiftLanes "VSHR" (fun _ x n => x / 2 ^ n) d a b k ty s

/-- `vsra` (10 R248). -/
def execVsra (d a b : BitVec 5) (k : BitVec 3) (ty : BitVec 4) (s : State) : Out :=
  shiftLanes "VSRA" (fun w x n => (sxNat x w / (2 ^ n : Nat) % (2 ^ w : Nat)).toNat) d a b k ty s

/-- `vclamp` (10 R249): the greater of d and a, then the lesser of that and b. -/
def execVclamp (d a b : BitVec 5) (k : BitVec 3) (ty : BitVec 4) (rnd : BitVec 3) (s : State) : Out :=
  withTy ty "VCLAMP" fun fm =>
    let w := fm.width
    withRnd rnd "VCLAMP" (.next (s.mapLanes d w k false (fun i _ =>
      minMaxElem fm false (minMaxElem fm true (elem (s.rdV d) w i) (elem (s.rdV a) w i)) (elem (s.rdV b) w i))))

/-- The word with a bit set where a test holds, below n. -/
def bitsWhere (n : Nat) (p : Nat → Bool) : Nat := (List.range n).foldl (fun acc i => if p i then acc + 2 ^ i else acc) 0

/-- `vcmp` (10 R250): the whole predicate register is written. -/
def execVcmp (kd : BitVec 3) (a b : BitVec 5) (k : BitVec 3) (ty : BitVec 4) (cnd : BitVec 3) (s : State) : Out :=
  withTy ty "VCMP" fun fm =>
    let w := fm.width
    let kk := s.rdK k
    if cnd.toNat < 7 then
      .next (s.wrK kd (BitVec.ofNat 64 (bitsWhere (512 / w) (fun i =>
        predBit kk i && relHolds cnd.toNat (cmpCode fm (elem (s.rdV a) w i) (elem (s.rdV b) w i))))))
    else .refused (.illFormed "VCMP")

/-- `vsel` (10 R251): every element is written. -/
def execVsel (d a b : BitVec 5) (k : BitVec 3) (ty : BitVec 4) (rnd : BitVec 3) (s : State) : Out :=
  withTy ty "VSEL" fun fm =>
    let w := fm.width
    withRnd rnd "VSEL" (.next (s.wrV d (packElems w ((List.range (512 / w)).map (fun i =>
      if predBit (s.rdK k) i then elem (s.rdV a) w i else elem (s.rdV b) w i)))))

/-- A vector conversion (10 R252): the low n elements under the predicate, the elements above them 0. -/
def convertLanes (mnemonic : String) (sat : Bool) (d a tof : BitVec 5) (k : BitVec 3) (frf : BitVec 5) (rnd : BitVec 3)
    (s : State) : Out :=
  match Fmt.ofCode tof.toNat, Fmt.ofCode frf.toNat with
  | some t, some f =>
    if t.width = 64 || f.width = 64 then .refused (.illFormed mnemonic)
    else
      let n := 512 / max t.width f.width
      let mode := if convertRounds t f then s.mode rnd else .rne
      let (l, st) := laneGo (fun i dr => convert t f s.me.infm mode sat dr (elem (s.rdV a) f.width i))
        (predBit (s.rdK k)) (elem (s.rdV d) t.width) (mode == .rst) (List.range n) s.srng
      let s := if mode = .rst then s.setSrng st else s
      withRnd rnd mnemonic (.next (s.wrV d (packElems t.width l)))
  | _, _ => .refused (.illFormed mnemonic)

/-- `vcvt` with SAT = 0 (10 R252). -/
def execVcvt (d a tof : BitVec 5) (k : BitVec 3) (frf : BitVec 5) (rnd : BitVec 3) (s : State) : Out :=
  convertLanes "VCVT" false d a tof k frf rnd s

/-- `vcvt` with SAT = 1 (10 R252). -/
def execVcvtSat (d a tof : BitVec 5) (k : BitVec 3) (frf : BitVec 5) (rnd : BitVec 3) (s : State) : Out :=
  convertLanes "VCVT.sat" true d a tof k frf rnd s

/-- One element of `vsfu`: the correctly rounded result, or a free value where the enclosure does not decide it. -/
def sfuElem (fn : Nat) (s : State) (code : Nat) : Nat × State :=
  match sfuCode fn code with
  | some y => (y, s)
  | none => let (y, s) := s.draw 32; (y.toNat, s)

/-- The elements of `vsfu` in ascending order: the `f32` results of the widened inputs, the generator and the state. -/
def sfuGo (fn : Nat) (fm : Fmt) (mode : RMode) (a old : VWord) (act : Nat → Bool) :
    List Nat → BitVec 32 → State → List Nat × BitVec 32 × State
  | [], st, s => ([], st, s)
  | i :: t, st, s =>
    if act i then
      match fm with
      | .bf16 =>
        let (y, s) := sfuElem fn s (elem a 16 i * 65536)
        let (d, st) := drawIf mode st
        let (l, r) := sfuGo fn fm mode a old act t st s
        (convert .bf16 .f32 false mode false d y :: l, r)
      | _ =>
        let (y, s) := sfuElem fn s (elem a 32 i)
        let (l, r) := sfuGo fn fm mode a old act t st s
        (y :: l, r)
    else
      let (l, r) := sfuGo fn fm mode a old act t st s
      (elem old fm.width i :: l, r)

/-- `vsfu` (10 R253; 08 R210): `f32` ignores RND; `bf16` rounds the `f32` result under it. -/
def execVsfu (d a fn : BitVec 5) (k : BitVec 3) (ty : BitVec 4) (rnd : BitVec 3) (s : State) : Out :=
  match vecFmt ty with
  | some (.int _ _) => .refused (.illFormed "VSFU")
  | some fm =>
    if fn.toNat < 8 then
      let mode := if fm = .bf16 then s.mode rnd else .rne
      let (l, st, s') := sfuGo fn.toNat fm mode (s.rdV a) (s.rdV d) (predBit (s.rdK k)) (List.range (512 / fm.width)) s.srng s
      let s' := if mode = .rst then s'.setSrng st else s'
      withRnd rnd "VSFU" (.next (s'.wrV d (packElems fm.width l)))
    else .refused (.illFormed "VSFU")
  | none => .refused (.illFormed "VSFU")

/-- One level of the tree of 08 R207 over paired lanes: an operation a pair, the draws in ascending lane order. -/
def treeLevel {α : Type} (op : α → α → Nat → α) (draws : Bool) : List (α × α) → BitVec 32 → List α × BitVec 32
  | [], st => ([], st)
  | (x, y) :: t, st =>
    let (d, st) := if draws then srngDraw st else (0, st)
    let (l, st) := treeLevel op draws t st
    (op x y d :: l, st)

/-- The fixed tree of 08 R207: `n` levels, lane i with lane i + half. -/
def treeReduce {α : Type} (op : α → α → Nat → α) (draws : Bool) : Nat → List α → BitVec 32 → List α × BitVec 32
  | 0, l, st => (l, st)
  | n + 1, l, st =>
    let (l, st) := treeLevel op draws ((l.take (l.length / 2)).zip (l.drop (l.length / 2))) st
    treeReduce op draws n l st

/-- The float add of the tree: one rounding into `f32`. -/
def treeAdd (mode : RMode) (x y : Exact) (d : Nat) : Exact :=
  decodeNum .f32 false (toFloat (addExact mode x y) .f32 mode false false d)

/-- The `f32` code of a value of the tree. -/
def treeCode (l : List Exact) : Nat := roundF32 (l.headD .nan)

/-- The identity of `vred`: of add, min and max by type (10 R254). -/
def redIdentity (fm : Fmt) (op : Nat) : Nat :=
  match fm with
  | .int w signed => if op = 0 then 0 else fitInt (if op = 1 then intMax w signed else intMin w signed) w signed false
  | .bin8 _ _ => 0
  | .bf16 => 0
  | .f32 => if op = 0 then 0 else infOrNanCode .f32 true (op == 2)

/-- `vred` (10 R254): the result in element 0, the others 0. -/
def execVred (d a fn : BitVec 5) (k : BitVec 3) (ty : BitVec 4) (rnd : BitVec 3) (s : State) : Out :=
  match vecFmt ty with
  | none => .refused (.illFormed "VRED")
  | some fm =>
    if 2 < fn.toNat || fm.width ≠ 32 then .refused (.illFormed "VRED")
    else
      let lane (i : Nat) : Nat := if predBit (s.rdK k) i then elem (s.rdV a) 32 i else redIdentity fm fn.toNat
      let lanes := (List.range 16).map lane
      withRnd rnd "VRED"
        (if fn.toNat ≠ 0 then
          .next (s.wrV d (packElems 32 [(treeReduce (fun x y _ => minMaxElem fm (fn.toNat == 2) x y) false 4 lanes 0).1.headD 0]))
        else if fm = .f32 then
          let mode := s.mode rnd
          let (l, st) := treeReduce (treeAdd mode) (mode == .rst) 4 (lanes.map (decodeNum .f32 false)) s.srng
          let s := if mode = .rst then s.setSrng st else s
          .next (s.wrV d (packElems 32 [treeCode l]))
        else .next (s.wrV d (packElems 32 [(treeReduce (fun x y _ => (x + y) % 2 ^ 32) false 4 lanes 0).1.headD 0])))

/-- A lane's product of `vdot` (10 R255). -/
def dotLane (fm : Fmt) (mode : RMode) (a b : VWord) (i : Nat) : Exact :=
  let v (x : VWord) (j : Nat) : Exact := decodeNum fm false (elem x fm.width j)
  if fm = .bf16 then addExact mode (mulExact (v a (2 * i)) (v b (2 * i))) (mulExact (v a (2 * i + 1)) (v b (2 * i + 1)))
  else mulExact (v a i) (v b i)

/-- `vdot` (10 R255). -/
def execVdot (d a b : BitVec 5) (k : BitVec 3) (ty : BitVec 4) (rnd : BitVec 3) (s : State) : Out :=
  match vecFmt ty with
  | none => .refused (.illFormed "VDOT")
  | some fm =>
    if fm.isFloat then
      let mode := s.mode rnd
      let lanes := (List.range 16).map (fun i =>
        if predBit (s.rdK k) i then dotLane fm mode (s.rdV a) (s.rdV b) i else .fin false 0 0)
      let (l, st) := treeReduce (treeAdd mode) (mode == .rst) 4 lanes s.srng
      let s' := if mode = .rst then s.setSrng st else s
      withRnd rnd "VDOT" (.next (s'.wrV d (packElems 32 [treeCode l])))
    else .refused (.illFormed "VDOT")

/-- `vperm` (10 R256): an index at or above n gives 0. -/
def execVperm (d a b : BitVec 5) (k : BitVec 3) (ty : BitVec 4) (rnd : BitVec 3) (s : State) : Out :=
  withTy ty "VPERM" fun fm =>
    let w := fm.width
    withRnd rnd "VPERM" (.next (s.mapLanes d w k false (fun i _ =>
      let t := elem (s.rdV b) w i
      if t < 512 / w then elem (s.rdV a) w t else 0)))

/-- `vsplat` (10 R257). -/
def execVsplat (d a : BitVec 5) (k : BitVec 3) (ty : BitVec 4) (rnd : BitVec 3) (s : State) : Out :=
  withTy ty "VSPLAT" fun fm =>
    withRnd rnd "VSPLAT" (.next (s.mapLanes d fm.width k false (fun _ _ => (s.rdG a).toNat % 2 ^ fm.width)))

/-- `vmovg` (10 R258): one element, extended by its type. -/
def execVmovg (d r : BitVec 5) (idx : BitVec 6) (ty : BitVec 4) (s : State) : Out :=
  withTy ty "VMOVG" fun fm =>
    if idx.toNat < 512 / fm.width then .next (s.wrG d (extendCode fm (elem (s.rdV r) fm.width idx.toNat)))
    else .refused (.illFormed "VMOVG")

/-- `vmovl` (10 R258): one element written. -/
def execVmovl (d r : BitVec 5) (idx : BitVec 6) (ty : BitVec 4) (s : State) : Out :=
  withTy ty "VMOVL" fun fm =>
    if idx.toNat < 512 / fm.width then .next (s.wrV d (setElem (s.rdV d) fm.width idx.toNat (s.rdG r).toNat))
    else .refused (.illFormed "VMOVL")

end Sys2Proof.Machine
end

