-- ==== Sys2Proof/Machine/Collective.lean ====
section
/-! DEFINITION. Collectives (12 R330 to R332; 13 R355): the descriptor and its checks, the rendezvous, the operations one
burst a step in all participants together (log 33), and completion. A collective is named by its die and by
core × 65536 + job id. -/

namespace Sys2Proof.Machine

/-- A field of a collective's descriptor. -/
def Coll.f (c : Coll) (dw lo n : Nat) : Nat := bitsOf (c.desc.get (Fin.ofNat 8 dw)).toNat lo n

/-- OP, RED, TY, COUNT, NPART, RANK and the dies of the ranks (12 R330). -/
def Coll.op (c : Coll) : Nat := c.f 0 0 4
def Coll.tag (c : Coll) : Nat := c.f 0 32 32
def Coll.npart (c : Coll) : Nat := c.f 4 0 10
def Coll.rank (c : Coll) : Nat := c.f 4 16 10
def Coll.dieOfRank (c : Coll) (q : Nat) : Nat := c.f 5 0 9 + q * c.f 5 17 2

/-- The engine of a participant's die as it reaches memory (05 R110, R113). -/
def Coll.eng (c : Coll) : Eng :=
  { agent := collAgent (dieOf c.core), ctx := c.ctx, cluster := clusterOf c.core, unit := 8 }

/-- The number that names a collective on its die. -/
def Coll.key (c : Coll) : Nat := c.core * 65536 + c.job.toNat

/-- The values that the handshake compares (12 R331). -/
def Coll.values (c : Coll) : List Nat := [c.op, c.f 0 4 4, c.f 0 8 5, c.f 1 0 40, c.npart]

/-- The element type. -/
def Coll.fmt (c : Coll) : Option Fmt := Fmt.ofCode (c.f 0 8 5)

/-- The bytes of a block of COUNT elements. -/
def Coll.block (c : Coll) : Nat :=
  match c.fmt with
  | some fm => (c.f 1 0 40 * fm.width + 7) / 8
  | none => 0

/-- The bytes of a participant's destination (12 R332). -/
def Coll.total (c : Coll) : Nat := if c.op = 3 ∨ c.op = 5 then c.npart * c.block else c.block

/-- The descriptor's reserved bits and fields hold what R331 admits. -/
def Coll.fieldsOk (c : Coll) : Bool :=
  let d (i : Nat) : Nat := (c.desc.get (Fin.ofNat 8 i)).toNat
  let red := c.op == 1 || c.op == 2
  decide (1 ≤ c.op) && decide (c.op ≤ 5) && decide (c.f 0 4 4 ≤ 2) && bitsOf (d 0) 13 19 == 0 && bitsOf (d 1) 40 24 == 0 &&
    bitsOf (d 2) 57 7 == 0 && bitsOf (d 3) 57 7 == 0 && bitsOf (d 4) 42 22 == 0 && bitsOf (d 4) 26 6 == 0 &&
    bitsOf (d 4) 10 6 == 0 && bitsOf (d 5) 19 45 == 0 && bitsOf (d 5) 9 8 == 0 && d 6 == 0 && d 7 == 0 &&
    (match c.fmt with
     | some fm => !red || fm == .bf16 || fm == .f32 || fm == .int 32 true || fm == .int 32 false
     | none => false) &&
    decide (1 ≤ c.f 1 0 40) && decide (2 ≤ c.npart) && decide (c.npart ≤ 512) && (c.f 5 17 2 == 1 || c.f 5 17 2 == 2) &&
    decide (c.rank < c.npart) && decide (c.f 4 32 10 < c.npart)

/-- A collective of a die by its key. -/
def State.coll (s : State) (die key : Nat) : Option Coll := (s.die die).coll.find? (fun c => c.key == key)

/-- The state with a collective replaced. -/
def State.setColl (s : State) (die : Nat) (c : Coll) : State :=
  s.modDie die (fun d => { d with coll := d.coll.map (fun x => if x.key == c.key then c else x) })

/-- Every collective of a context and a tag, with its die, in the order of the dies. -/
def State.collGroup (s : State) (ctx tag : Nat) : List (Nat × Coll) :=
  s.dies.entries.flatMap (fun e => (e.2.coll.filter (fun c => c.ctx == ctx && c.tag == tag)).map (fun c => (e.1, c)))

/-- A collective ended with a cause before it began, its completion made due. -/
def State.collFail (s : State) (die : Nat) (c : Coll) (cause : Nat) : State :=
  (s.setColl die { c with ended := true, cause := cause }).dueOne .collectiveComplete [die, c.key]

/-- A collective handed to the engine of its die, which joins its view (05 R129; 12 R330, R331): the checks before the handshake,
then the handshake. -/
def State.startColl (s : State) (c : Coll) : State :=
  let die := dieOf c.core
  let s := (s.joinView (collAgent die) c.view).modDie die (fun d => { d with coll := d.coll ++ [c] })
  if !c.fieldsOk then s.collFail die c Cause.resfield.code
  else if die ≠ c.dieOfRank c.rank || !((List.range c.npart).all (fun q => (s.ctx c.ctx).dies.contains (c.dieOfRank q))) then
    s.collFail die c Cause.collrdv.code
  else s.dueOne .collectiveRendezvous [c.ctx, c.tag]

/-- The dwords of sixty-four bytes. -/
def recordOf (bs : List Byte) : Vector Word 8 := Vector.ofFn (fun i => BitVec.ofNat 64 (leNat ((bs.drop (8 * i.val)).take 8)))

/-- The sixty-four bytes at a capability's cursor, checked as a load with GLOBAL and LOCAL admitted (12 R330, R334). -/
def State.record64 (s : State) (cap : BitVec 4) : Except State (Vector Word 8 × State) :=
  let c := s.rdC cap
  let ea := c.cursor
  let xv2 := descr .load 64 cap.toNat
  match check26 c (fun sp => sp == 0 || sp == 1) (needed .load false) ea 64 ea 64 with
  | some f => .error (s.raise f (wordOfInt ea) xv2)
  | none =>
    match s.xlat c.space ea.toNat 64 .load with
    | .fault f => .error (s.raise f (wordOfInt ea) xv2)
    | .miss sp vpn => .error (s.parkWalk [(sp, vpn)])
    | .ok p =>
      match s.loadAt p 64 xv2 with
      | .error e => .error e
      | .ok (bs, s) => .ok (recordOf bs, s.hostDone)

/-- `clgo` (12 R330). -/
def execClgo (j : BitVec 5) (cap : BitVec 4) (s : State) : Out :=
  if s.me.timed then s.trapOut .illegal 0 0
  else
    match s.record64 cap with
    | .error e => .next e
    | .ok (r, s) =>
      match s.myCore.jobSlot with
      | none => .next s.stall
      | some i =>
        let (id, k) := s.takeJob s.cur.core i 7
        let s := (s.setCore s.cur.core k).wrG j (BitVec.ofNat 64 id.toNat)
        .next (s.startColl ⟨s.myCtxId, s.cur.core, id, r, s.view s.myAgent, false, s.clock, 0, 0, false, []⟩)

/-- A kick of the collective engine that has passed its checks (12 R323): its job taken, and KICKID written unless the kick was
deferred; made due again while the job table is full. `view` is what the store carries as a release (05 R126). -/
def State.kickColl (s : State) (core slot a deferred : Nat) (view : List Nat) : State :=
  match (s.core core).jobSlot with
  | none => s.dueOne .clkick ([core, slot, a, deferred] ++ view)
  | some i =>
    let (id, k) := s.takeJob core i 7
    let s := (s.setCore core k).modSlotAt core slot (fun x => if deferred = 1 then x else { x with kickId := some id })
    s.dueOne .clkick ([core, id.toNat, a, 2] ++ view)

/-- The engine of a die acquires the kick of a job and reads the job's descriptor (05 R129; 12 R323, R330); a fault there ends the
job, as the engine completes one. -/
def State.kickRead (s : State) (core : Nat) (id : BitVec 16) (a : Nat) (view : List Nat) : State :=
  let die := dieOf core
  let ctx := (s.core core).ctx
  let s := s.joinView (collAgent die) view
  match s.engRead { agent := collAgent die, ctx := ctx, cluster := clusterOf core, unit := 8 } a 0 64 with
  | .error f =>
    let (code, s) := s.causeOf f
    let c : Coll := ⟨ctx, core, id, Vector.replicate 8 0, view, false, s.clock, 0, code, true, []⟩
    (s.modDie die (fun d => { d with coll := d.coll ++ [c] })).dueOne .collectiveComplete [die, c.key]
  | .ok (bs, s) => s.startColl ⟨ctx, core, id, recordOf bs, view, false, s.clock, 0, 0, false, []⟩

/-- A store to CLKICK starts a collective (12 R323): its checks have passed at the store. Arguments: core, slot, value; a fourth
of 1 marks a deferred kick, which writes no KICKID, and one of 2 the engine's own part for the job in place of the slot; then what
the store carries. -/
def execClkick (s : State) : Out :=
  if s.arg 3 = 2 then
    .next (if (((s.core (s.arg 0)).jobOf (BitVec.ofNat 16 (s.arg 1))).any (fun j => j.st == .pending)) then
      s.kickRead (s.arg 0) (BitVec.ofNat 16 (s.arg 1)) (s.arg 2 % 2 ^ 57) (s.args.drop 4) else s)
  else .next (s.kickColl (s.arg 0) (s.arg 1) (s.arg 2 % 2 ^ 57) (s.arg 3) (s.args.drop 4))

/-! The rendezvous (12 R331; 13 R355). -/

/-- A collective that waits for its peers. -/
def Coll.waits (c : Coll) : Bool := !c.started && !c.ended

/-- The handshake of a context and a tag: a participant that sees other values fails, and once every rank has answered
with equal values all of them start. Arguments: context, tag. -/
def execCollectiveRendezvous (s : State) : Out :=
  let (ctx, tag) := (s.arg 0, s.arg 1)
  if (s.ctx ctx).st ≠ .running then .next s
  else
    let g := (s.collGroup ctx tag).filter (fun e => e.2.waits)
    let peers (c : Coll) : List (Nat × Coll) :=
      (List.range c.npart).filterMap (fun q => g.find? (fun e => e.1 == c.dieOfRank q && e.2.rank == q))
    let clash (c : Coll) : Bool := (peers c).any (fun e => e.2.values != c.values)
    if g.any (fun e => clash e.2) then
      .next (g.foldl (fun s e => if clash e.2 then s.collFail e.1 e.2 Cause.collrdv.code else s) s)
    else
      match g.find? (fun e => (peers e.2).length == e.2.npart) with
      | none => .next s
      | some (die, c) =>
        let names := (peers c).map (fun e => (e.1, e.2.key))
        let s := (peers c).foldl (fun (s : State) e => s.setColl e.1 { e.2 with started := true, group := names }) s
        let op : Instr := match c.op with
          | 1 => .allreduce
          | 2 => .reduceScatter
          | 3 => .allgather
          | 4 => .broadcast
          | _ => .allToAll
        .next (s.dueOne op [die, c.key])

/-- 100 ms of running time after a participant issued, every waiting participant fails (13 R355). Arguments: context,
tag. -/
def execRendezvousTimeout (s : State) : Out :=
  let g := (s.collGroup (s.arg 0) (s.arg 1)).filter (fun e => e.2.waits)
  if g.any (fun e => decide (e.2.since + 100000 * Config.cyclesPerMicro ≤ s.clock)) then
    .next (g.foldl (fun s e => s.collFail e.1 e.2 Cause.collrdv.code) s)
  else .next s

/-! The operations (12 R332). -/

/-- Two elements combined: a sum rounded with `rne`, integer sums wrapping, or the greater or lesser. -/
def combine (fm : Fmt) (red a b : Nat) : Nat :=
  if red = 0 then
    (if fm.isFloat then toFloat (addExact .rne (decodeNum fm false a) (decodeNum fm false b)) fm .rne false false 0
     else (a + b) % 2 ^ fm.width)
  else minMaxElem fm (red == 1) a b

/-- A free order of a list (log 21): contributions combine in the order of their arrival. -/
def State.shuffle {α : Type} (s : State) : Nat → List α → List α × State
  | 0, l => (l, s)
  | n + 1, l =>
    match l with
    | [] => ([], s)
    | _ :: _ =>
      let (i, s) := s.choose l.length
      let (t, s) := State.shuffle s n (l.take i ++ l.drop (i + 1))
      ((l.drop i).take 1 ++ t, s)

/-- The elements of bytes. -/
def elemsOf (w : Nat) : Nat → List Byte → List Nat
  | 0, _ => []
  | n + 1, bs => leNat (bs.take w) :: elemsOf w n (bs.drop w)

/-- Byte strings reduced element by element in the order given. -/
def reduceBytes (fm : Fmt) (red : Nat) (l : List (List Byte)) : List Byte :=
  match l with
  | [] => []
  | x :: t =>
    let w := fm.width / 8
    let n := x.length / w
    (t.foldl (fun acc y => (acc.zip (elemsOf w n y)).map (fun p => combine fm red p.1 p.2)) (elemsOf w n x)).flatMap (leBytes w)

/-- The bytes [o, o + n) of a participant's destination, from the participants' sources. -/
def State.collData (s : State) (c : Coll) (group : List (Nat × Coll)) (o n : Nat) : Except Nat (List Byte × State) :=
  let rd (s : State) (q : Coll) (off : Nat) : Except Nat (List Byte × State) := s.engRead q.eng (q.f 2 0 57) off n
  let from_ (q off : Nat) : Except Nat (List Byte × State) := match group.find? (fun e => e.2.rank == q) with
    | some e => rd s e.2 off
    | none => .error Cause.collrdv.code
  match c.op with
  | 3 => from_ (o / c.block) (o % c.block)
  | 4 => from_ (c.f 4 32 10) o
  | 5 => from_ (o / c.block) (c.rank * c.block + o % c.block)
  | _ =>
    let off := if c.op = 2 then c.rank * c.block + o else o
    let (order, s) := s.shuffle group.length group
    match order.foldl (fun acc e => match acc with
        | .error f => .error f
        | .ok (l, s) => (match rd s e.2 off with
          | .error f => .error f
          | .ok (bs, s) => .ok (l ++ [bs], s))) (Except.ok (([] : List (List Byte)), s)) with
    | .error f => .error f
    | .ok (l, s) => .ok (reduceBytes (c.fmt.getD .f32) (c.f 0 4 4) l, s)

/-- Every participant's bytes of a burst read before any is written. -/
def State.collReads (s : State) (group : List (Nat × Coll)) (o n : Nat) :
    List (Nat × Coll) → Except Nat (List (Nat × Coll × List Byte) × State)
  | [] => .ok ([], s)
  | e :: t =>
    match s.collData e.2 group o n with
    | .error f => .error f
    | .ok (bs, s) =>
      match State.collReads s group o n t with
      | .error f => .error f
      | .ok (l, s) => .ok ((e.1, e.2, bs) :: l, s)

/-- The participants of a collective that has started, with their dies (12 R331, R332). -/
def State.collPeers (s : State) (c : Coll) : List (Nat × Coll) :=
  c.group.filterMap (fun e => (s.coll e.1 e.2).map (fun x => (e.1, x)))

/-- One burst of a collective of an operation code, in all its participants (log 33); its context's switch window stops it
(14 R369). -/
def State.collStep (s : State) (op : Nat) (again : Instr) : Out :=
  let (die, key) := (s.arg 0, s.arg 1)
  match s.coll die key with
  | none => .next s
  | some c =>
    if !c.started || c.ended || c.op ≠ op then .next s
    else
      match (s.ctx c.ctx).sw with
      | .window _ _ => .next (s.dueOne .switchOutComplete [c.ctx])
      | _ =>
        let group := s.collPeers c
        let live := group.filter (fun e => !e.2.ended)
        let o := c.cursor
        let left := min 256 (c.total - o)
        let n := if op = 3 ∨ op = 5 then min left (c.block - o % c.block) else left
        match s.collReads group o n live with
        | .error f =>
          let (code, s) := s.causeOf f
          .next ((live.foldl (fun (s : State) e => s.setColl e.1 { e.2 with ended := true, cause := code }) s).due
            (group.map (fun e => ⟨.collectiveComplete, [e.1, e.2.key]⟩)))
        | .ok (l, s) =>
          let s := l.foldl (fun (s : State) e =>
            match s.engWrite e.2.1.eng (e.2.1.f 3 0 57) o e.2.2 with
            | .ok s => s.setColl e.1 { e.2.1 with cursor := o + n, ended := decide (e.2.1.total ≤ o + n) }
            | .error f =>
              let (code, s) := s.causeOf f
              s.setColl e.1 { e.2.1 with ended := true, cause := code }) s
          let group := s.collPeers c
          match group.find? (fun e => !e.2.ended) with
          | some e => .next (s.dueOne again [e.1, e.2.key])
          | none => .next (s.due (group.map (fun e => ⟨.collectiveComplete, [e.1, e.2.key]⟩)))

/-- `allreduce`. Arguments: die, collective. -/
def execAllreduce (s : State) : Out := s.collStep 1 .allreduce

/-- `reduce-scatter`. Arguments: die, collective. -/
def execReduceScatter (s : State) : Out := s.collStep 2 .reduceScatter

/-- `allgather`. Arguments: die, collective. -/
def execAllgather (s : State) : Out := s.collStep 3 .allgather

/-- `broadcast`. Arguments: die, collective. -/
def execBroadcast (s : State) : Out := s.collStep 4 .broadcast

/-- `all-to-all`. Arguments: die, collective. -/
def execAllToAll (s : State) : Out := s.collStep 5 .allToAll

/-- A participant's job completes (12 R332): once its destination is written and every participant has read what it needs, as a
release at `sys` of its engine (05 R129). Arguments: die, collective. -/
def execCollectiveComplete (s : State) : Out :=
  let (die, key) := (s.arg 0, s.arg 1)
  match s.coll die key with
  | none => .next s
  | some c =>
    if !c.ended || (s.collPeers c).any (fun e => !e.2.ended) then .next s
    else if !s.released (collAgent die) 7 then .next (s.dueOne .collectiveComplete [die, key])
    else
      let s := s.modDie die (fun d => { d with coll := d.coll.filter (fun x => x.key != key) })
      let res := BitVec.ofNat 64 (c.cursor % 2 ^ 40 * 2 ^ 24 + c.cause % 256)
      .next (s.completeCtxJob c.ctx c.core c.job res (c.cause != 0) false (s.view (collAgent die)))

end Sys2Proof.Machine
end

