-- ==== Sys2Proof/Machine/CopyUnit.lean ====
section
/-! DEFINITION. The copy unit (12 R322 to R329; 04 R103 to R106; 05 R132; 14 R369, R370): starting a chain, its entries one
burst a step, its faults and its end. -/

namespace Sys2Proof.Machine

/-! Chains (12 R322, R327). -/

/-- A chain of a cluster by its number. -/
def State.chain (s : State) (cluster id : Nat) : Option Chain := (s.cluster cluster).chains.find? (fun c => c.id == id)

/-- The state with a chain replaced. -/
def State.setChain (s : State) (cluster : Nat) (c : Chain) : State :=
  s.modCluster cluster (fun k => { k with chains := k.chains.map (fun d => if d.id == c.id then c else d) })

/-- The lowest number that no chain of a cluster has. -/
def Cluster.chainId (k : Cluster) : Nat :=
  ((List.range 128).find? (fun i => !(k.chains ++ k.chainQ).any (fun c => c.id == i))).getD 128

/-- The agent that walks a chain as it reaches memory: bursts go by aligned 8 bytes (05 R110, R113). -/
def Chain.eng (c : Chain) (cluster : Nat) : Eng := { agent := chainAgent cluster c.id, ctx := c.ctx, cluster := cluster, unit := 8 }

/-- A chain put into its unit's queue (12 R322). -/
def State.startChain (s : State) (ctx core slot head : Nat) (owner : ChainOwner) (inGlobal : Bool) (view : List Nat) : State :=
  let cl := clusterOf core
  let c : Chain := ⟨(s.cluster cl).chainId, ctx, core, slot, owner, inGlobal, head, 0, 0, [], (s.ctx ctx).page.dpat,
    (s.slotAt core slot).infm, view, false, none⟩
  (s.modCluster cl (fun k => { k with chainQ := k.chainQ ++ [c] })).dueOne .chainStart [cl]

/-- The JRES of a chain (12 R327). -/
def chainRes (cause entry cursor : Nat) : Word :=
  BitVec.ofNat 64 (cursor % 2 ^ 40 * 2 ^ 24 + entry % 65536 * 256 + cause % 256)

/-- A chain ended with a cause, 0 for `STOP` (12 R326, R327): its job completed, or its graph node. Its completion is a release
at `sys` that carries the chain's view, and waits for its writes: the chain keeps its cause until then (05 R116, R129). -/
def State.endChain (s : State) (cluster : Nat) (c : Chain) (cause : Nat) : State :=
  let (code, s) := s.causeOf cause
  if !s.released (chainAgent cluster c.id) 7 then
    (s.setChain cluster { c with ending := some code }).dueOne .stop [cluster, c.id]
  else
  let view := s.view (chainAgent cluster c.id)
  let s := s.modCluster cluster (fun k => { k with chains := k.chains.filter (fun d => d.id != c.id) })
  let s := s.dueOne .chainStart [cluster]
  match c.owner with
  | .job id => s.completeCtxJob c.ctx c.core id (chainRes code c.entry c.cursor) (cause != 0) false view
  | .graph q frame node =>
    let s := s.modHq q (fun x => match x.busy with
      | .graph r => { x with busy := .graph { r with
          frames := r.frames.modify frame ⟨none, 0, .empty, .empty⟩ (fun f => { f with nodes := f.nodes.set node .finished }),
          status := if cause ≠ 0 ∧ r.ending.isNone then 1 else r.status,
          ending := if cause ≠ 0 ∧ r.ending.isNone then some node else r.ending } }
      | _ => x)
    let s := s.joinView (queueAgent q) view
    s.dueOne .graphFinish [q]

/-- An entry's step (12 R324). -/
def entryStep (opc : Nat) : Option Instr :=
  match opc with
  | 0 => some .stop
  | 1 => some .copy
  | 2 => some .deal
  | 3 => some .gath
  | 4 => some .loopEntry
  | 5 => some .cond
  | 6 => some .jump
  | 7 => some .flag
  | 8 => some .note
  | _ => none

/-- The four dwords of a chain's present entry, or its fault (12 R324, R326). -/
def State.chainEntry (s : State) (cluster : Nat) (c : Chain) : Except Nat (List Nat × State) :=
  if c.inGlobal then
    (s.engRead (c.eng cluster) (c.head + 32 * c.entry) 0 32).map (fun r => (dwordsOf 4 r.1, r.2))
  else
    let off := c.head + 32 * c.entry
    if (s.core c.core).force.lmtop < off + 32 then .error Cause.bounds.code
    else (s.engRead (c.eng cluster) (localDesc c.core off) 0 32).map (fun r => (dwordsOf 4 r.1, r.2))

/-- A chain's next entry read and its step made due (05 R132). -/
def State.chainNext (s : State) (cluster : Nat) (c : Chain) : State :=
  match s.chainEntry cluster c with
  | .error f => s.endChain cluster c f
  | .ok (e, s) =>
    match entryStep (e.getD 0 0 % 256) with
    | some i => s.dueOne i [cluster, c.id]
    | none => s.endChain cluster c Cause.illegal.code

/-- A chain sent to an entry. -/
def State.chainGo (s : State) (cluster : Nat) (c : Chain) (entry : Nat) : State :=
  let c := { c with entry := entry, cursor := 0 }
  (s.setChain cluster c).chainNext cluster c

/-- The unit begins the chain at the head of its queue (12 R322; 05 R132). Arguments: cluster. -/
def execChainStart (s : State) : Out :=
  let cl := s.arg 0
  let k := s.cluster cl
  match k.chainQ with
  | [] => .next s
  | c :: t =>
    if Config.chainsWalked ≤ k.chains.length then .next s
    else
      let s := s.modCluster cl (fun k => { k with chains := k.chains ++ [c], chainQ := t })
      .next (((s.startView (chainAgent cl c.id) c.view).chainNext cl c).dueOne .chainStart [cl])

/-- A chain whose context is in its switch window stops before a burst whose destination is GLOBAL or HOSTWIN, and any
chain that has been told to (14 R369, R370). -/
def State.chainStops (s : State) (c : Chain) (away : Bool) : Bool :=
  c.stopped || (away && (match (s.ctx c.ctx).sw with
    | .window _ _ => true
    | _ => false))

/-- A chain stopped at its cursor for a switch-out, its JRES with the place (11 R287; 12 R327; 14 R369). -/
def State.stopChain (s : State) (cluster : Nat) (c : Chain) : State :=
  let s := s.setChain cluster { c with stopped := true }
  let s := match c.owner with
    | .job id => s.modCore c.core (fun k => k.recordStop id (chainRes 0 c.entry c.cursor))
    | .graph _ _ _ => s
  s.dueOne .switchOutComplete [c.ctx]

/-- One step of a chain at an entry of a kind: `away` says whether the entry writes GLOBAL or HOSTWIN, `f` is the entry's
work, which answers with the fault or the state that follows. The entry is read once to choose its step and again at each (log
86). -/
def State.chainStep (s : State) (opc : Nat) (away : State → Chain → List Nat → Bool)
    (f : State → Nat → Chain → List Nat → Except (Nat × Chain) State) : Out :=
  let (cl, id) := (s.arg 0, s.arg 1)
  match s.chain cl id with
  | none => .next s
  | some c =>
    match c.ending with
    | some code => .next (s.endChain cl c code)
    | none =>
      match s.chainEntry cl c with
      | .error e => .next (s.endChain cl c e)
      | .ok (e, s) =>
        if e.getD 0 0 % 256 ≠ opc then .next (s.chainNext cl c)
        else if s.chainStops c (away s c e) then .next (s.stopChain cl c)
        else
          match f s cl c e with
          | .error (x, c) => .next (s.endChain cl c x)
          | .ok s => .next s

/-- An entry that writes neither GLOBAL nor HOSTWIN. -/
def stays (_ : State) (_ : Chain) (_ : List Nat) : Bool := false

/-- The entry's dwords hold no reserved bit outside the masks given (12 R324). -/
def resClear (e : List Nat) (masks : List Nat) : Bool := (e.zip masks).all (fun p => p.1 &&& p.2 == p.1)

/-! Entries (12 R326). -/

/-- `STOP`. Arguments: cluster, chain. -/
def execStop (s : State) : Out :=
  s.chainStep 0 stays (fun s cl c e =>
    if resClear e [0xFF, 0, 0, 0] then .ok (s.endChain cl c 0) else .error (Cause.resfield.code, c))

/-- `JUMP`. Arguments: cluster, chain. -/
def execJump (s : State) : Out :=
  s.chainStep 6 stays (fun s cl c e =>
    if resClear e [0xFFFF00FF, 0, 0, 0] then .ok (s.chainGo cl c (bitsOf (e.getD 0 0) 16 16))
    else .error (Cause.resfield.code, c))

/-- `COND`. Arguments: cluster, chain. -/
def execCond (s : State) : Out :=
  s.chainStep 5 stays (fun s cl c e =>
    let d0 := e.getD 0 0
    let d1 := e.getD 1 0
    let test := bitsOf d0 32 3
    if !resClear e [0x7FFFF00FF, 2 ^ 64 - 1, 2 ^ 64 - 1, 0] || 3 < test then .error (Cause.resfield.code, c)
    else
      match descSpace d1 with
      | .error x => .error (x, c)
      | .ok _ =>
        if d1 % 8 ≠ 0 then .error (Cause.align.code, c)
        else
          match s.engRead (c.eng cl) d1 0 8 with
          | .error x => .error (x, c)
          | .ok (bs, s) =>
            let x := leNat bs
            let y := e.getD 2 0
            let holds := match test with
              | 0 => x == y
              | 1 => x != y
              | 2 => decide (x < y)
              | _ => decide (y ≤ x)
            .ok (s.chainGo cl c (if holds then bitsOf d0 16 16 else c.entry + 1)))

/-- `LOOP`: the count of an active loop, at most four active, and the advance of a record's origins. Arguments: cluster,
chain. -/
def execLoopEntry (s : State) : Out :=
  s.chainStep 4 stays (fun s cl c e =>
    let d0 := e.getD 0 0
    let tlru := e.getD 1 0 % 65536
    if !resClear e [0xFFFFFFFFFFFF00FF, 0xFFFF, 2 ^ 64 - 1, 0] then .error (Cause.resfield.code, c)
    else if tlru ≠ 0xFFFF ∧ tlru % 32 ≠ 0 then .error (Cause.align.code, c)
    else
      let active := c.loops.find? (fun l => l.1 == c.entry)
      if active.isNone && 4 ≤ c.loops.length then .error (Cause.resfield.code, c)
      else
        let left := match active with
          | some l => l.2
          | none => max (bitsOf d0 32 32) 1 - 1
        let others := c.loops.filter (fun l => l.1 != c.entry)
        if left = 0 then .ok (s.chainGo cl { c with loops := others } (c.entry + 1))
        else
          let c' := { c with loops := (c.entry, left - 1) :: others }
          let target := bitsOf d0 16 16
          if tlru = 0xFFFF then .ok (s.chainGo cl c' target)
          else
            let d := localDesc c.core (tlru + 48)
            match s.engRead (c.eng cl) d 0 8 with
            | .error x => .error (x, c)
            | .ok (bs, s) =>
              let org := leNat bs
              let add := e.getD 2 0
              let new := (List.range 4).foldl (fun n i => n + (bitsOf org (16 * i) 16 + bitsOf add (16 * i) 16) % 65536 * 2 ^ (16 * i)) 0
              match s.engWrite (c.eng cl) d 0 (leBytes 8 new) with
              | .error x => .error (x, c)
              | .ok s => .ok (s.chainGo cl c' target))

/-- `FLAG` (04 R106): a release at `pod`, which waits until the chain's payload has performed and carries it. Arguments: cluster,
chain. -/
def execFlag (s : State) : Out :=
  s.chainStep 7 stays (fun s cl c e =>
    let d := e.getD 1 0
    let n := if bitsOf (e.getD 0 0) 8 1 = 1 then 8 else 4
    if !resClear e [0x1FF, 2 ^ 64 - 1, 2 ^ 64 - 1, 0] then .error (Cause.resfield.code, c)
    else
      match descSpace d with
      | .error x => .error (x, c)
      | .ok sp =>
        if sp ≠ 1 then .error (Cause.space.code, c)
        else if d % n ≠ 0 then .error (Cause.align.code, c)
        else if !s.released (chainAgent cl c.id) 6 then .ok (s.dueOne .flag [cl, c.id])
        else
          match s.engWrite (c.eng cl) d 0 (leBytes n (e.getD 2 0)) [(6, s.view (chainAgent cl c.id))] with
          | .error x => .error (x, c)
          | .ok s => .ok (s.chainGo cl c (c.entry + 1)))

/-- `NOTE` (05 R127): a one-unit message, a release at the smallest scope that holds its receiver; it waits while the core's
outbound port is full. Arguments: cluster, chain. -/
def execNote (s : State) : Out :=
  s.chainStep 8 stays (fun s cl c e =>
    let hdr := e.getD 1 0
    if !resClear e [0xFF, 2 ^ 43 - 1, 2 ^ 64 - 1, 2 ^ 64 - 1] || 3 < bitsOf hdr 20 3 then .error (Cause.resfield.code, c)
    else if Config.portDepth ≤ (s.core c.core).port.length ||
        !s.released (chainAgent cl c.id) (s.pairScope (chainAgent cl c.id) (slotAgent (bitsOf hdr 0 20) 0)) then
      .ok (s.dueOne .note [cl, c.id])
    else
      let pay := (Vector.replicate 4 (0 : VWord)).set 0 (BitVec.ofNat 512 (e.getD 2 0 + e.getD 3 0 * 2 ^ 64))
      let s := (s.post c.core (chainAgent cl c.id) 0 (BitVec.ofNat 64 hdr) c.infm pay
        (s.view (chainAgent cl c.id))).1
      .ok (s.chainGo cl c (c.entry + 1)))

/-- A burst of a byte copy within one 256-byte block of its destination. -/
def burstLen (dst left : Nat) : Nat := min left (256 - dst % 256)

/-- `DEAL` (04 R104, R105): the burst at the cursor; each block's target is checked before its first byte. Arguments:
cluster, chain. -/
def execDeal (s : State) : Out :=
  s.chainStep 2 stays (fun s cl c e =>
    let d := e.getD 1 0
    let len := e.getD 2 0
    let pat := (c.dpat.get (Fin.ofNat 4 (bitsOf (e.getD 0 0) 8 2))).toNat
    let cores := (List.range 8).filter (fun i => bitsOf pat (48 + i) 1 == 1)
    let blk := 64 * 2 ^ bitsOf pat 0 4
    let dbase := bitsOf pat 16 16
    let stride := bitsOf pat 32 16
    if !resClear e [0x3FF, 2 ^ 64 - 1, 2 ^ 32 - 1, 0] || len = 0 || cores.isEmpty || 6 < bitsOf pat 0 4 ||
        dbase % 64 ≠ 0 || stride % 64 ≠ 0 then .error (Cause.resfield.code, c)
    else
      match descSpace d with
      | .error x => .error (x, c)
      | .ok _ =>
        let k := c.cursor / blk
        let core := cores.getD (k % cores.length) 0
        let off := dbase + k / cores.length * stride
        let whole := min blk (len - k * blk)
        let at_ := c.cursor % blk
        match s.engLocal c.ctx (cl * 8 + core) off whole true with
        | .error x => .error (x, c)
        | .ok _ =>
          let n := burstLen (off + at_) (whole - at_)
          match s.engRead (c.eng cl) d c.cursor n with
          | .error x => .error (x, c)
          | .ok (bs, s) =>
            match s.engWrite (c.eng cl) (localDesc core (off + at_)) 0 bs with
            | .error x => .error (x, c)
            | .ok s =>
              if len ≤ c.cursor + n then .ok (s.chainGo cl c (c.entry + 1))
              else .ok ((s.setChain cl { c with cursor := c.cursor + n }).dueOne .deal [cl, c.id]))

/-- A destination descriptor that is not LOCAL. -/
def isAway (d : Nat) : Bool := d / 2 ^ 61 % 8 != 1

/-- `GATH`: one row a step. Arguments: cluster, chain. -/
def execGath (s : State) : Out :=
  s.chainStep 3 (fun _ _ e => isAway (e.getD 2 0)) (fun s cl c e =>
    let d0 := e.getD 0 0
    let rowb := bitsOf d0 16 16
    let count := bitsOf d0 32 32
    let isz := if bitsOf (e.getD 3 0) 16 1 = 1 then 4 else 2
    let idx := e.getD 3 0 % 65536
    if !resClear e [0xFFFFFFFFFFFF00FF, 2 ^ 64 - 1, 2 ^ 64 - 1, 0x1FFFF] || rowb = 0 then .error (Cause.resfield.code, c)
    else
      match descSpace (e.getD 1 0), descSpace (e.getD 2 0) with
      | .error x, _ => .error (x, c)
      | _, .error x => .error (x, c)
      | .ok _, .ok _ =>
        if count ≤ c.cursor then .ok (s.chainGo cl c (c.entry + 1))
        else
          match s.engRead (c.eng cl) (localDesc c.core idx) (isz * c.cursor) isz with
          | .error x => .error (x, c)
          | .ok (ib, s) =>
            match s.engRead (c.eng cl) (e.getD 1 0) (leNat ib * rowb) rowb with
            | .error x => .error (x, c)
            | .ok (bs, s) =>
              match s.engWrite (c.eng cl) (e.getD 2 0) (c.cursor * rowb) bs with
              | .error x => .error (x, c)
              | .ok s =>
                if count ≤ c.cursor + 1 then .ok (s.chainGo cl c (c.entry + 1))
                else .ok ((s.setChain cl { c with cursor := c.cursor + 1 }).dueOne .gath [cl, c.id]))

/-! `COPY` (12 R328, R329). -/

/-- A layout record (12 R328). -/
structure Layout where
  src  : Nat
  dst  : Nat
  size : List Nat
  sst  : List Nat
  dstr : List Nat
  org  : List Int
  wsz  : List Nat
  bil  : Nat
  fmode : Nat
  esz  : Nat
  fill : Nat
  deriving DecidableEq, Repr

/-- The four 16-bit fields of a dword. -/
def halves (d : Nat) : List Nat := (List.range 4).map (fun i => bitsOf d (16 * i) 16)

/-- A record of twelve dwords, or the fault of its fields (12 R328). -/
def layoutOf (r : List Nat) : Except Nat Layout :=
  let g (i : Nat) : Nat := r.getD i 0
  let e := 2 ^ bitsOf (g 8) 32 3
  let x : Layout := ⟨g 0, g 1, halves (g 2), [e, bitsOf (g 3) 0 32, bitsOf (g 3) 32 32, bitsOf (g 4) 0 32],
    [e, bitsOf (g 4) 32 32, bitsOf (g 5) 0 32, bitsOf (g 5) 32 32], (halves (g 6)).map (fun h => sxNat h 16), halves (g 7),
    bitsOf (g 8) 40 4, bitsOf (g 8) 36 2, bitsOf (g 8) 32 3, bitsOf (g 8) 0 32⟩
  match descSpace x.src, descSpace x.dst with
  | .error c, _ => .error c
  | _, .error c => .error c
  | .ok _, .ok sp =>
    if x.size.contains 0 || x.wsz.contains 0 || 3 < x.esz || x.fmode = 3 || (x.bil ≠ 0 && (x.esz == 3 || sp != 1)) ||
        bitsOf (g 8) 44 20 ≠ 0 || bitsOf (g 8) 38 2 ≠ 0 || bitsOf (g 8) 35 1 ≠ 0 || g 9 ≠ 0 || g 10 ≠ 0 || g 11 ≠ 0 then
      .error Cause.resfield.code
    else .ok x

/-- The window coordinates of an element, dimension 0 fastest (12 R329). -/
def windowAt (wsz : List Nat) (n : Nat) : List Nat :=
  (wsz.foldl (fun (acc : List Nat × Nat) w => (acc.1 ++ [acc.2 % w], acc.2 / w)) ([], n)).1

/-- A weighted sum. -/
def dotNat (a b : List Nat) : Nat := (a.zip b).foldl (fun n p => n + p.1 * p.2) 0

/-- The destination address of an element, from the descriptor's address part: BIL flips bits 5:2 (12 R329). -/
def Layout.dstOf (x : Layout) (w : List Nat) : Nat :=
  let a := descAddr x.dst + dotNat w x.dstr
  if x.bil = 0 then a else Nat.xor a (w.getD 1 0 * x.bil % 16 * 4)

/-- Where an element's value comes from: an address beyond the source's address part, the FILL value, or no write. -/
def Layout.srcOf (x : Layout) (w : List Nat) : Option (Option Nat) :=
  let c := (x.org.zip w).map (fun p => p.1 + (p.2 : Int))
  let inside := (c.zip x.size).all (fun p => decide (0 ≤ p.1) && decide (p.1 < (p.2 : Int)))
  let clamped := (c.zip x.size).map (fun p => (max 0 (min p.1 ((p.2 : Int) - 1))).toNat)
  if inside || x.fmode = 2 then some (some (dotNat clamped x.sst)) else if x.fmode = 0 then some none else none

/-- The elements of a chain's window. -/
def Layout.total (x : Layout) : Nat := x.wsz.foldl (fun n w => n * w) 1

/-- The elements of the burst at a cursor: at most 256 bytes within one 256-byte block of the destination (12 R327). -/
def Layout.burst (x : Layout) (block : Nat) : Nat → Nat → List (Nat × Nat × Option (Option Nat))
  | 0, _ => []
  | k + 1, n =>
    if x.total ≤ n then []
    else
      let w := windowAt x.wsz n
      let d := x.dstOf w
      if d / 256 = block then (n, d, x.srcOf w) :: Layout.burst x block k (n + 1) else []

/-- The checks of an element before its burst performs (12 R325, R329). -/
def State.elemFault (s : State) (c : Chain) (cl : Nat) (x : Layout) (e : Nat × Nat × Option (Option Nat)) : Option Nat :=
  let z := 2 ^ x.esz
  match e.2.2 with
  | none => none
  | some src =>
    if e.2.1 % z ≠ 0 then some Cause.align.code
    else
      match s.engPlaces (c.eng cl) (x.dst - descAddr x.dst) e.2.1 z true with
      | .error f => some f
      | .ok _ =>
        match src with
        | none => none
        | some a =>
          if (descAddr x.src + a) % z ≠ 0 then some Cause.align.code
          else
            match s.engPlaces (c.eng cl) x.src a z false with
            | .error f => some f
            | .ok _ => none

/-- What a burst has read of one aligned 8 bytes of its source: where it begins, the bytes, and their places (05 R113). -/
structure BurstRead where
  at_    : Nat
  bytes  : List Byte
  places : List (EPlace × Nat)
  deriving DecidableEq, Repr

/-- Two places share a byte. -/
def EPlace.meets (p q : EPlace × Nat) : Bool :=
  match p.1, q.1 with
  | .mem a _, .mem b _ => decide (a < b + q.2) && decide (b < a + p.2)
  | .host a, .host b => decide (a < b + q.2) && decide (b < a + p.2)
  | .mem _ _, .host _ => false
  | .host _, .mem _ _ => false

/-- The bytes of the sources of a burst within the aligned 8 bytes that hold the address of one: the first and the count. -/
def Layout.span (x : Layout) (es : List (Nat × Nat × Option (Option Nat))) (a : Nat) : Nat × Nat :=
  let l := (es.filterMap (fun e => e.2.2.join)).filter (fun b => (descAddr x.src + b) / 8 == (descAddr x.src + a) / 8)
  let lo := l.foldl min a
  (lo, l.foldl max a + 2 ^ x.esz - lo)

/-- The source bytes of an element, read as one unit with those of the burst in its aligned 8 bytes, unless the burst has written
there since (05 R113; 12 R329). -/
def State.copySource (s : State) (c : Chain) (cl : Nat) (x : Layout) (es : List (Nat × Nat × Option (Option Nat)))
    (r : Option BurstRead) (a : Nat) : Except Nat (BurstRead × State) :=
  let (lo, n) := x.span es a
  match r with
  | some r => if r.at_ = lo ∧ r.bytes.length = n then .ok (r, s) else fresh lo n
  | none => fresh lo n
where
  fresh (lo n : Nat) : Except Nat (BurstRead × State) :=
    match s.engPlaces (c.eng cl) x.src lo n false with
    | .error f => .error f
    | .ok ps => (s.engRead (c.eng cl) x.src lo n).map (fun q => (⟨lo, q.1, ps⟩, q.2))

/-- Bytes of an element written, and what the burst has read forgotten where they meet it. -/
def State.copyPut (s : State) (c : Chain) (cl : Nat) (x : Layout) (r : Option BurstRead) (d : Nat) (bs : List Byte) :
    Except Nat (Option BurstRead × State) :=
  let base := x.dst - descAddr x.dst
  let ps := match s.engPlaces (c.eng cl) base d bs.length true with
    | .error _ => []
    | .ok ps => ps
  let r := r.filter (fun r => !r.places.any (fun p => ps.any (EPlace.meets p)))
  (s.engWrite (c.eng cl) base d bs).map (fun s => (r, s))

/-- One element copied (12 R329). -/
def State.copyElem (s : State) (c : Chain) (cl : Nat) (x : Layout) (es : List (Nat × Nat × Option (Option Nat)))
    (r : Option BurstRead) (e : Nat × Nat × Option (Option Nat)) : Except Nat (Option BurstRead × State) :=
  let z := 2 ^ x.esz
  match e.2.2 with
  | none => .ok (r, s)
  | some none => s.copyPut c cl x r e.2.1 (leBytes z (x.fill % 2 ^ (8 * z)))
  | some (some a) =>
    match s.copySource c cl x es r a with
    | .error f => .error f
    | .ok (q, s) => s.copyPut c cl x (some q) e.2.1 ((q.bytes.drop (a - q.at_)).take z)

/-- The dwords of a layout record at a local offset of a chain's core. -/
def State.layoutAt (s : State) (cl : Nat) (c : Chain) (tlr : Nat) : Except Nat (Layout × State) :=
  match s.engRead (c.eng cl) (localDesc c.core tlr) 0 96 with
  | .error f => .error f
  | .ok (bs, s) => (layoutOf (dwordsOf 12 bs)).map (fun x => (x, s))

/-- Whether a `COPY` writes GLOBAL or HOSTWIN. -/
def copyAway (s : State) (c : Chain) (e : List Nat) : Bool :=
  match s.layoutAt (clusterOf c.core) c (e.getD 1 0 % 65536) with
  | .ok (x, _) => isAway x.dst
  | .error _ => false

/-- `COPY`: the burst at the cursor, checked whole before any element performs. Arguments: cluster, chain. -/
def execCopy (s : State) : Out :=
  s.chainStep 1 copyAway (fun s cl c e =>
    let tlr := e.getD 1 0
    if !resClear e [0xFF, 0xFFFF, 0, 0] then .error (Cause.resfield.code, c)
    else if tlr % 32 ≠ 0 then .error (Cause.align.code, c)
    else
      match s.layoutAt cl c tlr with
      | .error f => .error (f, c)
      | .ok (x, s) =>
        let block := x.dstOf (windowAt x.wsz c.cursor) / 256
        let es := x.burst block (256 / 2 ^ x.esz) c.cursor
        match es.findSome? (s.elemFault c cl x) with
        | some f => .error (f, c)
        | none =>
          let first := s.nextWrite
          match es.foldl (fun (acc : Except Nat (Option BurstRead × State)) el => match acc with
              | .error f => .error f
              | .ok (r, s) => s.copyElem c cl x es r el) (.ok (none, s)) with
          | .error f => .error (f, c)
          | .ok (_, s) =>
            let s := s.coalesce (chainAgent cl c.id) 8 ((List.range (s.nextWrite - first)).drop 1 |>.map (fun i => first + i))
            let n := c.cursor + es.length
            if x.total ≤ n then .ok (s.chainGo cl c (c.entry + 1))
            else .ok ((s.setChain cl { c with cursor := n }).dueOne .copy [cl, c.id]))

/-- A chain still carried on 2 ms after ST stops at its next burst (14 R370). Arguments: cluster, chain. -/
def execChainCarryOnStop (s : State) : Out :=
  let (cl, id) := (s.arg 0, s.arg 1)
  match s.chain cl id with
  | none => .next s
  | some c =>
    match (s.ctx c.ctx).sw with
    | .window st _ =>
      if st + 2000000 ≤ s.now then .next (s.stopChain cl c)
      else .next s
    | _ => .next s

/-! Starting a chain (12 R322, R323). -/

/-- `copygo` (12 R322): the head is checked as a 32-byte load of LOCAL. -/
def execCopygo (j : BitVec 5) (cap : BitVec 4) (s : State) : Out :=
  let c := s.rdC cap
  let ea := c.cursor
  if s.me.timed then s.trapOut .illegal 0 0
  else
    match check26 c (fun sp => sp == 1) (needed .load false) ea 32 ea 32 with
    | some f => s.trapOut f (wordOfInt ea) (descr .load 32 cap.toNat)
    | none =>
      match s.xlat 1 ea.toNat 32 .load with
      | .fault f => s.trapOut f (wordOfInt ea) (descr .load 32 cap.toNat)
      | _ =>
        match s.myCore.jobSlot with
        | none => .next s.stall
        | some i =>
          if (s.cluster (clusterOf s.cur.core)).chainsFull then .next s.stall
          else
            let (id, k) := s.takeJob s.cur.core i 6
            let s := (s.setCore s.cur.core k).wrG j (BitVec.ofNat 64 id.toNat)
            .next (s.startChain s.myCtxId s.cur.core s.cur.slot ea.toNat (.job id) false (s.view s.myAgent))

/-- A kick of the copy unit that has passed its checks (12 R323): its chain queued, KICKID written unless it was deferred; made
due again while the job table or the unit's queue is full. `view` is what the store carries as a release (05 R126). -/
def State.kickChain (s : State) (core slot head deferred : Nat) (view : List Nat) : State :=
  match (if (s.cluster (clusterOf core)).chainsFull then none else (s.core core).jobSlot) with
  | none => s.dueOne .cukick ([core, slot, head, deferred] ++ view)
  | some i =>
    let (id, k) := s.takeJob core i 6
    let s := (s.setCore core k).modSlotAt core slot (fun x => if deferred = 1 then x else { x with kickId := some id })
    s.startChain (s.core core).ctx core slot head (.job id) false view

/-- A store to CUKICK starts a chain (12 R323): its checks have passed at the store. Arguments: core, slot, value; a fourth of
1 marks a deferred kick, which writes no KICKID; then what the store carries. -/
def execCukick (s : State) : Out :=
  .next (s.kickChain (s.arg 0) (s.arg 1) (s.arg 2 % 65536) (s.arg 3) (s.args.drop 4))

/-! The scale keeper (12 R320, R321). -/

/-- `skeep` (12 R320): a release and an acquire of the keeper's place. -/
def execSkeep (a : BitVec 5) (s : State) : Out :=
  if s.me.timed then s.trapOut .illegal 0 0
  else
    let cl := clusterOf s.cur.core
    let old := match (s.cluster cl).engine.keeper with
      | some k => BitVec.ofNat 64 (k % 8)
      | none => BitVec.allOnes 64
    let seen := (s.cluster cl).engine.keeperView
    let s := s.modCluster cl (fun k => { k with engine := { k.engine with
      keeper := some s.cur.core, keeperView := s.view s.myAgent } })
    .next ((s.joinView s.myAgent seen).wrG a old)

/-- The scale that `sksum` writes (12 R321): nine bits at [8:0], or the NaN mark. -/
def scaleSum (x : Nat) : BitVec 16 :=
  let a := x % 256
  let b := bitsOf x 8 8
  if a = 255 ∨ b = 255 then 0x8000 else BitVec.ofNat 16 ((BitVec.ofInt 9 ((a : Int) - 127 + ((b : Int) - 127))).toNat)

/-- `sksum` (12 R321). -/
def execSksum (a b : BitVec 5) (s : State) : Out :=
  let cl := clusterOf s.cur.core
  if s.me.timed || (s.cluster cl).engine.keeper ≠ some s.cur.core then s.trapOut .illegal 0 0
  else
    let j := (s.rdG a).toNat % 1024
    .next (s.modCluster cl (fun k => { k with engine := { k.engine with scale := k.engine.scale.set j (scaleSum (s.rdG b).toNat) } }))

end Sys2Proof.Machine
end

