-- ==== Sys2Proof/Machine/Grid.lean ====
section
/-! DEFINITION. Grids and blocks (06 R158 to R167; 12 R333 to R337; 13 R351; 20 R394 to R396): launching, dealing, placing,
retiring, faults, triggers, completion and cancellation. -/

namespace Sys2Proof.Machine

/-! Launch records (12 R333, R334). -/

/-- A dword of a launch record. -/
def recD (r : Vector Word 8) (i : Nat) : Nat := (r.get (Fin.ofNat 8 i)).toNat

/-- HIDX, the shape, CANF, ILINES, NBLK, CREC and TRIG. -/
def recHidx (r : Vector Word 8) : Nat := bitsOf (recD r 0) 0 10
def recCols (r : Vector Word 8) : Nat := bitsOf (recD r 0) 10 4 + 1
def recRows (r : Vector Word 8) : Nat := bitsOf (recD r 0) 14 4 + 1
def recCanf (r : Vector Word 8) : Bool := bitsOf (recD r 0) 18 1 == 1
def recIlines (r : Vector Word 8) : Nat := bitsOf (recD r 1) 32 10
def recNblk (r : Vector Word 8) : Nat := bitsOf (recD r 1) 0 32
def recCrec (r : Vector Word 8) : Nat := bitsOf (recD r 2) 0 57
def recTrig (r : Vector Word 8) : Nat := bitsOf (recD r 3) 0 57

/-- The bits of each dword that hold fields. -/
def recMask (i : Nat) : Nat :=
  match i with
  | 0 => 2 ^ 19
  | 1 => 2 ^ 42
  | 2 => 2 ^ 57
  | 3 => 2 ^ 57
  | _ => 2 ^ 64

/-- The first check that a launch record fails, with XVAL and XVAL2 (12 R334). -/
def recordFault (r : Vector Word 8) (fromLocal : Bool) : Option (Cause × Nat × Nat) :=
  match (List.range 8).find? (fun i => decide (recMask i ≤ recD r i)) with
  | some i => some (.resfield, i, recD r i)
  | none =>
    if fromLocal && recIlines r != 0 then some (.resfield, 1, recD r 1)
    else if recHidx r = 1023 then some (.illegal, recD r 0, 0)
    else if recNblk r = 0 then some (.illegal, recD r 1, 1)
    else if recCrec r % 64 ≠ 0 then some (.align, recCrec r, 2)
    else if recTrig r % 8 ≠ 0 then some (.align, recTrig r, 3)
    else none

/-- A launch handed to the pod dispatcher (06 R161): its grid id is the count of the context (12 R334). -/
def State.launch (s : State) (ctx : Nat) (l : Launch) : Nat × State :=
  let c := s.ctx ctx
  ⟨c.gridCount + c.launches.length, (s.modCtx ctx (fun c => { c with launches := c.launches ++ [l] })).dueOne .launchAccept [ctx]⟩

/-- `glaunch` (12 R334): in a speculative activation only its load is checked, and the launch leaves at commit. -/
def execGlaunch (j : BitVec 5) (cap : BitVec 4) (s : State) : Out :=
  let c := s.rdC cap
  let ea := c.cursor
  let xv2 := descr .load 64 cap.toNat
  match s.me.spec, s.me.actKey with
  | true, some k =>
    (match check26 c (fun sp => sp == 0 || sp == 1) (needed .load false) ea 64 ea 64 with
     | some f => s.trapOut f (wordOfInt ea) xv2
     | none =>
       match s.xlat c.space ea.toNat 64 .load with
       | .fault f => s.trapOut f (wordOfInt ea) xv2
       | .miss sp vpn => .next (s.parkWalk [(sp, vpn)])
       | .ok _ =>
         match s.defer k xv2 (.launch c c.space ea.toNat) with
         | .error e => .next e
         | .ok s => .next (s.wrG j (BitVec.allOnes 64)))
  | _, _ =>
    match s.record64 cap with
    | .error e => .next e
    | .ok (r, s) =>
      match recordFault r (c.space == 1) with
      | some (f, a, b) => s.trapOut f (BitVec.ofNat 64 a) (BitVec.ofNat 64 b)
      | none =>
        let (id, s) := s.launch s.myCtxId ⟨r, ea.toNat, none, none, s.view s.myAgent, false, false⟩
        .next (s.wrG j (BitVec.ofNat 64 (id % 2 ^ 32)))

/-! Records of the dispatcher (06 R165; 12 R334). -/

/-- The cluster through which the pod dispatcher of a context reaches memory. -/
def State.podCluster (s : State) (ctx : Nat) : Nat := (s.ctx ctx).home * 512

/-- An agent of the home package, the firmware's for a host queue or the dispatcher's, as it reaches a context's memory. -/
def State.podEng (s : State) (agent ctx : Nat) : Eng :=
  { agent := agent, ctx := ctx, cluster := s.podCluster ctx, unit := 8, tlb := false }

/-- Bytes written at their homes as releases at `sys` that carry a view, to places that have been checked. -/
def State.recordPut (s : State) (e : Eng) (view : List Nat) : List (EPlace × Nat) → List Byte → State
  | [], _ => s
  | (.mem a k, n) :: t, bs =>
    State.recordPut (s.homeWrite e.agent [(7, view)] none (fun _ => false) a (bs.take n) none k) e view t (bs.drop n)
  | (.host a, n) :: t, bs => State.recordPut (s.postHost (dieOf (e.cluster * 8)) a (bs.take n)) e view t (bs.drop n)

/-- Bytes written to GLOBAL by the firmware or the dispatcher as a release at `sys` that carries a view (06 R164, R165); a write
that cannot be made is dropped and counted in DERR as RECFAULT (12 R334). -/
def State.recordWrite (s : State) (agent ctx a align : Nat) (bs : List Byte) (view : List Nat) : State :=
  let e := s.podEng agent ctx
  match (if a % align = 0 ∧ a + bs.length ≤ 2 ^ 57 then s.engPlaces e a 0 bs.length true else .error 0) with
  | .ok ps => (s.engTouched e a 0 bs.length true).recordPut e view ps bs
  | .error f => (s.causeOf f).2.countDrop ctx 5 (BitVec.ofNat 64 a)

/-- The STATUS of a grid's record (06 R165). -/
def Grid.status (g : Grid) : Nat :=
  if g.destroyed then 3 else if g.launch.refused then 4 else if 0 < g.nfault then 1 else if g.cancelled then 2 else 0

/-- The sixty-four bytes of a grid's record (06 R165). -/
def Grid.record (g : Grid) : List Byte :=
  let (b, c, x, v, p) := match g.fault with
    | some f => (f.block, f.core % 2 ^ 20, f.cause, f.val, f.pc)
    | none => (0, 0, 0, 0, 0)
  leBytes 8 g.status ++ leBytes 8 (g.nfault * 2 ^ 32 + g.ndone) ++ leBytes 8 (g.nnever * 2 ^ 32 + g.nstop) ++
    leBytes 8 (x % 256 * 2 ^ 52 + c * 2 ^ 32 + b % 2 ^ 32) ++ leBytes 8 v.toNat ++ leBytes 8 p.toNat ++ leBytes 8 g.ndisc ++
    leBytes 8 0

/-- The step that lets a grid's queue or graph go on. -/
def Launch.onward (l : Launch) : List Due :=
  match l.queue, l.node with
  | some q, none => [⟨.grid, [q]⟩]
  | some q, some _ => [⟨.graphFinish, [q]⟩]
  | none, _ => []

/-- The grids and the launches of a queue that come after a grid start with its view as it triggers (06 R164). -/
def State.passView (s : State) (ctx id queue : Nat) (view : List Nat) : State :=
  s.modCtx ctx (fun c => { c with
    grids := c.grids.mapVal (fun i x => if id < i ∧ x.launch.queue = some queue then { x with view := joinNat x.view view } else x),
    launches := c.launches.map (fun l => if l.queue = some queue then { l with view := joinNat l.view view } else l) })

/-- A grid triggers, once the writes of its `gtrig`s and exits have performed (05 R116; 06 R164; 20 R394, R396): what comes next in
its queue starts with their views. Arguments: context, grid id. -/
def execGridTrigger (s : State) : Out :=
  let (ctx, id) := (s.arg 0, s.arg 1)
  match s.grid ctx id with
  | none => .next s
  | some g =>
    let acked := (s.ctx ctx).dies.all (fun d => g.acked.contains (d / 2))
    if g.triggered || g.trigBlk < g.nblk || (g.cancelled && !acked) then .next s
    else if !s.performedAll g.view then .next (s.dueOne .gridTrigger [ctx, id])
    else
      let s := s.setGrid ctx id { g with triggered := true }
      let s := if recTrig g.launch.dw = 0 ∨ recTrig g.launch.dw % 8 ≠ 0 then s
        else s.recordWrite (gridAgent ctx) ctx (recTrig g.launch.dw) 8 (leBytes 8 1) g.view
      let s := match g.launch.queue with
        | some q => (s.joinView (queueAgent q) g.view).passView ctx id q g.view
        | none => s
      let s := (s.dueOne .gridComplete [ctx, id]).due g.launch.onward
      .next (if g.launch.queue.isSome then s.due ((s.ctx ctx).dies.map (fun d => ⟨.roomRequest, [d]⟩)) else s)

/-- A job of a context's tables, on its cores or in its image, that a handler of a grid started and that has not completed (06
R165). -/
def State.gridWorks (s : State) (ctx id : Nat) : Bool :=
  let works (c : Core) : Bool := c.jobs.values.any (fun j => j.st == .pending && (j.block.map (fun b => b.2)) == some id)
  s.cores.entries.any (fun e => e.2.ctx == ctx && works e.2) || (s.ctx ctx).image.cores.values.any works

/-- A grid completes and its record is written (06 R165). Arguments: context, grid id. -/
def execGridComplete (s : State) : Out :=
  let (ctx, id) := (s.arg 0, s.arg 1)
  match s.grid ctx id with
  | none => .next s
  | some g =>
    if g.complete || !g.triggered || g.ended + g.nnever < g.nblk || s.gridWorks ctx id then .next s
    else if !s.performedAll g.view then .next (s.dueOne .gridComplete [ctx, id])
    else
      let s := s.setGrid ctx id { g with complete := true }
      let s := if g.launch.unread then s
        else s.recordWrite (gridAgent ctx) ctx (recCrec g.launch.dw) 64 g.record g.view
      let s := match g.launch.queue with
        | some q => s.joinView (queueAgent q) g.view
        | none => s
      .next (s.due (match g.launch.queue with
        | some q => [⟨.signal, [q]⟩, ⟨.graphFinish, [q]⟩, ⟨.queueRelease, [q]⟩]
        | none => []))

/-! Acceptance (06 R161, R163). -/

/-- The least LMTOP of the working cores of a partition (06 R163): in force on a running context's cores, or as the next
switch-in will set it, a core that the image does not name being as at reset. -/
def State.leastTop (s : State) (ctx : Nat) : Nat :=
  let c := s.ctx ctx
  let next (k : Core) : Nat := InForce.lmtop ⟨c.page.spillK, bitsOf k.lardcfg.toNat 0 6, false, 0, 0⟩
  let l := if c.st = .running then
      s.cores.entries.filterMap (fun e => if e.2.ctx = ctx ∧ e.1 < 2 ^ 20 then some e.2.force.lmtop else none)
    else c.image.cores.values.map next
  let cores := c.lastDies.foldl (fun n d => n + 128 * (s.pkg (d / 2)).cfg.columns (d % 2)) 0
  l.foldl min (if c.st = .running ∨ (!l.isEmpty ∧ cores ≤ l.length) then 0xFF00 else next Core.reset)

/-- A shape fits on a die of a partition (06 R158, R163; 13 R341); a context without a partition yet, whose launches wait (06
R161), has no die to judge it by (log 48). -/
def State.fits (s : State) (ctx : Nat) (r : Vector Word 8) : Bool :=
  (s.ctx ctx).dies.isEmpty || (s.ctx ctx).dies.any (fun d => decide (recCols r ≤ (s.pkg (d / 2)).cfg.columns (d % 2)))

/-- The pod dispatcher accepts the oldest launch of a context (06 R161, R163; 12 R334). Arguments: context. -/
def execLaunchAccept (s : State) : Out :=
  let ctx := s.arg 0
  let c := s.ctx ctx
  match c.launches with
  | [] => .next s
  | l :: t =>
    let id := c.gridCount
    let n := 64 * recIlines l.dw
    let s := s.joinView (gridAgent ctx) l.view
    let (image, s') := match (if n = 0 then .ok ([], s) else s.engRead (s.podEng (gridAgent ctx) ctx) l.addr 64 n) with
      | .ok (bs, s) => (some bs, s)
      | .error e => (none, (s.causeOf e).2)
    let bad := l.refused || !s.fits ctx l.dw || decide (s.leastTop ctx < n) || image.isNone
    let nblk := recNblk l.dw
    let drains := match l.queue with
      | some q => (s.hq q).state == 2
      | none => false
    let g : Grid := ⟨{ l with refused := bad }, image.getD [], nblk, if bad then nblk else 0, .empty, if bad then nblk else 0, 0, 0,
      0, if bad then nblk else 0, 0, 0, none, false, false, false, drains, [], [], l.view⟩
    let s := s'.modCtx ctx (fun c => { c with launches := t, gridCount := id + 1, grids := c.grids.set id g })
    let s := match l.queue with
      | some q => s.modHq q (fun x => { x with grids := x.grids ++ [id], busy := if l.node.isNone then .grid id else x.busy })
      | none => s
    .next (if bad then s.dueOne .gridTrigger [ctx, id]
      else if drains then s.dueOne .gridCancelPoint [ctx, id]
      else s.due (c.dies.map (fun d => ⟨.roomRequest, [d]⟩)))

/-! Dealing and placing (06 R158, R159, R162; 13 R351). -/

/-- The work columns of a die. -/
def State.workColumns (s : State) (die : Nat) : Nat := (s.pkg (die / 2)).cfg.columns (die % 2)

/-- The clusters of a rectangle of a die, in row-major order: cluster numbers are core ids over 8. -/
def rectangle (die col row cols rows : Nat) : List Nat :=
  (List.range rows).flatMap (fun i => (List.range cols).map (fun j => die * 256 + (col + j) * 16 + (row + i)))

/-- The first free rectangle of a shape, scanning origins in row-major order (06 R159). -/
def State.findRect (s : State) (die cols rows : Nat) (taken : List Nat) : Option (List Nat) :=
  let w := s.workColumns die
  let origins := (List.range 16).flatMap (fun r => (List.range w).map (fun c => (c, r)))
  (origins.find? (fun o => decide (o.1 + cols ≤ w) && decide (o.2 + rows ≤ 16) &&
    (rectangle die o.1 o.2 cols rows).all (fun k => (s.cluster k).block.isNone && !taken.contains k))).map
    (fun o => rectangle die o.1 o.2 cols rows)

/-- How many blocks of a shape a die can place at once (13 R351). -/
def State.room (s : State) (die cols rows : Nat) : Nat → List Nat → Nat
  | 0, _ => 0
  | n + 1, taken =>
    match s.findRect die cols rows taken with
    | none => 0
    | some r => 1 + State.room s die cols rows n (taken ++ r)

/-- The context that runs on a die. -/
def State.ctxOfDie (s : State) (die : Nat) : Option Nat :=
  (s.ctxs.entries.find? (fun e => e.2.st == .running && e.2.dies.contains die)).map (fun e => e.1)

/-- A grid of a host queue is dealt only after the previous grid of its queue has triggered (06 R161). -/
def State.heldBack (s : State) (ctx id : Nat) (g : Grid) : Bool :=
  g.launch.queue.isSome && (s.ctx ctx).grids.entries.any (fun e =>
    decide (e.1 < id) && e.2.launch.queue == g.launch.queue && !e.2.triggered)

/-- The head grid of a die (13 R351): the first accepted with a block to deal or to place there. -/
def State.headGrid (s : State) (die : Nat) : Option (Nat × Nat × Grid) :=
  match s.ctxOfDie die with
  | none => none
  | some ctx =>
    ((s.ctx ctx).grids.entries.find? (fun e => !e.2.launch.refused && !s.heldBack ctx e.1 e.2 &&
      (decide (e.2.next < e.2.nblk) || !(e.2.ranges.getD die []).isEmpty))).map
      (fun e => (ctx, e.1, e.2))

/-- A grid refused before any of its blocks is dealt (06 R163). -/
def Grid.refuse (g : Grid) : Grid :=
  { g with launch := { g.launch with refused := true }, next := g.nblk, trigBlk := g.nblk, nnever := g.nblk }

/-- A die dispatcher asks for blocks of its head grid (06 R162; 13 R351); one accepted before its context had a partition
is refused now if it fits on no die of it (06 R163; log 48). Arguments: die. -/
def execRoomRequest (s : State) : Out :=
  let die := s.arg 0
  match s.headGrid die with
  | none => .next s
  | some (ctx, id, g) =>
    if g.next = 0 && !s.fits ctx g.launch.dw then
      .next ((s.setGrid ctx id g.refuse).due [⟨.gridTrigger, [ctx, id]⟩, ⟨.roomRequest, [die]⟩])
    else if !(g.ranges.getD die []).isEmpty then .next (s.dueOne .blockRelease [die])
    else if 0 < s.room die (recCols g.launch.dw) (recRows g.launch.dw) 1 [] then .next (s.dueOne .blockGrant [die])
    else .next s

/-- The parent grants the lowest undealt indices to a package, and the package hands them to its dies in ascending order,
each of whose head grid it is up to its room (06 R162; 13 R351); once a grid is dealt whole, the dies ask for the next. Arguments: a die
of the package. -/
def execBlockGrant (s : State) : Out :=
  match s.headGrid (s.arg 0) with
  | none => .next s
  | some (ctx, id, _) =>
    let p := s.arg 0 / 2
    let dies := [2 * p, 2 * p + 1].filter (fun d => (s.ctx ctx).dies.contains d && (s.headGrid d).any (fun h => h.2.1 == id))
    let s := dies.foldl (fun (s : State) d =>
      match s.grid ctx id with
      | none => s
      | some g =>
        let held := (g.ranges.getD d []).length
        let n := min (s.room d (recCols g.launch.dw) (recRows g.launch.dw) 256 [] - held) (g.nblk - g.next)
        s.setGrid ctx id { g with next := g.next + n,
                                  ranges := g.ranges.set d (g.ranges.getD d [] ++ (List.range n).map (fun i => g.next + i)) }) s
    let again := if ((s.grid ctx id).map (fun g => decide (g.next < g.nblk))).getD true then [] else (s.ctx ctx).dies
    .next (s.due (dies.map (fun d => ⟨.blockRelease, [d]⟩) ++ again.map (fun d => ⟨.roomRequest, [d]⟩)))

/-- The start message of a core (12 R333). -/
def startMsg (core ctx index : Nat) (r : Vector Word 8) (view : List Nat) : Msg :=
  deviceMsg core (recHidx r) ctx index ((Vector.replicate 4 (0 : VWord)).set 0
    (BitVec.ofNat 512 (recD r 4 + recD r 5 * 2 ^ 64 + recD r 6 * 2 ^ 128 + recD r 7 * 2 ^ 192))) view

/-- A die dispatcher places the lowest block it holds and releases it (06 R159, R162). Arguments: die. -/
def execBlockRelease (s : State) : Out :=
  let die := s.arg 0
  match s.headGrid die with
  | none => .next s
  | some (ctx, id, g) =>
    let r := g.launch.dw
    match g.ranges.getD die [], s.findRect die (recCols r) (recRows r) [] with
    | i :: rest, some rect =>
      let b : Block := ⟨ctx, id, i, recCols r, recRows r, rect, none, false, 0, false, .empty, false, .empty⟩
      let s := s.setGrid ctx id { g with ranges := g.ranges.set die rest }
      let s := { s with blocks := s.blocks.set s.nextBlock b, nextBlock := s.nextBlock + 1 }
      let s := rect.foldl (fun (s : State) k => s.modCluster k (fun c => { c with block := some (s.nextBlock - 1), clusArr := .empty, clusViews := .empty })) s
      let s := b.cores.foldl (fun (s : State) c =>
        let s := if g.image.isEmpty then s
          else s.homeWrite (gridAgent ctx) [] none (fun _ => false) (localAddr c 0) g.image none 0
        let s := s.modCore c (fun k => { k with exited := false, trigged := false })
        let view := joinNat g.view (s.metBy (localAddr c 0) g.image.length (fun _ w => w.agent == gridAgent ctx))
        s.deliver c (startMsg c ctx i r view)) s
      .next (s.due (⟨.blockRelease, [die]⟩ :: (s.ctx ctx).dies.map (fun d => ⟨.roomRequest, [d]⟩)))
    | _, _ => .next s

/-! Exits, faults and retirement (06 R159, R164, R166, R167). -/

/-- A block changed. -/
def State.modBlock (s : State) (i : Nat) (f : Block → Block) : State :=
  match s.blocks.get? i with
  | some b => { s with blocks := s.blocks.set i (f b) }
  | none => s

/-- A block counted as triggered, once (06 R164). -/
def State.blockTrig (s : State) (i : Nat) : State :=
  match s.blocks.get? i with
  | none => s
  | some b =>
    if b.trigged then s
    else ((s.modBlock i (fun b => { b with trigged := true })).modGrid b.ctx b.grid (fun g => { g with trigBlk := g.trigBlk + 1 })).dueOne
      .gridTrigger [b.ctx, b.grid]

/-- A block triggers when each of its cores has executed `gtrig` or `gexit` (20 R394). -/
def State.checkTrig (s : State) (i : Nat) : State :=
  match s.blocks.get? i with
  | none => s
  | some b => if b.cores.all (fun c => (s.core c).trigged || (s.core c).exited) then s.blockTrig i else s

/-- The steps that follow a core's exit: barriers, retirement. -/
def exitDues (core : Nat) : List Due :=
  [⟨.barrierComplete, [core, 1]⟩, ⟨.barrierComplete, [core, 2]⟩, ⟨.blockRetire, [clusterOf core]⟩]

/-- A block stopped (06 R167): its barriers complete, and its cores act as exited once their untimed activations end. -/
def State.stopBlock (s : State) (i : Nat) : State :=
  match s.blocks.get? i with
  | none => s
  | some b =>
    let s := (s.modBlock i (fun b => { b with stopping := true })).blockTrig i
    s.due (b.cores.flatMap (fun c => [⟨.barrierComplete, [c, 1]⟩, ⟨.barrierComplete, [c, 2]⟩, ⟨.blockStop, [c]⟩]))

/-- The first fault of the block resident on a core (06 R166). -/
def State.blockFault (s : State) (core cause : Nat) (val pc : Word) : State :=
  match s.blockOf core with
  | none => s
  | some (i, b) =>
    if b.fault.isSome then s
    else
      let s := s.modBlock i (fun b => { b with fault := some ⟨b.index, core, cause, val, pc⟩ })
      (s.stopBlock i).dueOne .blockFaultReport [clusterOf core]

/-- The packages of a partition. -/
def Ctx.pkgsOf (c : Ctx) : List Nat := c.dies.foldl (fun l d => insertNat l (d / 2)) []

/-- A grid cancelled at the pod dispatcher, which grants no more of it, and the cancel sent to the packages of its partition (06
R167; 20 R396). -/
def State.cancelGrid (s : State) (ctx id : Nat) : State :=
  match s.grid ctx id with
  | none => s
  | some g =>
    if g.cancelled || g.complete || g.launch.refused then s
    else
      let n := g.nblk - g.next
      let s := s.setGrid ctx id { g with cancelled := true, next := g.nblk, nnever := g.nnever + n, trigBlk := g.trigBlk + n }
      (s.due ((s.ctx ctx).pkgsOf.map (fun p => ⟨.cancelArrive, [ctx, id, p]⟩))).dueOne .gridTrigger [ctx, id]

/-- A block's fault reaches the pod dispatcher, which keeps that of the lowest block index and cancels on the first where
the launch asks for it (06 R166; 20 R395). Arguments: cluster. -/
def execBlockFaultReport (s : State) : Out :=
  match (s.cluster (s.arg 0)).block.bind s.blocks.get? with
  | none => .next s
  | some b =>
    match b.fault, s.grid b.ctx b.grid with
    | some f, some g =>
      let keep := match g.fault with
        | some h => if h.block ≤ f.block then h else f
        | none => f
      let s := s.setGrid b.ctx b.grid { g with fault := some keep }
      let s := match (s.cluster (s.arg 0)).block with
        | some i => (s.modBlock i (fun b => { b with reported := true })).dueOne .blockRetire [s.arg 0]
        | none => s
      .next (if recCanf g.launch.dw then s.cancelGrid b.ctx b.grid else s)
    | some _, none => .next (match (s.cluster (s.arg 0)).block with
      | some i => (s.modBlock i (fun b => { b with reported := true })).dueOne .blockRetire [s.arg 0]
      | none => s)
    | none, _ => .next s

/-- A core of a stopping block acts as if it had executed `gexit` with status 0 (06 R167). Arguments: core. -/
def execBlockStop (s : State) : Out :=
  let core := s.arg 0
  match s.blockOf core with
  | none => .next s
  | some (i, b) =>
    let c := s.core core
    let busy := c.slots.toList.any (fun x => x.st != .empty && !x.timed)
    if !b.stopping || c.exited || busy || c.saved then .next s
    else .next ((((s.modCore core (fun c => { c with exited := true })).modGrid b.ctx b.grid (fun g =>
      { g with view := joinNat g.view c.retire })).checkTrig i).due (exitDues core))

/-- A copy, collective or matrix job of a core that a handler of a block started and that has not completed (06 R159). -/
def Core.working (c : Core) (block : Nat) : Bool :=
  c.jobs.values.any (fun j => j.st == .pending && decide (6 ≤ j.kind) && (j.block.map (fun b => b.1)) == some block)

/-- Entries of Q0 to Q3 of a core discarded at retirement (06 R159); what waits in its eject buffer is no entry of them and stays
(log 60). -/
def Core.discard (c : Core) : Nat × Core :=
  ⟨(c.queue 0).length + (c.queue 1).length + (c.queue 2).length + (c.queue 3).length,
   (((c.setQueue 0 []).setQueue 1 []).setQueue 2 []).setQueue 3 []⟩

/-- A block whose fault has still to reach the pod dispatcher, or whose fault has cancelled its grid there and the cancel has still
to reach its dispatchers (06 R166; 20 R395). -/
def State.faultPending (s : State) (b : Block) : Bool :=
  b.fault.isSome && (!b.reported || (s.grid b.ctx b.grid).any (fun g => recCanf g.launch.dw && g.cancelled &&
    !g.arrived.contains (b.clusters.headD 0 / 512)))

/-- A fatal fault of an untimed slot of a core is still to be dealt with (12 R319; 14 R363). -/
def Core.fatalWaits (c : Core) : Bool :=
  c.slots.toList.any (fun x => !x.timed && (x.st == .stopped 1 || x.st == .stopped 2 || x.st == .stopped 3))

/-- A block retires once every core has exited, its jobs have completed and a fault of it has been reported (06 R159, R166, R167; 20
R395). Arguments: cluster. -/
def execBlockRetire (s : State) : Out :=
  match (s.cluster (s.arg 0)).block with
  | none => .next s
  | some i =>
    match s.blocks.get? i with
    | none => .next s
    | some b =>
      if !(b.cores.all (fun c => (s.core c).exited && !(s.core c).working i && !(s.core c).fatalWaits)) || s.faultPending b then .next s
      else
        let s := s.blockTrig i
        let (n, s) := b.cores.foldl (fun (acc : Nat × State) c =>
          let (m, k) := (acc.2.core c).discard
          (acc.1 + m, acc.2.setCore c k)) (0, s)
        let s := b.clusters.foldl (fun (s : State) k => s.modCluster k (fun c => { c with block := none })) s
        let s := { s with blocks := s.blocks.erase i }
        let s := s.modGrid b.ctx b.grid (fun g => { g with
          ended := g.ended + 1, ndisc := g.ndisc + n,
          nfault := if b.fault.isSome then g.nfault + 1 else g.nfault,
          nstop := if b.fault.isNone && b.stopping then g.nstop + 1 else g.nstop,
          ndone := if b.fault.isNone && !b.stopping then g.ndone + 1 else g.ndone })
        let waiting := b.cores.filter (fun c => !(s.core c).eject.isEmpty)
        .next ((s.due (waiting.map (fun c => ⟨.ejectAccept, [c]⟩))).due [⟨.gridTrigger, [b.ctx, b.grid]⟩,
          ⟨.gridComplete, [b.ctx, b.grid]⟩, ⟨.roomRequest, [dieOf (b.cores.headD 0)]⟩])

/-- The lowest-index held matrix job of a core (12 R319). -/
def Core.heldJob (c : Core) : Option Job := (c.jobs.values).find? (fun j => j.st == .faulted && j.hold)

/-- `gtrig` (12 R335; 06 R164). -/
def execGtrig (s : State) : Out :=
  match s.blockOf s.cur.core with
  | none => s.trapOut .illegal 0 0
  | some (i, b) =>
    if s.me.timed || s.me.tl = 2 then s.trapOut .illegal 0 0
    else .next (((s.modMyCore (fun c => { c with trigged := true })).modGrid b.ctx b.grid (fun g =>
      { g with view := joinNat g.view (s.view s.myAgent) })).checkTrig i)

/-- `gexit` (12 R319, R335; 06 R159, R166). -/
def execGexit (g : BitVec 5) (s : State) : Out :=
  match s.blockOf s.cur.core with
  | none => s.trapOut .illegal 0 0
  | some (i, b) =>
    if s.me.timed || s.me.tl = 2 then s.trapOut .illegal 0 0
    else
      match s.myCore.heldJob with
      | some j => s.trapOut .jobfault j.res (BitVec.ofNat 64 j.id.toNat)
      | none =>
        if !s.accessesDone then .next (s.park .order)
        else
          let core := s.cur.core
          let status := s.rdG g
          let s := if status = 0 then s else s.blockFault core 0 status (wordOfInt s.me.pc)
          let s := ((s.modMyCore (fun c => { c with exited := true })).modGrid b.ctx b.grid (fun g =>
            { g with view := joinNat g.view (s.view s.myAgent) })).checkTrig i
          .next (s.finish.due (exitDues core))

/-! `gid` (12 R336). -/

/-- The physical place of a core (12 R336; 13 R341). -/
def State.place (s : State) (core : Nat) : Nat :=
  let id := core % 2 ^ 20
  let p := id / 4096
  let die := id / 2048 % 2
  let cfg := (s.pkg p).cfg
  let lay := (cfg.layout.get (Fin.ofNat 2 die)).toNat
  let col := if core < 2 ^ 20 then (cfg.workColumns die).getD (id / 128 % 16) 0 else if bitsOf id 10 1 = 1 then bitsOf lay 12 5 else bitsOf lay 4 5
  id % 8 * 2 ^ 18 + id / 8 % 16 * 2 ^ 14 + col * 2 ^ 9 + die * 2 ^ 8 + p

/-- `gid` (12 R336). -/
def execGid (g : BitVec 5) (sel : BitVec 3) (s : State) : Out :=
  let core := s.cur.core
  let ofBlock (f : Block → Nat) : Word := match s.blockOf core with
    | some (_, b) => BitVec.ofNat 64 (f b)
    | none => BitVec.allOnes 64
  .next (s.wrG g (match sel.toNat with
    | 0 => ofBlock (fun b => b.index)
    | 1 => ofBlock (fun b => b.cores.findIdx (fun c => c == core))
    | 2 => ofBlock (fun b => b.rows * 256 + b.cols)
    | 3 => ofBlock (fun b => b.grid % 2 ^ 32)
    | 4 => ofBlock (fun b => match s.grid b.ctx b.grid with
      | some x => x.nblk
      | none => 0)
    | 5 => BitVec.ofNat 64 (core % 2 ^ 20)
    | 6 => BitVec.ofNat 64 (s.place core)
    | _ => BitVec.ofNat 64 s.myCtxId))

/-! Cancellation (06 R167; 12 R337; 20 R396). -/

/-- `gcancel` (12 R337). -/
def execGcancel (g : BitVec 5) (s : State) : Out :=
  let id := bitsOf (s.rdG g).toNat 0 32
  if s.me.timed then s.trapOut .illegal 0 0
  else
    match s.grid s.myCtxId id with
    | some x => .next (if x.complete then s else s.dueOne .gridCancelPoint [s.myCtxId, id])
    | none =>
      .next (if s.myCtx.gridCount ≤ id ∧ id < s.myCtx.gridCount + s.myCtx.launches.length
        then s.dueOne .gridCancelPoint [s.myCtxId, id] else s)

/-- A cancellation takes effect at the pod dispatcher (06 R167), once it has accepted the launch. Arguments: context, grid id. -/
def execGridCancelPoint (s : State) : Out :=
  let (ctx, id) := (s.arg 0, s.arg 1)
  match s.grid ctx id with
  | none =>
    .next (if (s.ctx ctx).gridCount ≤ id ∧ id < (s.ctx ctx).gridCount + (s.ctx ctx).launches.length
      then s.dueOne .gridCancelPoint [ctx, id] else s)
  | some _ => .next (s.cancelGrid ctx id)

/-- A cancel reaches a package's dispatchers (06 R167): undealt ranges are dropped, released blocks are stopping, and the dies ask for
the next grid. Arguments: context, grid id, package. -/
def execCancelArrive (s : State) : Out :=
  let (ctx, id, p) := (s.arg 0, s.arg 1, s.arg 2)
  match s.grid ctx id with
  | none => .next s
  | some g =>
    if g.arrived.contains p then .next s
    else
      let n := (g.ranges.getD (2 * p) []).length + (g.ranges.getD (2 * p + 1) []).length
      let s := s.setGrid ctx id { g with
        ranges := (g.ranges.erase (2 * p)).erase (2 * p + 1), nnever := g.nnever + n, trigBlk := g.trigBlk + n,
        arrived := insertNat g.arrived p }
      let mine := s.blocks.entries.filter (fun e => e.2.ctx == ctx && e.2.grid == id && e.2.clusters.any (fun k => k / 512 == p))
      .next (((mine.foldl (fun s e => s.stopBlock e.1) s).dueOne .cancelAck [ctx, id, p]).due
        (mine.map (fun e => ⟨.blockRetire, [e.2.clusters.headD 0]⟩) ++
          ((s.ctx ctx).dies.filter (fun d => d / 2 == p)).map (fun d => ⟨.roomRequest, [d]⟩)))

/-- A package dispatcher acknowledges a cancel (20 R396). Arguments: context, grid id, package. -/
def execCancelAck (s : State) : Out :=
  let (ctx, id, p) := (s.arg 0, s.arg 1, s.arg 2)
  match s.grid ctx id with
  | none => .next s
  | some g =>
    if !g.arrived.contains p then .next s
    else .next ((s.setGrid ctx id { g with acked := insertNat g.acked p }).due [⟨.gridTrigger, [ctx, id]⟩, ⟨.gridComplete, [ctx, id]⟩])

end Sys2Proof.Machine
end

