-- ==== Sys2Proof/Machine/Space.lean ====
section
/-! DEFINITION. The space operations (11 R289 to R295) and the job instructions (R288, 12 R319). -/

namespace Sys2Proof.Machine

/-- A register value rejected by an entry (11 R273): ILLEGAL with the value and the register's index. -/
def State.reject (s : State) (g : BitVec 5) : State := s.raise .illegal (s.rdG g) (BitVec.ofNat 64 g.toNat)

/-- Dword 0 of a unit: the issuing context over the low bits (02 R39; 11 R291). -/
def unitHead (ctx low : Nat) : Word := BitVec.ofNat 64 (ctx % 2 ^ 20 * 2 ^ 32 + low)

/-- The unit of a `map`, `grant` or `unmap` (11 R290): `g` is g(B) and `a` g(A), whose fields `unmap` leaves zero. -/
def spaceUnit (ctx op ssp svpn core : Nat) (a g : Nat) (job : BitVec 16) : Vector Word 5 :=
  let un := op == 3
  let self := if un && bitsOf g 32 1 == 1 then 16 else 0
  let keyid := if op = 1 then bitsOf a 46 12 else 0
  let tail := core % 2 ^ 20 * 2 ^ 40 + job.toNat * 2 ^ 24
  #v[unitHead ctx ((if un then 0 else bitsOf a 45 1 * 64) + ssp * 32 + self + op), BitVec.ofNat 64 svpn,
     if un then 0 else BitVec.ofNat 64 (bitsOf a 0 45),
     BitVec.ofNat 64 ((if un then 0 else bitsOf g 32 20 * 2 ^ 32) + bitsOf g 0 32),
     BitVec.ofNat 64 (if un then tail else tail + bitsOf g 59 5 * 2 ^ 19 + keyid * 2 ^ 7 + bitsOf g 52 7)]

/-- A unit sent to the engine of the home package of its first page (11 R290). -/
def State.sendSpace (s : State) (core : Nat) (u : Vector Word 5) (job : BitVec 16) : State :=
  s.request (s.homeOf (uf u 0 32 20) (uf u 0 5 1) (uf u 1 0 45) (pkgOf (core % 2 ^ 20))) (.space u (.job core job))

/-- A window unit sent to the context's home engine (11 R291). -/
def State.sendWindow (s : State) (core : Nat) (u : Vector Word 5) (job : BitVec 16) : State :=
  s.request (s.ctx (uf u 0 32 20)).home (.window u (.job core job))

/-- A `map`, `grant` or `unmap` of the running slot (11 R289, R290): deferred in a speculative activation (02 R45), held for
its result with T = 1 (02 R44). -/
def State.spaceOp (s : State) (op : Nat) (j : BitVec 5) (cap : BitVec 4) (a b : BitVec 5) (t : BitVec 1) : Out :=
  let g := (s.rdG b).toNat
  let n := bitsOf g 0 32
  if n = 0 then .next (s.reject b)
  else
    let c := s.rdC cap
    match s.accessSpace c cap.toNat false n with
    | .error e => .next e
    | .ok ea =>
      match s.myCore.jobSlot with
      | none => .next s.stall
      | some i =>
        let (id, k) := s.takeJob s.cur.core i op
        let u := spaceUnit s.myCtxId op (spBit c.space) (ea / 4096) s.cur.core (s.rdG a).toNat g id
        let s' := (s.setCore s.cur.core k).wrG j (BitVec.ofNat 64 id.toNat)
        match s.me.spec, s.me.actKey with
        | true, some key =>
          (match s.defer key (descr .space n cap.toNat) (.space op u id) with
           | .error e => .next e
           | .ok d => .next ((d.modMyCore (fun k => (k.takeJob i op (s.jobBlock s.cur.core)).2)).wrG j (BitVec.ofNat 64 id.toNat)))
        | _, _ =>
          let s' := s'.sendSpace s.cur.core u id
          .next (if t = 1 && !s.me.timed then s'.parkDone (.mapResult id) else s')

/-- `map` (11 R290). -/
def execMap (j : BitVec 5) (cap : BitVec 4) (a b : BitVec 5) (t : BitVec 1) (s : State) : Out := s.spaceOp 1 j cap a b t

/-- `grant` (11 R290). -/
def execGrant (j : BitVec 5) (cap : BitVec 4) (a b : BitVec 5) (t : BitVec 1) (s : State) : Out := s.spaceOp 2 j cap a b t

/-- `unmap` (11 R290). -/
def execUnmap (j : BitVec 5) (cap : BitVec 4) (b : BitVec 5) (t : BitVec 1) (s : State) : Out := s.spaceOp 3 j cap 0 b t

/-- The unit of an `rwin` (11 R291). -/
def windowUnit (ctx wsp wvpn core : Nat) (a g : Nat) (job : BitVec 16) : Vector Word 5 :=
  #v[unitHead ctx (bitsOf a 43 4), BitVec.ofNat 64 (wsp * 2 ^ 45 + wvpn), BitVec.ofNat 64 (a % 2 ^ 43),
     BitVec.ofNat 64 (bitsOf g 0 20), BitVec.ofNat 64 (core % 2 ^ 20 * 2 ^ 40 + job.toNat * 2 ^ 24)]

/-- `rwin` (11 R291). -/
def execRwin (j : BitVec 5) (cap : BitVec 4) (a b : BitVec 5) (s : State) : Out :=
  let x := (s.rdG a).toNat
  let c := s.rdC cap
  match s.accessSpace c cap.toNat false (max (bitsOf x 0 32) 1) with
  | .error e => .next e
  | .ok ea =>
    match s.myCore.jobSlot with
    | none => .next s.stall
    | some i =>
      let (id, k) := s.takeJob s.cur.core i 4
      let u := windowUnit s.myCtxId (spBit c.space) (ea / 4096) s.cur.core x (s.rdG b).toNat id
      match s.me.spec, s.me.actKey with
      | true, some key =>
        (match s.defer key (descr .space (max (bitsOf x 0 32) 1) cap.toNat) (.window u id) with
         | .error e => .next e
         | .ok d => .next ((d.modMyCore (fun k => (k.takeJob i 4 (s.jobBlock s.cur.core)).2)).wrG j (BitVec.ofNat 64 id.toNat)))
      | _, _ => .next (((s.setCore s.cur.core k).wrG j (BitVec.ofNat 64 id.toNat)).sendWindow s.cur.core u id)

/-- `mq` (11 R292): the slot waits for the image. A query of a page goes to the context's home engine first. -/
def execMq (j : BitVec 5) (cap : BitVec 4) (a b : BitVec 5) (s : State) : Out :=
  let mode := bitsOf (s.rdG a).toNat 0 2
  if mode = 3 then .next (s.reject a)
  else
    let c := s.rdC cap
    match s.accessSpace c cap.toNat true 1 with
    | .error e => .next e
    | .ok ea =>
      let space := c.space
      let vpn := ea / 4096
      let pkg := if mode < 2 then s.myCtx.home else
        match s.covering s.myCtxId space vpn with
        | some (p, _, _) => p
        | none => pkgOf (s.cur.core % 2 ^ 20)
      .next ((s.parkDone .query).request pkg
        (.query s.cur.core s.cur.slot s.me.began j mode (bitsOf (s.rdG b).toNat 0 32) s.myCtxId space vpn))

/-- `dharv` (11 R293, R294; 03 R83): the address names a frame of the root space of the issuing package. -/
def execDharv (j : BitVec 5) (cap : BitVec 4) (a b : BitVec 5) (s : State) : Out :=
  let target := bitsOf (s.rdG a).toNat 0 20
  if s.me.tl ≠ 2 || s.me.timed then s.trapOut .illegal 0 0
  else if target = 0 then .next (s.reject a)
  else
    let c := s.rdC cap
    match s.accessSpace c cap.toNat false 1 with
    | .error e => .next e
    | .ok ea =>
      let own := pkgOf (s.cur.core % 2 ^ 20)
      let addr := ea + 8 * bitsOf (s.rdG b).toNat 0 9
      if bitsOf ea 52 5 ≠ 0 ∨ pkgOfAddr ea ≠ own ∨ !((s.pkg own).cellar.entries.any (fun e =>
          e.2.parent.isNone && decide (e.2.frame ≤ ea / 4096) && decide (ea / 4096 < e.2.frame + e.2.npages))) then
        .next (s.raise .notmapped (BitVec.ofNat 64 ea) (descr .space 1 cap.toNat))
      else
        match s.myCore.jobSlot with
        | none => .next s.stall
        | some i =>
          let (id, k) := s.takeJob s.cur.core i 5
          let s := (s.setCore s.cur.core k).wrG j (BitVec.ofNat 64 id.toNat)
          match (s.ctx target).groupOf addr with
          | none => .next (s.completeJob s.cur.core id 0 true false [])
          | some _ =>
            let s := s.modCtx target (fun x => { x with harvesting := x.harvesting ++ [addr / 8] })
            let s := s.modEng own (fun e => { e with harvests := e.harvests ++ [⟨s.cur.core, id, target, addr, none, []⟩] })
            .next (s.dueOne .harvestSwap [own])

/-- `pkset` (11 R295; 03 R80). -/
def execPkset (a : BitVec 5) (s : State) : Out := .next (s.modMe (fun x => { x with pkperm := s.rdG a }))

/-- `pkset.key` (11 R295; 03 R80). -/
def execPksetKey (j : BitVec 5) (a : BitVec 5) (s : State) : Out :=
  .next (s.modMe (fun x => { x with pkperm := setField x.pkperm (2 * j.toNat) 2 (s.rdG a).toNat }))

/-! Jobs (11 R288; 12 R319). -/

/-- An entry set FREE. -/
def Core.release (c : Core) (id : BitVec 16) (j : Job) : Core :=
  { c with jobs := c.jobs.set (id.toNat % 256) { j with st := .free } }

/-- `jobwait` (11 R288): a held matrix job traps JOBFAULT and keeps its entry (12 R319). -/
def execJobwait (d j : BitVec 5) (s : State) : Out :=
  let id : BitVec 16 := (s.rdG j).setWidth 16
  if s.me.timed then s.trapOut .illegal 0 0
  else
    match s.myCore.jobOf id with
    | none => .next (s.wrG d (BitVec.allOnes 64))
    | some x =>
      if x.st = .pending then .next (s.park (.job id))
      else if x.hold then s.trapOut .jobfault x.res (BitVec.ofNat 64 id.toNat)
      else .next (((s.joinView s.myAgent x.view).wrG d x.res).modMyCore (fun c => c.release id x))

/-- `jobq` (11 R288). -/
def execJobq (d j : BitVec 5) (s : State) : Out :=
  let id : BitVec 16 := (s.rdG j).setWidth 16
  if s.me.timed then s.trapOut .illegal 0 0
  else
    match s.myCore.jobOf id with
    | none => .next (s.wrG d 2)
    | some x => .next (if x.st = .pending then s.wrG d 0 else (s.joinView s.myAgent x.view).wrG d 1)

end Sys2Proof.Machine
end

