-- ==== Sys2Proof/Machine/Commit.lean ====
section
/-! DEFINITION. Rounds of global virtual time (07 R188, R189, R193) and the commit agents (05 R138; 07 R190, R191). -/

namespace Sys2Proof.Machine

/-! Rounds (07 R188). -/

/-- The cores that run a context. -/
def State.coresOf (s : State) (ctx : Nat) : List Nat :=
  (s.cores.entries.filter (fun e => e.2.ctx == ctx && decide (e.1 < 2 ^ 20))).map (fun e => e.1)

/-- The timelines of a context. -/
def State.timelinesOf (s : State) (ctx : Nat) : List Nat := (s.timelines.entries.filter (fun e => e.2 == ctx)).map (fun e => e.1)

/-- The clusters of a context's cores. -/
def State.clustersOf (s : State) (ctx : Nat) : List Nat := (s.coresOf ctx).foldl (fun l c => insertNat l (clusterOf c)) []

/-- Every core of a context takes the other colour (07 R188). -/
def State.flip (s : State) (ctx : Nat) (c : Bool) : State :=
  (s.coresOf ctx).foldl (fun s i => s.modCore i (fun k => { k with colour := !c, minsent := none })) s

/-- SENT less RECV of a colour of a core. -/
def Core.balance (k : Core) (c : Bool) : Word := if c then k.sent1 - k.recv1 else k.sent0 - k.recv0

/-- The sum of the balances of a context's cores (07 R188). -/
def State.balance (s : State) (ctx : Nat) (c : Bool) : Word := (s.coresOf ctx).foldl (fun n i => n + (s.core i).balance c) 0

/-- The least of the floors of a timeline's cores and of the MINSENT of every core of its context (07 R188). -/
def State.floorOf (s : State) (ctx t : Nat) : Option Key :=
  (s.coresOf ctx).foldl (fun m i =>
    let k := s.core i
    keyMin (keyMin m k.minsent) (if k.force.tlid = t then k.floor else none)) none

/-- The GVT of a timeline that the last round closed has announced, whether or not its broadcast has reached every cluster (07
R188, R189). -/
def State.announcedAt (s : State) (t : Nat) : Option Key := s.announced.getD t (some ⟨0, 0, 0⟩)

/-- A commit agent still holds a FINISHED activation below the previous GVT (07 R188). -/
def State.commitsLeft (s : State) (ctx : Nat) : Bool :=
  (s.coresOf ctx).any (fun i => (s.core i).acts.any (fun a => a.finished && a.key.below (s.announcedAt a.timeline)))

/-- A timeline's new GVT announced; a finite one never falls (07 R188). -/
def State.announce (s : State) (t : Nat) (g : Option Key) : State :=
  let keep := match s.announcedAt t, g with
    | some old, some new => new.lt old
    | _, _ => false
  if keep then s else { s with announced := s.announced.set t g }

/-- A cluster holds a timeline's new GVT; a finite one never falls (07 R188, R189). -/
def State.adopt (s : State) (cluster t : Nat) (g : Option Key) : State :=
  let keep := match s.gvtAt cluster t, g with
    | some old, some new => new.lt old
    | _, _ => false
  if keep then s else s.modCluster cluster (fun k => { k with gvt := k.gvt.set t g })

/-- The last round of a switch-out has been run (07 R193). -/
def Switch.lastRun (w : Switch) : Bool :=
  match w with
  | .window _ b => b
  | .agreed _ => false
  | .none_ => false

/-- A round starts (07 R188, R189): FLIP reaches every core of the context at one moment (log 90). Arguments: context. -/
def execGvtRoundStart (s : State) : Out :=
  let ctx := s.arg 0
  let c := s.ctx ctx
  match c.round with
  | some r =>
    if r.open_ || c.st ≠ .running || c.sw.lastRun then .next s
    else
      let s := s.flip ctx r.colour
      let s := s.modCtx ctx (fun c => { c with round := some ⟨r.colour, s.clock, true, s.clock⟩ })
      .next (s.dueOne .gvtPass [ctx])
  | none => .next s

/-- The arguments that carry a GVT in a broadcast: whether it is finite, and its key. -/
def keyArgs (g : Option Key) : List Nat :=
  match g with
  | some k => [1, k.vrt, k.src, k.seq]
  | none => [0, 0, 0, 0]

/-- Clock cycles from a pass that did not close its round to the next (07 R189: about 0.3 µs). -/
def passCycles : Nat := 1080

/-- One pass of the reduction (07 R188): the floors are reported, by every core at one moment (log 90), and the round closes when the
counts balance and no commit is left. Arguments: context. -/
def execGvtPass (s : State) : Out :=
  let ctx := s.arg 0
  match (s.ctx ctx).round with
  | some r =>
    if !r.open_ then .next s
    else
      let ts := (s.timelinesOf ctx).map (fun t => (t, s.floorOf ctx t))
      let closed := s.balance ctx r.colour == 0 && !s.commitsLeft ctx
      let s := (s.coresOf ctx).foldl (fun s i => s.modCore i (fun k => { k with lvtNote := [] })) s
      if closed then
        let s := s.modCtx ctx (fun c => { c with round := some ⟨!r.colour, r.start, false, 0⟩ })
        let s := ts.foldl (fun (s : State) t => s.announce t.1 t.2) s
        .next (s.due (ts.flatMap (fun t => (s.clustersOf ctx).map (fun k => ⟨.gvtAdopt, [k, t.1] ++ keyArgs t.2⟩))))
      else .next (s.modCtx ctx (fun c => { c with round := some { r with next := s.clock + passCycles } }))
  | none => .next s

/-- The slots of those of some cores whose QT holds an entry, to take one (07 R175). -/
def State.qtTakers (s : State) (cores : List Nat) : List Due :=
  (cores.filter (fun c => !((s.core c).queue 4).isEmpty)).flatMap (fun c => (List.range 4).map (fun i => ⟨.activate, [c, i]⟩))

/-- A cluster adopts a timeline's GVT (07 R189): its finished activations may commit and its held entries may run.
Arguments: cluster, timeline; then whether the GVT is finite, and its key. -/
def execGvtAdopt (s : State) : Out :=
  let (k, t) := (s.arg 0, s.arg 1)
  let s := s.adopt k t (if s.arg 2 = 1 then some ⟨s.arg 3, s.arg 4, s.arg 5⟩ else none)
  .next ((s.dueOne .commit [k]).due (s.qtTakers ((List.range 8).map (fun i => k * 8 + i))))

/-! Commit (05 R138; 07 R190). -/

/-- The finished activation of a cluster that commits next: the lowest key below its held GVT (07 R190). -/
def State.nextCommit (s : State) (cluster : Nat) : Option (Nat × Act) :=
  ((List.range 8).flatMap (fun i => ((s.core (cluster * 8 + i)).acts.filter (fun a =>
    a.finished && a.key.below (s.gvtAt cluster a.timeline))).map (fun a => (cluster * 8 + i, a)))).foldl (fun m x => match m with
      | none => some x
      | some y => if x.2.key.lt y.2.key then some x else some y) none

/-- The units of a Pantry line that the activation wrote, from byte i up: a start and the bytes, by aligned 8 bytes, or a whole
granule whose tag bit is set (05 R113). -/
def pantryRuns (p : PLine) : Nat → Nat → List (Nat × List Byte)
  | 0, _ => []
  | n + 1, i =>
    if p.mask.getLsbD i then
      let b : Byte := BitVec.ofNat 8 (bitsOf p.data.toNat (8 * i) 8)
      match pantryRuns p n (i + 1) with
      | (j, l) :: t => if j = i + 1 ∧ (j % 8 ≠ 0 ∨ (p.tags.getLsbD (i / 16) ∧ j % 16 ≠ 0)) then (i, b :: l) :: t else (i, [b]) :: (j, l) :: t
      | [] => [(i, [b])]
    else pantryRuns p n (i + 1)

/-- One Pantry line of an activation of a timeline performed at its home by the commit agent (05 R113, R114, R138): a granule
whose tag bit is set with its tag. -/
def State.commitLine (s : State) (timeline : Nat) (p : PLine) : State :=
  (pantryRuns p 64 0).foldl (fun (s : State) r =>
    let a := 64 * p.line + r.1
    if isHostFrame (a / 4096) && decide (a < 2 ^ 52) then s.postHost (dieOf p.core) a r.2
    else s.homeWrite (commitAgent (clusterOf p.core)) [] (some timeline) (fun w => w.timeline == some timeline) a r.2
      (if r.2.length = 16 && p.tags.getLsbD (r.1 / 16) then some true else none) p.keyid) s

/-- The writes that an agent has made since a write number, made one release at `pod` that carries a view with all of them (05
R122, R138). -/
def State.sealWrites (s : State) (agent first : Nat) (view : List Nat) : State :=
  let mine := (s.writes.entries.filter (fun w => decide (first ≤ w.1) && w.2.agent == agent)).map (fun w => w.1)
  let all := joinNat view mine
  mine.foldl (fun (s : State) i => match s.writes.get? i with
    | some w => { s with writes := s.writes.set i { w with rels := [(6, all)] } }
    | none => s) s

/-- The Pantry step of an activation of a timeline (05 R138): its lines performed together, one release at `pod`. -/
def State.commitLines (s : State) (cluster timeline : Nat) (view : List Nat) (l : List PLine) : State :=
  (l.foldl (fun (s : State) p => s.commitLine timeline p) s).sealWrites (commitAgent cluster) s.nextWrite view

/-- A dropped deferred action counted (07 R191). -/
def State.countTl (s : State) (ctx timeline cause : Nat) (val : Word) : State :=
  s.modCtx ctx (fun c =>
    let p := c.page
    let n := bitsOf p.tlerr.toNat 0 32
    { c with page :=
      if n = 0 then { p with tlerr := BitVec.ofNat 64 (cause % 256 * 2 ^ 40 + timeline % 256 * 2 ^ 32 + 1), tlerrval := val }
      else { p with tlerr := setField p.tlerr 0 32 (min (n + 1) 0xFFFFFFFF) } })

/-- The commit agent of a core's cluster as it reaches the memory of the core's context. -/
def State.commitEng (s : State) (core : Nat) : Eng :=
  { agent := commitAgent (clusterOf core), ctx := (s.core core).ctx, cluster := clusterOf core, unit := 8 }

/-- The fault of a deferred kick store, checked as its instruction checks it (12 R323), as a cause that an engine's access leaves. -/
def State.kickFault (s : State) (core off n : Nat) (v : Word) : Option Nat :=
  if n ≠ 8 then some Cause.notmapped.code
  else if off = 0x10000 then
    let head := v.toNat % 65536
    if v.toNat ≠ head then some Cause.resfield.code
    else if head % 32 ≠ 0 then some Cause.align.code
    else if (s.core core).force.closed head 32 false || decide (65536 < head + 32) then some Cause.notmapped.code else none
  else
    let a := v.toNat % 2 ^ 57
    if v.toNat ≠ a then some Cause.resfield.code
    else if a % 64 ≠ 0 then some Cause.align.code
    else
      match s.engPage (s.commitEng core) 0 a false with
      | .error f => some f
      | .ok _ => none

/-- An agent's writes still in its store buffer performed at their homes, oldest first (05 R115, R116). -/
def State.drain (s : State) (agent : Nat) : State :=
  s.force ((s.writes.entries.filter (fun w => w.2.agent == agent)).map (fun w => w.1))

/-- A deferred store at commit (07 R190), by the commit agent: relaxed, or a release once its writes before it have performed
(log 74). -/
def State.commitStore (s : State) (d : Deferred) (space ea n : Nat) (v : Word) (rel : Option Nat) : Except (Nat × Word) State :=
  let ctx := (s.core d.core).ctx
  let e := s.commitEng d.core
  let xv := BitVec.ofNat 64 ea
  let bs := wordBytes n v
  let s := if rel.isSome then s.drain e.agent else s
  let rels := match rel with
    | some k => [(k, s.view e.agent)]
    | none => []
  if space = 4 then
    let reg := ea / 8 * 8
    if 2 ^ 20 ≤ ea then .error (Cause.notmapped.code, xv)
    else if reg = 0x10000 ∨ reg = 0x10008 then
      (match s.kickFault d.core reg n v with
       | some f => .error (f, if n ≠ 8 then xv else v)
       | none => .ok (if reg = 0x10000 then s.kickChain d.core d.slot v.toNat 1 (s.view e.agent)
           else (s.engTouched e v.toNat 0 64 false).kickColl d.core d.slot v.toNat 1 (s.view e.agent)))
    else if reg = 0xF80 then .ok (if ea % 8 = 0 then s.pmRequest ctx (v.toNat % 16) else s)
    else .ok (s.ctrlWrite d.core ea n v)
  else if space = 2 then
    match s.peerCore ctx (ea / 65536) with
    | none => .error (Cause.notmapped.code, xv)
    | some c =>
      let f := (s.core c).force
      if f.closed (ea % 65536) n true || f.meets (ea % 65536) n then .error (Cause.notmapped.code, xv)
      else .ok (s.writeAs e.agent 8 rels (localAddr c (ea % 65536)) bs 0)
  else
    match s.engWrite e (space * 2 ^ 61 + ea) 0 bs rels with
    | .error f => .error (f, xv)
    | .ok s => .ok s

/-- A deferred launch at commit (07 R190; 12 R334). -/
def State.commitLaunch (s : State) (d : Deferred) (space ea : Nat) : Except (Nat × Word) State :=
  let e := s.commitEng d.core
  let xv := BitVec.ofNat 64 ea
  match s.engRead e (if space = 1 then localDesc d.core ea else ea) 0 64 with
  | .error c => .error (c, xv)
  | .ok (bs, s) =>
    let r := recordOf bs
    match recordFault r (space == 1) with
    | some (f, a, _) => .error (f.code, BitVec.ofNat 64 a)
    | none => .ok (s.launch e.ctx ⟨r, ea, none, none, s.view e.agent, false, false⟩).2

/-- A deferred action executed at commit; a fault drops it, of an uncorrectable line too (04 R97; 07 R190, R191). -/
def State.runDeferred (s : State) (timeline : Nat) (d : Deferred) : State :=
  let ctx := (s.core d.core).ctx
  let r : Except (Nat × Word) State := match d.act with
    | .store _ space ea n v rel => s.commitStore d space ea n v rel
    | .send w pay => .ok (s.post d.core (slotAgent d.core d.slot) 0 (w &&& ~~~ 0x400000000000) (w.getLsbD 46) pay
        (s.view (commitAgent (clusterOf d.core)))).1
    | .space _ u j => .ok (s.sendSpace d.core u j)
    | .window u j => .ok (s.sendWindow d.core u j)
    | .launch _ space ea => s.commitLaunch d space ea
  match r with
  | .ok s => s
  | .error (f, v) =>
    let (c, s) := s.causeOf f
    s.countTl ctx timeline c v

/-- The commit of one activation (05 R138; 07 R190). -/
def State.commitAct (s : State) (cluster core : Nat) (a : Act) : State :=
  let mine (p : PLine) : Bool := p.core == core && p.key == a.key
  let k := s.cluster cluster
  let s := s.joinView (commitAgent cluster) a.view
  let s := s.commitLines cluster a.timeline a.view (k.pantry.filter mine)
  let acts := k.commitQ.filter (fun d => d.core == core && d.key == a.key)
  let s := s.modCluster cluster (fun k => { k with
    pantry := k.pantry.filter (fun p => !mine p),
    commitQ := k.commitQ.filter (fun d => !(d.core == core && d.key == a.key)) })
  let s := ((s.larderDrop core false (fun q => q == a.key)).dropDir core [a.key]).endHolds core [a.key]
  let s := s.modCore core (fun c => { c with acts := c.acts.filter (fun b => b.key != a.key) })
  let s := acts.foldl (fun s d => s.runDeferred a.timeline d) s
  s.modCore core (fun c => (c.setQueue 4 ((c.queue 4).filter (fun e => !(e.taken && e.msg.key == a.key)))).heads s.clock)

/-- Two Pantry entries hold a byte of one location. -/
def PLine.meets (p q : PLine) : Bool := p.line == q.line && (p.mask &&& q.mask) != 0

/-- An activation may commit: what its slot saw has performed (05 R116, R138), and no activation of its timeline with a lower key
is still to write one of its locations (R114; log 70). -/
def State.mayCommit (s : State) (cluster core : Nat) (a : Act) : Bool :=
  let mine := (s.cluster cluster).pantry.filter (fun p => p.core == core && p.key == a.key)
  s.performedAll (joinNat (s.view (commitAgent cluster)) a.view) &&
    s.clusters.values.all (fun k => k.pantry.all (fun p =>
      !(p.key.lt a.key && mine.any p.meets && (s.core p.core).acts.any (fun b => b.key == p.key && b.timeline == a.timeline))))

/-- The commit agent commits a finished activation below GVT (07 R190), once it may. Arguments: cluster. -/
def execCommit (s : State) : Out :=
  let cl := s.arg 0
  match s.nextCommit cl with
  | none => .next s
  | some (core, a) =>
    if !s.mayCommit cl core a then .next (s.dueOne .commit [cl])
    else
      let s := (s.commitAct cl core a).dueOne .commit [cl]
      .next ((s.dueOne .ejectAccept [core]).due (s.qtTakers (s.coresOf (s.core core).ctx)))

/-- The commits of several clusters, one after another in the order of their keys (05 R114). -/
def State.commitAll (clusters : List Nat) : Nat → State → State
  | 0, s => s
  | n + 1, s =>
    match clusters.foldl (fun (m : Option (Nat × Nat × Act)) k => match m, s.nextCommit k with
      | some x, some y => if y.2.key.lt x.2.2.key then some (k, y) else some x
      | none, some y => some (k, y)
      | m, none => m) none with
    | none => s
    | some (k, core, a) => State.commitAll clusters n (s.commitAct k core a)

/-- A timed message of a context. -/
def Msg.timedOf (m : Msg) (ctx : Nat) : Bool := m.dq == 4 && m.ctx == ctx

/-- The device still carries timed messages of a context on: from a port, down a channel, out of an eject buffer (07 R188). One
that waits for room that only its receiver's next activations can make is not carried on. -/
def State.carries (s : State) (ctx : Nat) : Bool :=
  let mine (m : Msg) : Bool := m.timedOf ctx
  let leaves (l : List Msg) : Bool :=
    match l with
    | m :: _ => l.any mine && !(s.inPartition m.ctx m.dest && s.backs m)
    | [] => false
  let lands (c : Channel) : Bool :=
    match c.msgs with
    | m :: _ => c.msgs.any mine && (m.sign || !(s.core c.core).saved || !s.lateFull ctx c.core)
    | [] => false
  (s.coresOf ctx).any (fun c => leaves (s.core c).port ||
    ((s.core c).eject.any mine && (acceptable (s.core c) [] (s.core c).eject).isSome)) || s.channels.any lands

/-- The last round of a context can be run (07 R193): its slots are at rest, the messages it counts have been received, and what
its commits wait for has performed (05 R116, R138). -/
def State.roundReady (s : State) (ctx : Nat) : Bool :=
  !s.carries ctx && (s.eager || s.writes.entries.all (fun w => w.2.reach == .sys))

/-- The least key of the timed messages of a context that no core has accepted: those that wait in ports, channels and eject buffers,
and those kept with its image (07 R188, R193; log 91). -/
def State.onTheWay (s : State) (ctx : Nat) : Option Key :=
  let l := (s.coresOf ctx).flatMap (fun c => (s.core c).port ++ (s.core c).eject) ++ s.channels.flatMap (fun c => c.msgs) ++
    (s.ctx ctx).image.late
  (l.filter (fun m => m.timedOf ctx)).foldl (fun g m => keyMin g (some m.key)) none

/-- The last round of a context and what follows it at a switch-out (07 R188, R193): the cores take the other colour, each
timeline's GVT is the least key pending, its commits are made, and every activation still uncommitted is rolled back and
re-queued. A round still open closes with it, and broadcasts of earlier rounds are overtaken. -/
def State.lastRound (s : State) (ctx : Nat) : State :=
  let ks := s.clustersOf ctx
  let ts := s.timelinesOf ctx
  let colour := match (s.ctx ctx).round with
    | some r => if r.open_ then !r.colour else r.colour
    | none => false
  let s := s.flip ctx colour
  let s := { s with agenda := s.agenda.filter (fun d => !(d.step == .gvtAdopt && ts.contains (d.args.getD 1 0))) }
  let s := ts.foldl (fun (s : State) t =>
    let g := keyMin (s.floorOf ctx t) (s.onTheWay ctx)
    ks.foldl (fun s k => s.adopt k t g) (s.announce t g)) s
  let s := State.commitAll ks (256 * ks.length) s
  let s := (s.coresOf ctx).foldl (fun (s : State) c =>
    (s.core c).acts.foldl (fun (s : State) a =>
      if (s.core c).acts.any (fun b => b.key == a.key) then s.rollback c a.key .free false else s) s) s
  s.modCtx ctx (fun c =>
    { c with round := c.round.map (fun r => { r with colour := !colour, open_ := false, next := 0 })
             sw := match c.sw with
               | .window st _ => .window st true
               | w => w })

end Sys2Proof.Machine
end

