-- ==== Sys2Proof/Machine/Control.lean ====
section
/-! DEFINITION. Branches, loops and constants (10 R242, R261 to R266), gangs and barriers (R267 to R272; 06 R155 to R157,
R160). -/

namespace Sys2Proof.Machine

/-- The running slot sent to a target at its next bundle, with the trace record of a taken branch (10 R261; 15 R387). -/
def State.jump (s : State) (target : Int) : State :=
  let s := s.modMe (fun x => { x with npc := target })
  s.trace 2 s.cur.core s.cur.slot 0 target

/-- `cnop` (10 R266): no change beyond the issue of its bundle. -/
def execCnop (s : State) : Out := .next s

/-- `br` (10 R262). -/
def execBr (off : BitVec 22) (ext : Option (BitVec 32)) (s : State) : Out :=
  .next (s.jump (branchTarget s.me.pc off.toInt ext))

/-- `bcc` (10 R263). -/
def execBcc (cnd : BitVec 3) (a b : BitVec 5) (off : BitVec 9) (ext : Option (BitVec 32)) (s : State) : Out :=
  match bccHolds cnd (s.rdG a) (s.rdG b) with
  | some true => .next (s.jump (branchTarget s.me.pc off.toInt ext))
  | some false => .next s
  | none => .refused (.illFormed "BCC")

/-- `jal` (10 R264). -/
def execJal (d : BitVec 5) (off : BitVec 17) (ext : Option (BitVec 32)) (s : State) : Out :=
  let pc := s.me.pc
  .next ((s.wrG d (wordOfInt (pc + 8))).jump (branchTarget pc off.toInt ext))

/-- `jalr` (10 R264): the target is computed from the register as read at issue. -/
def execJalr (d r : BitVec 5) (off : BitVec 12) (s : State) : Out :=
  .next ((s.wrG d (wordOfInt (s.me.pc + 8))).jump ((s.rdG r).toNat + off.toInt * 8))

/-- `loop` (10 R265): a destination of g0 is no instruction. -/
def execLoop (d : BitVec 5) (off : BitVec 17) (ext : Option (BitVec 32)) (s : State) : Out :=
  if d = 0 then .refused (.illFormed "LOOP")
  else
    let x := s.rdG d - 1
    let s' := s.wrG d x
    .next (if x = 0 then s' else s'.jump (branchTarget s.me.pc off.toInt ext))

/-- `li` (10 R242). -/
def execLi (d : BitVec 5) (imm : BitVec 16) (ext : Option (BitVec 32)) (s : State) : Out := .next (s.wrG d (liValue imm ext))

/-- `li.hi` (10 R242). -/
def execLiHi (d : BitVec 5) (ext : BitVec 32) (s : State) : Out :=
  .next (s.wrG d (ext ++ (s.rdG d).setWidth 32 : BitVec 64))

/-! Gangs. -/

/-- `gang` (10 R267): the slot parks until the cluster has decided. -/
def execGang (d : BitVec 5) (sz : BitVec 2) (s : State) : Out :=
  let x := s.me
  if sz = 3 then .refused (.illFormed "GANG")
  else if x.timed || x.tl ≠ 0 then s.trapOut .illegal 0 0
  else if x.gang.isSome then s.trapOut .gangfault 0 0
  else .next ((s.parkDone (.gang (2 ^ (sz.toNat + 1)) d)).dueOne .gangDecision [s.cur.core, s.cur.slot])

/-- Agents that release to and acquire from one another (05 R123; 06 R160): each takes the views of all. -/
def State.joinAll (s : State) (agents : List Nat) : State :=
  let view := agents.foldl (fun v a => joinNat v (s.view a)) []
  if view.isEmpty then s else agents.foldl (fun (s : State) a => s.joinView a view) s

/-- The formation of a gang in one step at the cluster (06 R155; 10 R268): every member's destination receives its own
index (log 15); a follower issues under the leader's code capability (log 73), and of its XSTAT only the gang fields change. -/
def State.formGang (s : State) (core slot size : Nat) (d : BitVec 5) : State :=
  let r : GangRef := ⟨core, size⟩
  let others := (gangCores r).filter (fun c => c != core)
  if others.all (fun c => decide ((s.slotAt c slot).st = .empty)) then
    let lead := s.slotAt core slot
    let code := size.log2
    let stat (role : Nat) (w : Word) : Word := setField (setField w 11 2 role) 13 2 code
    let s := others.foldl (fun (s : State) c =>
      let s := s.modSlotAt c slot (fun x =>
        ({ x with st := .follower core, g := lead.g, c := lead.c, v := lead.v, k := lead.k, code := lead.code,
                  xstat := stat 2 x.xstat, gang := some r, pend := [], board := [] }).wrG d (BitVec.ofNat 64 (c % size)))
      s.joinView (slotAgent c slot) (s.view (slotAgent core slot))) s
    s.modSlotAt core slot (fun x =>
      ({ x with st := .ready, xstat := stat 1 x.xstat, gang := some r }).wrG d (BitVec.ofNat 64 (core % size)))
  else s.modSlotAt core slot (fun x => ({ x with st := .ready }).wrG d (BitVec.allOnes 64))

/-- The cluster's decision on a gang (06 R155); a slot that waited for it in its switch window then takes the overrun path (14
R366). Arguments: core, slot. -/
def execGangDecision (s : State) : Out :=
  let (core, slot) := (s.arg 0, s.arg 1)
  match (s.slotAt core slot).st with
  | .parked (.gang size d) =>
    let s := s.formGang core slot size d
    .next (if (s.core core).window then s.dueOne .overrunStop [core, slot] else s)
  | _ => .next s

/-- `disband` (10 R269). -/
def execDisband (s : State) : Out := .next (if s.me.gangRole = 1 then s.disbandMine else s)

/-- Element e of member j after an exchange (10 R270). -/
def exchanged (members : List VWord) (w n j e : Nat) : Nat := elem (members.getD (e % n) 0) w (e / n * n + j)

/-- `xchg` (10 R270): every member's source is read before any member's destination is written. -/
def execXchg (vd vs : BitVec 5) (esz : BitVec 2) (s : State) : Out :=
  if esz = 3 then .refused (.illFormed "XCHG")
  else
    match s.me.gang, s.me.timed with
    | some r, false =>
      let w := 8 * 2 ^ esz.toNat
      let cores := gangCores r
      let vals := cores.map (fun c => (s.slotAt c s.cur.slot).rdV vs)
      .next (cores.foldl (fun s c => s.modSlotAt c s.cur.slot (fun x =>
        x.wrV vd (packElems w ((List.range (512 / w)).map (exchanged vals w r.size (c % r.size)))))) s)
    | _, _ => s.trapOut .illegal 0 0

/-! Barriers (06 R160). -/

/-- The members of a barrier of a core at a level (06 R160): 1 the cluster, 2 the block. -/
def State.barMembers (s : State) (core level : Nat) : List Nat :=
  if level = 2 then (match s.blockOf core with
    | some (_, b) => b.cores
    | none => [])
  else (List.range 8).map (fun i => core / 8 * 8 + i)

/-- The arrivals of a core at a level so far. -/
def State.arrivalsAt (s : State) (core level : Nat) : Nat :=
  if level = 2 then (match s.blockOf core with
    | some (_, b) => b.arr.getD core 0
    | none => 0)
  else (s.cluster (clusterOf core)).clusArr.getD core 0

/-- A view released into an episode of a map of them. -/
def putView (m : KMap (List Nat)) (e : Nat) (view : List Nat) : KMap (List Nat) :=
  if view.isEmpty then m else m.modify e [] (fun l => joinNat l view)

/-- One arrival of a core at a level counted, with the view that it releases into its episode (06 R160). -/
def State.arrive (s : State) (level core : Nat) (view : List Nat) : State :=
  let e := s.arrivalsAt core level + 1
  if level = 2 then (match (s.cluster (clusterOf core)).block with
    | some i => (match s.blocks.get? i with
      | some b => { s with blocks := s.blocks.set i { b with arr := b.arr.set core e, views := putView b.views e view } }
      | none => s)
    | none => s)
  else s.modCluster (clusterOf core) (fun c => { c with
    clusArr := c.clusArr.set core e, clusViews := putView c.clusViews e view })

/-- What an episode of a level has released (06 R160). -/
def State.episodeView (s : State) (core level episode : Nat) : List Nat :=
  if level = 2 then (match s.blockOf core with
    | some (_, b) => b.views.getD episode []
    | none => [])
  else (s.cluster (clusterOf core)).clusViews.getD episode []

/-- An episode is complete once every member has arrived or exited, or its block is stopping (06 R160, R167). -/
def State.episodeDone (s : State) (core level episode : Nat) : Bool :=
  (s.barMembers core level).all (fun c => decide (episode ≤ s.arrivalsAt c level) || (s.core c).exited) ||
    (match s.blockOf core with
     | some (_, b) => b.stopping
     | none => false)

/-- A slot arrived through the `bar` at its pc: the level and the episode. -/
def Slot.arrivedAt (x : Slot) (level : Nat) : Option Nat :=
  match x.arrived with
  | some (l, e, pc) => if l = level ∧ pc = x.pc then some e else none
  | none => none

/-- Every core of the running slot, or of its gang, arrives at its next episode of a level (10 R271); a `bar` that re-executes has
arrived before (R272). -/
def State.arriveAll (s : State) (level : Nat) : State :=
  if (s.me.arrivedAt level).isSome then s
  else
    let i := s.cur.slot
    let pc := s.me.pc
    let s := s.memberCores.foldl (fun (s : State) c =>
      let s := s.arrive level c (s.view (slotAgent c i))
      s.modSlotAt c i (fun x => { x with arrived := some (level, s.arrivalsAt c level, pc) })) s
    s.dueOne .barrierComplete [s.cur.core, level]

/-- The cores and episodes at which the running slot's `bar` has arrived. -/
def State.myEpisodes (s : State) : List (Nat × Nat) :=
  s.memberCores.filterMap (fun c => (s.slotAt c s.cur.slot).arrived.map (fun a => (c, a.2.1)))

/-- Each member of the running slot's gang acquires what its episodes have released, and its `bar` is over (10 R271). -/
def State.passBar (s : State) (level : Nat) : State :=
  let i := s.cur.slot
  let view := s.myEpisodes.foldl (fun v e => joinNat v (s.episodeView e.1 level e.2)) []
  s.memberCores.foldl (fun (s : State) c =>
    (s.modSlotAt c i (fun x => { x with arrived := none })).joinView (slotAgent c i) view) s

/-- `bar` (10 R271, R272): a gang's own barrier completes at once, its members acquiring one another's releases; at another level the
slot parks until the episodes of its cores are complete, and then re-executes. -/
def execBar (lvl : BitVec 2) (s : State) : Out :=
  if lvl = 3 then .refused (.illFormed "BAR")
  else if s.me.timed then s.trapOut .illegal 0 0
  else if lvl = 0 then .next (s.joinAll (s.memberCores.map (fun c => slotAgent c s.cur.slot)))
  else if (s.blockOf s.cur.core).isNone then s.trapOut .illegal 0 0
  else
    let s := s.arriveAll lvl.toNat
    if s.myEpisodes.all (fun e => s.episodeDone e.1 lvl.toNat e.2) then .next (s.passBar lvl.toNat)
    else .next (s.park (.bar lvl.toNat (s.myEpisodes.foldl (fun m e => max m e.2) 0)))

/-- The slots parked on completed episodes of a level woken (06 R160; 10 R271). -/
def State.completeBars (s : State) (core level : Nat) : State :=
  (s.barMembers core level).foldl (fun (s : State) c => s.modCore c (fun k => k.wakeIf (fun x => match x.st.why with
    | some (.bar l e) => l == level && s.episodeDone core level e
    | _ => false))) s

/-- A barrier episode's completion (06 R160). Arguments: core, level. -/
def execBarrierComplete (s : State) : Out := .next (s.completeBars (s.arg 0) (s.arg 1))

end Sys2Proof.Machine
end

