-- ==== Sys2Proof/Machine/Policy.lean ====
section
/-! DEFINITION. The words of a policy program (13 R353, R354): each acts on the run in progress, which holds the program's
registers, its candidates and the steps it has used. With no run in progress a word changes nothing. -/

namespace Sys2Proof.Machine

/-- A register of a run. -/
def PolRun.rd (r : PolRun) (i : BitVec 3) : Word := r.p.get (Fin.ofNat 8 i.toNat)

/-- A run with a register written, at its next word, with the steps of the word counted (R354). -/
def PolRun.wr (r : PolRun) (cost : Nat) (i : BitVec 3) (x : Word) : PolRun :=
  { r with p := r.p.set (Fin.ofNat 8 i.toNat).val x (Fin.ofNat 8 i.toNat).isLt, pc := r.pc + 1, steps := r.steps + cost }

/-- A run that goes on at a number of words from here. -/
def PolRun.go (r : PolRun) (n : Nat) : PolRun := { r with pc := r.pc + n, steps := r.steps + 1 }

/-- A field of a candidate: 0 past the last candidate, and for the fields that hold nothing (R353). -/
def PolRun.field (r : PolRun) (c : Nat) (f : Nat) : Word :=
  match r.cand[c]? with
  | some v => if f < 8 then v.get (Fin.ofNat 8 f) else 0
  | none => 0

/-- The index of the candidate whose field comes first by an order, ties to the lowest index; all ones with none (R353). -/
def PolRun.best (r : PolRun) (f : Nat) (first : Word → Word → Bool) : Word :=
  match (List.range r.cand.length).foldl (fun acc i => match acc with
      | none => some i
      | some j => if first (r.field i f) (r.field j f) then some i else some j) none with
  | some i => BitVec.ofNat 64 i
  | none => BitVec.allOnes 64

/-- The outcome of a word that acts on the run in progress. -/
def State.onRun (s : State) (f : PolRun → PolRun) : Out :=
  match s.polRun with
  | some r => .next { s with polRun := some (f r) }
  | none => .next s

/-- A word that combines two registers. -/
def polOp (f : Word → Word → Word) (d a b : BitVec 3) (s : State) : Out :=
  s.onRun (fun r => r.wr 1 d (f (r.rd a) (r.rd b)))

/-- `ret` (R353). -/
def execPolicyRet (a : BitVec 3) (s : State) : Out :=
  s.onRun (fun r => { r with result := some (r.rd a), steps := r.steps + 1 })

/-- `li` (R353). -/
def execPolicyLi (d : BitVec 3) (imm : BitVec 17) (s : State) : Out := s.onRun (fun r => r.wr 1 d (imm.signExtend 64))

/-- `add` (R353). -/
def execPolicyAdd (d a b : BitVec 3) (s : State) : Out := polOp (fun x y => x + y) d a b s

/-- `sub` (R353). -/
def execPolicySub (d a b : BitVec 3) (s : State) : Out := polOp (fun x y => x - y) d a b s

/-- `and` (R353). -/
def execPolicyAnd (d a b : BitVec 3) (s : State) : Out := polOp (fun x y => x &&& y) d a b s

/-- `or` (R353). -/
def execPolicyOr (d a b : BitVec 3) (s : State) : Out := polOp (fun x y => x ||| y) d a b s

/-- `shli` (R353). -/
def execPolicyShli (d a : BitVec 3) (imm : BitVec 17) (s : State) : Out :=
  s.onRun (fun r => r.wr 1 d (r.rd a <<< (imm.toNat % 64)))

/-- `shri` (R353). -/
def execPolicyShri (d a : BitVec 3) (imm : BitVec 17) (s : State) : Out :=
  s.onRun (fun r => r.wr 1 d (r.rd a >>> (imm.toNat % 64)))

/-- `minn` (R353). -/
def execPolicyMinn (d a b : BitVec 3) (s : State) : Out := polOp (fun x y => if x.toNat ≤ y.toNat then x else y) d a b s

/-- `maxn` (R353). -/
def execPolicyMaxn (d a b : BitVec 3) (s : State) : Out := polOp (fun x y => if x.toNat ≤ y.toNat then y else x) d a b s

/-- `ldf` (R353). -/
def execPolicyLdf (d a : BitVec 3) (imm : BitVec 17) (s : State) : Out :=
  s.onRun (fun r => r.wr 1 d (r.field (r.rd a).toNat (imm.toNat % 16)))

/-- `lds` (R353). -/
def execPolicyLds (d : BitVec 3) (imm : BitVec 17) (s : State) : Out :=
  s.onRun (fun r => r.wr 1 d ((s.ctx r.ctx).pstate.get (Fin.ofNat 16 imm.toNat)))

/-- `sts` (R353). -/
def execPolicySts (a : BitVec 3) (imm : BitVec 17) (s : State) : Out :=
  match s.polRun with
  | none => .next s
  | some r =>
    let i := Fin.ofNat 16 imm.toNat
    let s := s.modCtx r.ctx (fun c => { c with pstate := c.pstate.set i.val (r.rd a) i.isLt })
    .next { s with polRun := some (r.go 1) }

/-- `bltn` (R353). -/
def execPolicyBltn (a b : BitVec 3) (imm : BitVec 17) (s : State) : Out :=
  s.onRun (fun r => r.go (if (r.rd a).toNat < (r.rd b).toNat then imm.toNat + 1 else 1))

/-- `beq` (R353). -/
def execPolicyBeq (a b : BitVec 3) (imm : BitVec 17) (s : State) : Out :=
  s.onRun (fun r => r.go (if r.rd a = r.rd b then imm.toNat + 1 else 1))

/-- `argmax` (R353, R354): it costs one step and one for each candidate. -/
def execPolicyArgmax (d : BitVec 3) (imm : BitVec 17) (s : State) : Out :=
  s.onRun (fun r => r.wr (1 + r.cand.length) d (r.best (imm.toNat % 16) (fun x y => decide (y.toNat < x.toNat))))

/-- `argmin` (R353, R354): it costs one step and one for each candidate. -/
def execPolicyArgmin (d : BitVec 3) (imm : BitVec 17) (s : State) : Out :=
  s.onRun (fun r => r.wr (1 + r.cand.length) d (r.best (imm.toNat % 16) (fun x y => decide (x.toNat < y.toNat))))

/-- Whether a policy program is accepted (R354): its length, its words, its branch targets, its last word. -/
def policyOk (ws : List (BitVec 32)) : Bool :=
  let inRange (i : Nat) (w : BitVec 32) : Bool := match decodePolicy w.toNat with
    | some (.policyBltn _ _ imm) => decide (i + imm.toNat + 1 < ws.length)
    | some (.policyBeq _ _ imm) => decide (i + imm.toNat + 1 < ws.length)
    | some _ => true
    | none => false
  decide (1 ≤ ws.length) && decide (ws.length ≤ 128) && ws.zipIdx.all (fun e => inRange e.2 e.1) &&
    (match ws.getLast? with
     | some w => (match decodePolicy w.toNat with
       | some (.policyRet _) => true
       | _ => false)
     | none => false)

end Sys2Proof.Machine
end

