-- ==== Sys2Proof/Machine/HostQueues.lean ====
section
/-! DEFINITION. Host queues (13 R345 to R349), the events of a scheduling policy (13 R352 to R354) and graphs (06 R168,
R169). -/

namespace Sys2Proof.Machine

/-! Ring entries (13 R346, R347). -/

/-- A dword of an entry. -/
def entD (e : Vector Word 8) (i : Nat) : Nat := (e.get (Fin.ofNat 8 i)).toNat

/-- KIND of an entry. -/
def entKind (e : Vector Word 8) : Nat := entD e 0 % 256

/-- The dwords of each kind that must be zero. -/
def entZero (kind : Nat) : List Nat :=
  match kind with
  | 0 => [1, 2, 3, 4, 5, 6, 7]
  | 1 => [2, 3, 4, 5, 6, 7]
  | 2 => [3, 4, 5, 6, 7]
  | _ => [2, 4, 5, 6, 7]

/-- An entry that is not skipped: its KIND is assigned and its reserved bits are zero (13 R347). -/
def entOk (e : Vector Word 8) : Bool :=
  decide (entD e 0 ≤ 4) && (entZero (entKind e)).all (fun i => entD e i == 0)

/-- The step of an entry: one that is skipped is consumed as a NOP is. -/
def entStep (e : Vector Word 8) : Instr :=
  if !entOk e then .nop
  else match entKind e with
    | 0 => .nop
    | 1 => .grid
    | 2 => .graph
    | 3 => .signal
    | _ => .wait

/-- Entries from HEAD up to TAIL (13 R346). -/
def HostQueue.pending (q : HostQueue) : Nat := (q.tail + q.size - q.head) % q.size

/-- ERRCNT one more, saturating (13 R345). -/
def HostQueue.countErr (q : HostQueue) : HostQueue := { q with errcnt := min 255 (q.errcnt + 1) }

/-- The entry at HEAD passed: HEAD moves on, and the next entry is the head entry (13 R346). -/
def HostQueue.advance (q : HostQueue) (clock : Nat) : HostQueue :=
  { q with head := (q.head + 1) % q.size, entry := none, since := clock }

/-- The step of a queue's head entry: a ready GRID entry waits for the PICK (13 R352). -/
def HostQueue.stepDue (q : HostQueue) (num : Nat) : List Due :=
  match q.entry with
  | none => []
  | some e =>
    if q.busy ≠ .idle then []
    else match entStep e with
      | .grid => [⟨.policyPick, [q.ctx]⟩]
      | i => [⟨i, [num]⟩]

/-- The firmware of a package begins entries: no live update holds its queues at an entry boundary (13 R358). -/
def State.fwBegins (s : State) (pkg : Nat) : Bool := (s.pkg pkg).fw.update == .none_

/-- Sixty-four bytes of a ring as the firmware reads them through the queue's capability, a request to the host where the page lies
over host-window frames (01 R10; 13 R346); where they cannot be read they are free, and the host is told of an error (04 R97; log
93). -/
def State.ringBytes (s : State) (q : Nat) (h : HostQueue) : List Byte × State :=
  let ea := h.base.cursor + 64 * h.head
  let lost (s : State) : List Byte × State :=
    let (v, s) := s.draw 512
    (leBytes 64 v.toNat, s)
  match check26 h.base (fun sp => sp == 3) (needed .load false) ea 64 ea 64 with
  | some _ => lost s
  | none =>
    match s.engRead (s.podEng (queueAgent q) h.ctx) (3 * 2 ^ 61 + ea.toNat % 2 ^ 57) 0 64 with
    | .ok r => r
    | .error f => lost (s.causeOf f).2

/-- The entry at HEAD read, where one stands there and has not been read (13 R346). -/
def State.headRead (s : State) (q : Nat) : State :=
  let h := s.hq q
  if h.entry.isSome || h.size = 0 || h.pending = 0 then s
  else
    let (bs, s) := s.ringBytes q h
    s.modHq q (fun h => { h with entry := some (recordOf bs) })

/-- The firmware reads the entry at HEAD (13 R346), and its step is made due once the entry before it is done. -/
def State.readEntry (s : State) (q : Nat) : State :=
  if (s.hq q).state ≠ 1 || !s.fwBegins (q / 4096) then s
  else
    let s := s.headRead q
    s.due ((s.hq q).stepDue q)

/-- The entry in progress is done, and the next may begin (13 R347); a queue that comes to an entry boundary lets a live
update go on, and one that drains may be released. -/
def State.entryDone (s : State) (q : Nat) : State :=
  let s := s.modHq q (fun h => { h with busy := .idle })
  let s := s.readEntry q
  let s := if (s.hq q).state = 2 then s.dueOne .queueRelease [q] else s
  if (s.pkg (q / 4096)).fw.update = .quiescing then s.dueOne .liveUpdate [q / 4096] else s

/-- The entry at HEAD of an ACTIVE queue, ready to begin: the step that an event is for must be its own. -/
def State.ready (s : State) (q : Nat) (i : Instr) : Option (Vector Word 8) :=
  let h := s.hq q
  match h.entry with
  | some e => if h.state = 1 ∧ h.busy = .idle ∧ entStep e = i ∧ s.fwBegins (q / 4096) then some e else none
  | none => none

/-! Policy events (13 R352 to R354). -/

/-- The queues of a context with an entry pending, in ascending order (13 R353). -/
def State.candQueues (s : State) (ctx : Nat) : List Nat :=
  s.pkgs.entries.flatMap (fun p => (p.2.queues.entries.filter (fun e =>
    e.2.ctx == ctx && e.2.state == 1 && e.2.pending != 0)).map (fun e => p.1 * 4096 + e.1))

/-- A queue's grids in flight. -/
def State.flying (s : State) (h : HostQueue) : List (Nat × Grid) :=
  h.grids.filterMap (fun i => match s.grid h.ctx i with
    | some g => if g.complete then none else some (i, g)
    | none => none)

/-- A candidate's fields (13 R353). -/
def State.candidateOf (s : State) (q : Nat) : Vector Word 8 :=
  let h := s.hq q
  let live := s.flying h
  let blocks := (s.blocks.values.filter (fun b => b.ctx == h.ctx && live.any (fun g => g.1 == b.grid))).length
  #v[BitVec.ofNat 64 (q % 4096), BitVec.ofNat 64 h.prio, BitVec.ofNat 64 h.pending,
    BitVec.ofNat 64 ((s.clock - h.since) / Config.cyclesPerMicro), BitVec.ofNat 64 live.length, BitVec.ofNat 64 blocks,
    BitVec.ofNat 64 (match h.entry with
      | some e => entKind e
      | none => 0), 0]

/-- The queues with a GRID entry ready (13 R352). -/
def State.gridReady (s : State) (ctx : Nat) : List Nat := (s.candQueues ctx).filter (fun q => (s.ready q .grid).isSome)

/-- The queue of largest AGE, the default policy's PICK; ties go to the first (13 R352). -/
def State.oldest (s : State) (l : List Nat) : Option Nat :=
  l.foldl (fun m q => match m with
    | none => some q
    | some p => if (s.hq q).since < (s.hq p).since then some q else some p) none

/-- The default PICK: the step of the oldest ready GRID entry. -/
def State.pickDefault (s : State) (ctx : Nat) : State :=
  match s.oldest (s.gridReady ctx) with
  | some q => s.dueOne .grid [q]
  | none => s

/-- The clock at which a slice of a length in microseconds ends, less what a switch-out deducted (13 R350; 14 R367). -/
def State.setSlice (s : State) (ctx len : Nat) : State :=
  s.modCtx ctx (fun c => { c with sliceEnd := some (s.clock + (len * Config.cyclesPerMicro - c.deduct)), deduct := 0 })

/-- The effect of an event's result, `none` being the default policy's (13 R352, R353): a PICK that names a queue with no
GRID entry ready is the default's (log 36). -/
def State.polEffect (s : State) (event ctx : Nat) (queues : List Nat) (res : Option Word) : State :=
  match event, res with
  | 0, none => s.pickDefault ctx
  | 0, some v =>
    (match queues[v.toNat]? with
     | some q => if (s.gridReady ctx).contains q then s.dueOne .grid [q] else s.pickDefault ctx
     | none => s.pickDefault ctx)
  | 1, r =>
    (match queues with
     | q :: _ => s.modHq q (fun h => { h with prio := (r.getD 0).toNat % 256 })
     | [] => s)
  | _, r =>
    let n := (r.getD 0).toNat
    s.setSlice ctx (if n = 0 then (s.ctx ctx).slice else min n (s.ctx ctx).cap)

/-- An event of a context: its policy begins to run, every candidate's head entry read, or the default policy answers (13 R352,
R353). -/
def State.polEvent (s : State) (event ctx : Nat) (queues : List Nat) : State :=
  let c := s.ctx ctx
  if c.policy.isEmpty then s.polEffect event ctx queues none
  else
    let s := queues.foldl State.headRead s
    let p : Vector Word 8 := ((Vector.replicate 8 (0 : Word)).set 0 (BitVec.ofNat 64 event)).set 1 (BitVec.ofNat 64 queues.length)
    { s with polRun := some ⟨ctx, event, queues, queues.map s.candidateOf, p, 0, 0, none, false⟩ }

/-- A run has ended: in a fault the default's result is taken, and POLERR counts it (13 R354). -/
def State.polEnd (s : State) (r : PolRun) (res : Option Word) : State :=
  let bad := match res with
    | none => true
    | some v => r.event == 0 && decide (r.cand.length ≤ v.toNat)
  let s := { s with polRun := none }
  if bad then
    (s.modCtx r.ctx (fun c => { c with page := { c.page with
      polerr := BitVec.ofNat 64 (min (bitsOf c.page.polerr.toNat 0 32 + 1) 0xFFFFFFFF) } })).polEffect r.event r.ctx r.queues none
  else s.polEffect r.event r.ctx r.queues res

/-- The firmware picks whose grid is accepted next (13 R352). Arguments: context. -/
def execPolicyPick (s : State) : Out :=
  let ctx := s.arg 0
  match s.gridReady ctx with
  | [] => .next s
  | [q] => .next (s.dueOne .grid [q])
  | _ :: _ :: _ =>
    .next (if (s.ctx ctx).st = .running then s.polEvent 0 ctx (s.candQueues ctx) else s.pickDefault ctx)

/-- A doorbell's TAIL write (13 R346). Arguments: queue, value. -/
def execTailWrite (s : State) : Out :=
  let (q, v) := (s.arg 0, s.arg 1 % 2 ^ 32)
  let h := s.hq q
  if h.state ≠ 1 then .next s
  else if h.size ≤ v then .next (s.modHq q HostQueue.countErr)
  else
    let fresh := h.pending == 0
    let s := s.modHq q (fun h => { h with tail := v, since := if fresh then s.clock else h.since })
    if fresh && (s.hq q).pending != 0 then .next ((s.readEntry q).polEvent 1 h.ctx [q]) else .next s

/-! Entries (13 R347). -/

/-- The dword at a GLOBAL address that the firmware reads for a queue, an acquire at `sys` (06 R169; 13 R347). -/
def State.fwDword (s : State) (q ctx a : Nat) : Except Nat (Nat × State) :=
  if a % 8 ≠ 0 ∨ 2 ^ 57 ≤ a then .error Cause.align.code
  else (s.engRead (s.podEng (queueAgent q) ctx) a 0 8 true).map (fun r => (leNat r.1, r.2))

/-- A release at `sys` that the firmware makes for a queue may be made: what the queue's reads and grids brought has performed
(05 R116). -/
def State.queueReleased (s : State) (q : Nat) : Bool := s.performedAll (s.view (queueAgent q))

/-- A write made for a queue, a release at `sys` (06 R169; 13 R347, R348). -/
def State.queueWrite (s : State) (q ctx a align : Nat) (bs : List Byte) : State :=
  s.recordWrite (queueAgent q) ctx a align bs (s.view (queueAgent q))

/-- A NOP entry, or one that is skipped, consumed (13 R347). Arguments: queue. -/
def execNop (s : State) : Out :=
  let q := s.arg 0
  match s.ready q .nop with
  | none => .next s
  | some e =>
    .next ((s.modHq q (fun h => (if entOk e then h else h.countErr).advance s.clock)).entryDone q)

/-- The launch of a record at a GLOBAL address for a queue (13 R347): a record that fails a check is refused, one that
cannot be read is refused and counted in DERR. Its launch, and whether it is sound. -/
def State.readLaunch (s : State) (ctx q a : Nat) (node : Option (Nat × Nat)) : Launch × State :=
  match (if a % 64 = 0 ∧ a < 2 ^ 57 then s.engRead (s.podEng (queueAgent q) ctx) a 0 64 else .error 0) with
  | .ok (bs, s) =>
    let r := recordOf bs
    (⟨r, a, some q, node, s.view (queueAgent q), (recordFault r false).isSome, false⟩, s)
  | .error f =>
    (⟨Vector.replicate 8 0, a, some q, node, s.view (queueAgent q), true, true⟩,
      (s.causeOf f).2.countDrop ctx 5 (BitVec.ofNat 64 a))

/-- A GRID entry begins, or is done once its grid has triggered (13 R347). Arguments: queue. -/
def execGrid (s : State) : Out :=
  let q := s.arg 0
  let h := s.hq q
  match h.busy with
  | .grid id =>
    (match s.grid h.ctx id with
     | some g => .next (if g.triggered then (s.entryDone q).dueOne .policyPick [h.ctx] else s)
     | none => .next s)
  | _ =>
    match s.ready q .grid with
    | none => .next s
    | some e =>
      let (l, s) := s.readLaunch h.ctx q (entD e 1) none
      let (id, s) := s.launch h.ctx l
      let s := s.modHq q (fun h =>
        { (if l.refused then h.countErr else h).advance s.clock with busy := .grid id, grids := h.grids })
      .next ((s.readEntry q).dueOne .policyPick [h.ctx])

/-- A SIGNAL entry: it begins, and is done once every earlier grid has completed and its value is written (13 R347).
Arguments: queue. -/
def execSignal (s : State) : Out :=
  let q := s.arg 0
  let s := match s.ready q .signal with
    | some e => s.modHq q (fun h => { h.advance s.clock with busy := .signal (entD e 1) (entD e 3) })
    | none => s
  let h := s.hq q
  match h.busy with
  | .signal a v =>
    if !(s.flying h).isEmpty then .next s
    else if !s.queueReleased q then .next (s.dueOne .signal [q])
    else .next ((s.queueWrite q h.ctx a 8 (leBytes 8 v)).entryDone q)
  | _ => .next s

/-- A queue's WAIT entry has begun: the firmware reads its dword again and again. -/
def HostQueue.waits (h : HostQueue) : Bool :=
  match h.busy with
  | .wait _ _ => true
  | _ => false

/-- A WAIT entry: it begins, and is done once an acquire reads enough (13 R347); a dword that cannot be read never does (log
35). Arguments: queue. -/
def execWait (s : State) : Out :=
  let q := s.arg 0
  let s := match s.ready q .wait with
    | some e => s.modHq q (fun h => { h.advance s.clock with busy := .wait (entD e 1) (entD e 3) })
    | none => s
  let h := s.hq q
  match h.busy with
  | .wait a v =>
    (match s.fwDword q h.ctx a with
     | .ok (x, s) => .next (if v ≤ x then s.entryDone q else s)
     | .error f => .next (s.causeOf f).2)
  | _ => .next s

/-- A destroyed queue is released: its grids have completed and its graph has ended (13 R349). Arguments: queue. -/
def execQueueRelease (s : State) : Out :=
  let q := s.arg 0
  let h := s.hq q
  if h.state = 2 ∧ h.busy = .idle ∧ (s.flying h).isEmpty then
    .next (s.modHq q (fun h => { HostQueue.reset with head := h.head, errcnt := h.errcnt, disc := h.disc }))
  else .next s

/-! Graphs (06 R168). -/

/-- A graph as read: each node's dwords and successors. -/
structure GraphTable where
  nodes : List (List Nat)
  succs : List (List Nat)
  deriving DecidableEq, Repr

/-- Bytes of GLOBAL that the firmware reads for a queue. -/
def State.fwBytes (s : State) (q ctx a n : Nat) : Except Nat (List Byte × State) :=
  if 2 ^ 57 < a + n then .error 0 else s.engRead (s.podEng (queueAgent q) ctx) a 0 n

/-- The successor lists of nodes. -/
def State.readSuccs (s : State) (q ctx a : Nat) : List (List Nat) → Except Nat (List (List Nat) × State)
  | [] => .ok ([], s)
  | d :: t =>
    let w := d.getD 0 0
    let n := bitsOf w 48 16
    match s.fwBytes q ctx (a + 2 * bitsOf w 32 16) (2 * n) with
    | .error f => .error f
    | .ok (bs, s) =>
      match State.readSuccs s q ctx a t with
      | .error f => .error f
      | .ok (l, s) => .ok ((List.range n).map (fun i => leNat ((bs.drop (2 * i)).take 2)) :: l, s)

/-- A graph read from memory; an error where its header breaks R168, or with what its read meets. -/
def State.readGraph (s : State) (q ctx a : Nat) : Except Nat (GraphTable × State) :=
  match (if a % 64 = 0 then s.fwBytes q ctx a 64 else .error 0) with
  | .error f => .error f
  | .ok (bs, s) =>
    let d := dwordsOf 8 bs
    let n := d.getD 0 0
    let arr := d.getD 1 0
    if n = 0 || 4096 < n || arr % 64 ≠ 0 || 2 ^ 57 ≤ arr || 2 ^ 57 ≤ d.getD 2 0 || (d.drop 3).any (fun x => x != 0) then .error 0
    else
      match s.fwBytes q ctx arr (64 * n) with
      | .error f => .error f
      | .ok (bs, s) =>
        let nodes := (List.range n).map (fun i => dwordsOf 8 ((bs.drop (64 * i)).take 64))
        match s.readSuccs q ctx (d.getD 2 0) nodes with
        | .error f => .error f
        | .ok (l, s) => .ok (⟨nodes, l⟩, s)

/-- Fields of a node. -/
def nodeKind (d : List Nat) : Nat := d.getD 0 0 % 16
def nodeAddr (d : List Nat) : Nat := d.getD 1 0
def nodeArg (d : List Nat) : Nat := d.getD 2 0
def nodeArg2 (d : List Nat) : Nat := d.getD 3 0

/-- The predecessors of a node, one for each edge. -/
def GraphTable.preds (t : GraphTable) (i : Nat) : List Nat :=
  t.succs.zipIdx.flatMap (fun e => (e.1.filter (fun x => x == i)).map (fun _ => e.2))

/-- Nodes that every order of evaluation can reach after n rounds. -/
def GraphTable.reached (t : GraphTable) : Nat → List Nat
  | 0 => []
  | n + 1 =>
    let r := GraphTable.reached t n
    (List.range t.nodes.length).filter (fun i => (t.preds i).all r.contains)

/-- The checks of R168 on one graph: kinds, reserved bits, successors, predecessors, cycles. -/
def GraphTable.ok (t : GraphTable) : Bool :=
  let n := t.nodes.length
  (t.nodes.zipIdx.all (fun e =>
    let w := e.1.getD 0 0
    decide (1 ≤ nodeKind e.1) && decide (nodeKind e.1 ≤ 6) && bitsOf w 28 4 == 0 && bitsOf w 4 12 == 0 &&
      decide (nodeAddr e.1 < 2 ^ 57) && (e.1.drop 4).all (fun x => x == 0) &&
      bitsOf w 16 12 == (t.preds e.2).length)) &&
    t.succs.all (fun l => l.all (fun x => decide (x < n))) && (t.reached n).length == n

/-- The graphs that a node may run, none for address 0. -/
def State.subgraphs (s : State) (q ctx : Nat) (d : List Nat) : Except Nat (List Nat × State) :=
  match nodeKind d with
  | 4 => .ok ([nodeArg d, nodeArg2 d].filter (fun a => a != 0), s)
  | 5 => .ok ([nodeArg2 d].filter (fun a => a != 0), s)
  | 6 =>
    if nodeArg2 d = 0 || 4096 < nodeArg2 d then .error 0
    else match s.fwBytes q ctx (nodeArg d) (8 * nodeArg2 d) with
      | .error f => .error f
      | .ok (bs, s) => .ok ((dwordsOf (nodeArg2 d) bs).filter (fun a => a != 0), s)
  | _ => .ok ([], s)

/-- The checks of R168 on a graph and the graphs it may run, to a depth. -/
def State.checkGraph : Nat → State → Nat → Nat → Nat → Except Nat State
  | 0, _, _, _, _ => .error 0
  | k + 1, s, q, ctx, a =>
    match s.readGraph q ctx a with
    | .error f => .error f
    | .ok (t, s) =>
      if !t.ok then .error 0
      else t.nodes.foldl (fun (acc : Except Nat State) d => match acc with
        | .error f => .error f
        | .ok s => (match s.subgraphs q ctx d with
          | .error f => .error f
          | .ok (l, s) => l.foldl (fun (acc : Except Nat State) b => match acc with
            | .error f => .error f
            | .ok s => State.checkGraph k s q ctx b) (.ok s))) (.ok s)

/-! Evaluation (06 R169; 13 R348). -/

/-- The graph that a queue runs. -/
def HostQueue.run (h : HostQueue) : Option GraphRun :=
  match h.busy with
  | .graph r => some r
  | _ => none

/-- The run of a queue changed. -/
def State.modRun (s : State) (q : Nat) (f : GraphRun → GraphRun) : State :=
  s.modHq q (fun h => match h.busy with
    | .graph r => { h with busy := .graph (f r) }
    | _ => h)

/-- A frame of a run, and the run with a frame changed. -/
def GraphRun.frame (r : GraphRun) (i : Nat) : GFrame := r.frames.getD i ⟨none, 0, .empty, .empty⟩
def GraphRun.modFrame (r : GraphRun) (i : Nat) (f : GFrame → GFrame) : GraphRun :=
  { r with frames := r.frames.set i (f (r.frame i)) }

/-- The state of a node of a frame. -/
def GFrame.node (f : GFrame) (i : Nat) : GNode := f.nodes.getD i .waiting

/-- A node of a frame set. -/
def State.setNode (s : State) (q frame node : Nat) (x : GNode) : State :=
  s.modRun q (fun r => r.modFrame frame (fun f => { f with nodes := f.nodes.set node x }))

/-- A node is ready: it waits, and every predecessor has finished (06 R169). -/
def GFrame.isReady (f : GFrame) (t : GraphTable) (i : Nat) : Bool :=
  f.node i == .waiting && (t.preds i).all (fun p => f.node p == .finished)

/-- The argument that names a node of a frame. -/
def nodeNum (frame node : Nat) : Nat := frame * 4096 + node

/-- The step of a node's kind. -/
def nodeStep (d : List Nat) : Instr :=
  match nodeKind d with
  | 1 => .graphGridNode
  | 2 => .graphCopyNode
  | 3 => .graphSignalNode
  | 4 => .graphConditionalNode
  | 5 => .graphLoopNode
  | _ => .graphSwitchNode

/-- The graphs that the frames of a run evaluate, read again, none where one can no longer be read (05 R120; 06 R168). -/
def State.readTables (s : State) (q ctx : Nat) (r : GraphRun) : KMap (Option GraphTable) × State :=
  r.frames.entries.foldl (fun (acc : KMap (Option GraphTable) × State) e =>
    match acc.2.readGraph q ctx e.2.addr with
    | .ok (t, s) => (acc.1.set e.1 (some t), s)
    | .error f => (acc.1.set e.1 none, (acc.2.causeOf f).2)) (.empty, s)

/-- The steps of the ready nodes of every frame of a run; none once a node has ended the graph: then no frame evaluates another node,
nor does a loop read again, and the index is that of the node in its own graph (log 92). -/
def GraphRun.nodesDue (r : GraphRun) (tabs : KMap (Option GraphTable)) (q : Nat) : List Due :=
  if r.ending.isSome then []
  else r.frames.entries.flatMap (fun e => match tabs.getD e.1 none with
    | none => []
    | some t => (List.range t.nodes.length).filterMap (fun i =>
        if e.2.isReady t i then some ⟨nodeStep (t.nodes.getD i []), [q, nodeNum e.1 i]⟩ else none))

/-- A node ends the graph with a STATUS; the first to do so stands (06 R169). -/
def GraphRun.endAt (r : GraphRun) (node status : Nat) : GraphRun :=
  if r.ending.isSome then r else { r with ending := some node, status := status }

/-- A frame with every node finished; a graph that can no longer be read has none to run. -/
def GFrame.done (f : GFrame) (table : Option GraphTable) : Bool :=
  match table with
  | none => f.nodes.values.all (fun x => x != .running)
  | some t => (List.range t.nodes.length).all (fun i => f.node i == .finished)

/-- The frames that have finished hand over to their parent nodes, innermost first: a conditional or a switch finishes, a
loop reads again (06 R169). -/
def GraphRun.closeFrames (r : GraphRun) (tabs : KMap (Option GraphTable)) : GraphRun :=
  r.frames.entries.reverse.foldl (fun (r : GraphRun) e =>
    match e.2.parent with
    | none => r
    | some (pf, pn) =>
      if !(r.frame e.1).done (tabs.getD e.1 none) then r
      else
        let loop := (tabs.getD pf none).any (fun t => nodeKind (t.nodes.getD pn []) == 5)
        ({ r with frames := r.frames.erase e.1 } : GraphRun).modFrame pf (fun f =>
          { f with nodes := f.nodes.set pn (if loop then .waiting else .finished) })) r

/-- What the grids of a run have come to: a node finishes when its grid triggers, and ends the graph when its grid ends in
anything but DONE, one that was refused as it triggers (06 R169). -/
def State.takeGrids (s : State) (ctx : Nat) (r : GraphRun) : GraphRun :=
  r.grids.foldl (fun (r : GraphRun) e => match s.grid ctx e.1 with
    | none => r
    | some g =>
      let r := if g.triggered then r.modFrame e.2.1 (fun f => { f with nodes := f.nodes.set e.2.2 .finished }) else r
      if (g.complete || (g.triggered && g.launch.refused)) && g.status != 0 then r.endAt e.2.2 g.status else r) r

/-- The sixty-four bytes of a graph's result record (13 R348). -/
def resultRecord (status node : Nat) : List Byte := leBytes 8 (status % 256) ++ leBytes 8 (node % 2 ^ 32) ++ leBytes 48 0

/-- A graph goes on: grids and frames are taken in, ready nodes are made due, and a finished graph's record is written (06
R169; 13 R348). Arguments: queue. -/
def execGraphFinish (s : State) : Out :=
  let q := s.arg 0
  let h := s.hq q
  match h.run with
  | none => .next s
  | some r =>
    let (tabs, s) := s.readTables q h.ctx r
    let r := (s.takeGrids h.ctx r).closeFrames tabs
    let s := s.modRun q (fun _ => r)
    let running := r.frames.entries.any (fun f => f.2.nodes.entries.any (fun e => e.2 == .running &&
      !r.frames.values.any (fun g => g.parent == some (f.1, e.1))))
    let done := if r.ending.isSome then !running else (r.frame 0).done (tabs.getD 0 none)
    if done && !s.queueReleased q then .next (s.dueOne .graphFinish [q])
    else if done then
      .next ((s.queueWrite q h.ctx r.result 64 (resultRecord r.status (r.ending.getD 0xFFFFFFFF))).entryDone q)
    else .next (s.due (r.nodesDue tabs q))

/-- A GRAPH entry: the graph is checked, and runs or is refused (06 R168; 13 R347). Arguments: queue. -/
def execGraph (s : State) : Out :=
  let q := s.arg 0
  match s.ready q .graph with
  | none => .next s
  | some e =>
    let h := s.hq q
    let res := entD e 2
    let s := s.modHq q (fun h => h.advance s.clock)
    match State.checkGraph 9 s q h.ctx (entD e 1) with
    | .error f => .next (((s.causeOf f).2.queueWrite q h.ctx res 64 (resultRecord 5 0xFFFFFFFF)).entryDone q)
    | .ok s =>
      let run : GraphRun := ⟨⟨[(0, ⟨none, entD e 1, .empty, .empty⟩)]⟩, 0, none, res, []⟩
      .next ((s.modHq q (fun h => { h with busy := .graph run })).dueOne .graphFinish [q])

/-- One node evaluated: the event's node must be ready and of the kind that the step is for; `f` answers with the state
after its action. -/
def State.evalNode (s : State) (kind : Nat) (f : State → HostQueue → Nat → Nat → List Nat → State) : Out :=
  let (q, frame, node) := (s.arg 0, s.arg 1 / 4096, s.arg 1 % 4096)
  let h := s.hq q
  match h.run with
  | none => .next s
  | some r =>
    match s.readGraph q h.ctx (r.frame frame).addr with
    | .error f => .next (s.causeOf f).2
    | .ok (t, s) =>
      let d := t.nodes.getD node []
      if r.ending.isSome || (r.frames.get? frame).isNone || t.nodes.length ≤ node || nodeKind d ≠ kind ||
          !(r.frame frame).isReady t node then .next s
      else .next (f s h frame node d)

/-- A node that ends its graph: the word it reads cannot be read (log 35). -/
def State.nodeFails (s : State) (q frame node : Nat) : State :=
  ((s.modRun q (fun r => r.endAt node 1)).setNode q frame node .finished).dueOne .graphFinish [q]

/-- A node that has finished. -/
def State.nodeDone (s : State) (q frame node : Nat) : State := (s.setNode q frame node .finished).dueOne .graphFinish [q]

/-- A node that runs a graph; address 0 names none. -/
def State.runSub (s : State) (q frame node a : Nat) : State :=
  if a = 0 then s.nodeDone q frame node
  else
    let s := s.modRun q (fun r =>
      let k := r.frames.keys.foldl (fun m x => max m (x + 1)) 0
      { r with frames := r.frames.set k ⟨some (frame, node), a, .empty, .empty⟩ })
    (s.setNode q frame node .running).dueOne .graphFinish [q]

/-- A grid node launches its record in the graph's queue (06 R169). Arguments: queue, node. -/
def execGraphGridNode (s : State) : Out :=
  s.evalNode 1 (fun s h frame node d =>
    let q := s.arg 0
    let (l, s) := s.readLaunch h.ctx q (nodeAddr d) (some (frame, node))
    let (id, s) := s.launch h.ctx l
    (s.modRun q (fun r => { r with grids := r.grids ++ [(id, frame, node)] })).setNode q frame node .running)

/-- The work clusters of a context's partition. -/
def State.workClusters (s : State) (ctx : Nat) : List Nat :=
  (s.ctx ctx).dies.flatMap (fun d => (List.range (16 * s.workColumns d)).map (fun i => d * 256 + i))

/-- A copy node runs its chain on a copy unit of the partition, freely chosen; it waits while its context is not RUNNING (06
R169; log 21). Arguments: queue, node. -/
def execGraphCopyNode (s : State) : Out :=
  s.evalNode 2 (fun s h frame node d =>
    let q := s.arg 0
    let l := s.workClusters h.ctx
    if (s.ctx h.ctx).st ≠ .running || l.isEmpty then s
    else
      let (i, s) := s.choose l.length
      let s := s.setNode q frame node .running
      s.startChain h.ctx (8 * l.getD i 0) 0 (nodeAddr d) (.graph q frame node) true (s.view (queueAgent q)))

/-- A signal node writes ARG to its word, a release at `sys` (06 R169). Arguments: queue, node. -/
def execGraphSignalNode (s : State) : Out :=
  s.evalNode 3 (fun s h frame node d =>
    let q := s.arg 0
    if !s.queueReleased q then s.dueOne .graphSignalNode [q, s.arg 1]
    else (s.queueWrite q h.ctx (nodeAddr d) 8 (leBytes 8 (nodeArg d))).nodeDone q frame node)

/-- A conditional node runs its THEN or its ELSE graph (06 R169). Arguments: queue, node. -/
def execGraphConditionalNode (s : State) : Out :=
  s.evalNode 4 (fun s h frame node d =>
    match s.fwDword (s.arg 0) h.ctx (nodeAddr d) with
    | .error f => (s.causeOf f).2.nodeFails (s.arg 0) frame node
    | .ok (v, s) => s.runSub (s.arg 0) frame node (if v ≠ 0 then nodeArg d else nodeArg2 d))

/-- A loop node reads its word, and runs its body or finishes (06 R169); an iteration whose body is no graph is over at once.
Arguments: queue, node. -/
def execGraphLoopNode (s : State) : Out :=
  s.evalNode 5 (fun s h frame node d =>
    let q := s.arg 0
    match s.fwDword q h.ctx (nodeAddr d) with
    | .error f => (s.causeOf f).2.nodeFails q frame node
    | .ok (v, s) =>
      let n := match h.run with
        | some r => (r.frame frame).iters.getD node 0
        | none => 0
      if v = 0 ∨ nodeArg d ≤ n then s.nodeDone q frame node
      else
        let s := s.modRun q (fun r => r.modFrame frame (fun f => { f with iters := f.iters.set node (n + 1) }))
        if nodeArg2 d = 0 then s.dueOne .graphFinish [q] else s.runSub q frame node (nodeArg2 d))

/-- A switch node runs the case that its word names, or none (06 R169). Arguments: queue, node. -/
def execGraphSwitchNode (s : State) : Out :=
  s.evalNode 6 (fun s h frame node d =>
    let q := s.arg 0
    match s.fwDword q h.ctx (nodeAddr d) with
    | .error f => (s.causeOf f).2.nodeFails q frame node
    | .ok (v, s) =>
      if nodeArg2 d ≤ v then s.nodeDone q frame node
      else match s.fwDword q h.ctx (nodeArg d + 8 * v) with
        | .error f => (s.causeOf f).2.nodeFails q frame node
        | .ok (a, s) => s.runSub q frame node a)

/-! Destroying a queue (13 R349). -/

/-- A queue destroyed at one point: entries not begun are discarded, its grids report DESTROYED and stop, its graph ends; an
entry that waits is dropped (log 35). While a live update is in progress the destroy waits for its end. -/
def State.destroyQueue (s : State) (q : Nat) : State :=
  let h := s.hq q
  if h.state ≠ 1 then s
  else if !s.fwBegins (q / 4096) then s.modHq q (fun h => { h with doomed := true })
  else
    let busy := match h.busy with
      | .signal _ _ => QBusy.idle
      | .wait _ _ => QBusy.idle
      | .graph r => .graph { r with ending := some (r.ending.getD 0xFFFFFFFF), status := 3 }
      | b => b
    let s := s.modHq q (fun h => { h with state := 2, doomed := false, disc := h.disc + h.pending, entry := none, head := h.tail, busy := busy })
    let live := s.flying h
    let s := live.foldl (fun (s : State) g => s.modGrid h.ctx g.1 (fun x => { x with destroyed := true })) s
    let half := live.filter (fun g => decide (g.2.next < g.2.nblk) || g.2.ranges.values.any (fun l => !l.isEmpty))
    let s := s.due (half.map (fun g => ⟨.gridCancelPoint, [h.ctx, g.1]⟩))
    s.due [⟨.graphFinish, [q]⟩, ⟨.queueRelease, [q]⟩]

/-- A live update of a package is over, and its queues go on: a destroy that waited acts, and entries are read again (13 R349,
R358). -/
def State.queuesOn (s : State) (p : Nat) : State :=
  let s := (s.pkg p).queues.entries.foldl (fun (s : State) e => if e.2.doomed then s.destroyQueue (p * 4096 + e.1) else s) s
  ((s.pkg p).queues.keys.foldl (fun s q => s.readEntry (p * 4096 + q)) s).dueOne .qdestroy [p]

end Sys2Proof.Machine
end

