-- ==== Sys2Proof/Machine/System.lean ====
section
/-! DEFINITION. Traps by instruction, `idle` and the control registers (12 R338 to R340; 14 R359, R360, R365), and the
steps of a slot that no bundle takes: stalls, landings, the watchdog, spurious wakes and host answers. -/

namespace Sys2Proof.Machine

/-! Halting (15 R387). -/

/-- A slot HALTED, its ELAPSED kept in `began` while the watchdog does not count. -/
def Slot.halt (x : Slot) (clock : Nat) : Slot :=
  match x.st with
  | .halted _ => x
  | w => { x with st := .halted w, began := clock - x.began }

/-- A halted slot back in its earlier state. -/
def Slot.resume (x : Slot) (clock : Nat) : Slot :=
  match x.st with
  | .halted w => { x with st := w, began := clock - x.began }
  | _ => x

/-- Every slot of a core halted. -/
def State.haltCore (s : State) (core : Nat) : State :=
  s.modCore core (fun c => { c with slots := c.slots.map (fun x => x.halt s.clock), dbg := { c.dbg with stepping := false } })

/-- Every slot of a core resumed; its EMPTY slots look for entries again. -/
def State.resumeCore (s : State) (core : Nat) : State :=
  (s.modCore core (fun c => { c with slots := c.slots.map (fun x => x.resume s.clock) })).fillSlots core

/-! Traps by instruction (12 R338). -/

/-- `trap` (12 R338): XPC is the next bundle. -/
def execTrap (imm : BitVec 12) (s : State) : Out := .next (s.raiseAt .trapins (imm.setWidth 64) 0 (s.me.pc + 8))

/-- `xret` (12 R338). -/
def execXret (s : State) : Out := .next s.xret

/-- `brk` (12 R338; 15 R387): the core halts instead where its debug module catches breakpoints; the bundle does not
perform. -/
def execBrk (imm : BitVec 12) (s : State) : Out :=
  if s.myCore.dbg.brken then
    .next { ((s.modMe (fun x => { x with npc := x.pc })).haltCore s.cur.core) with performed := false }
  else s.trapOut .brk (imm.setWidth 64) 0

/-- `idle` (12 R338): it completes at once in a timed activation. -/
def execIdle (s : State) : Out := .next (if s.me.timed then s else s.parkDone .idle)

/-! Control registers (12 R339, R340). -/

/-- How a control register may be reached. -/
inductive CsrMode where
  | closed | read | write
  deriving DecidableEq, Repr

/-- The access that a trap level has to a control register (12 R340). -/
def csrMode (n tl : Nat) (timed : Bool) : CsrMode :=
  if n = 0 ∨ n = 0x15 ∨ n = 0x16 then .write
  else if n ≤ 6 then (if tl = 0 then .closed else .write)
  else if 0x10 ≤ n ∧ n ≤ 0x13 then (if tl = 0 then .closed else if timed then .read else .write)
  else if n = 0x14 then (if tl = 0 then .read else .write)
  else if n = 0x20 then (if tl = 2 then .write else .read)
  else .read

/-- HWDOG as a slot reads it (14 R365). -/
def State.hwdog (s : State) : Word :=
  BitVec.ofNat 64 (min ((s.clock - s.me.began) / Config.cyclesPerMicro) 0xFFFF * 2 ^ 32 + s.myCore.hwLimit.toNat)

/-- A control register as read (09 R231). -/
def State.csr (s : State) (n : Nat) : Word :=
  let x := s.me
  let c := s.myCore
  let b := x.bank x.tl
  match n with
  | 0x00 => x.xstat
  | 0x01 => b.xpc
  | 0x02 => b.xcause
  | 0x03 => b.xval
  | 0x04 => b.xval2
  | 0x05 => c.xtvec1
  | 0x06 => b.xscratch
  | 0x10 => c.agectl
  | 0x11 => c.lardcfg
  | 0x12 => c.statemap
  | 0x13 => c.tlcfg
  | 0x14 => s.hwdog
  | 0x15 => c.srng.setWidth 64
  | 0x16 => x.pkperm
  | 0x20 => s.timeRef c.ctx
  | _ => (s.cluster (clusterOf s.cur.core)).engine.fmt.get (Fin.ofNat 8 (n - 0x40))

/-- The bits of XSTAT that a write changes (12 R340; 14 R360): RND, SCHK, MAINT and [63:16], and at TL1 and TL2 INFM and
PTL. -/
def xstatMask (tl : Nat) : Word := if tl = 0 then 0xFFFFFFFFFFFF81E0 else 0xFFFFFFFFFFFF81FC

/-- A register with the bits of a mask taken from a written value. -/
def masked (old v mask : Word) : Word := (old &&& ~~~ mask) ||| (v &&& mask)

/-- LARDCFG as a write leaves it (07 R179): a size above sixteen leaves the size. -/
def lardWrite (old v : Word) : Word := masked old v (if bitsOf v.toNat 0 5 ≤ 16 then 0x9F else 0x80)

/-- A control register written (12 R340). -/
def State.csrSet (s : State) (n : Nat) (v : Word) : State :=
  let x := s.me
  let t := x.tl
  let bank (f : TrapBank → TrapBank) : State := s.setMe (x.setBank t (f (x.bank t)))
  match n with
  | 0x00 => s.setMe { x with xstat := masked x.xstat v (xstatMask t) }
  | 0x01 => bank (fun b => { b with xpc := v })
  | 0x02 => bank (fun b => { b with xcause := v &&& 0xFF })
  | 0x03 => bank (fun b => { b with xval := v })
  | 0x04 => bank (fun b => { b with xval2 := v })
  | 0x05 => s.modMyCore (fun c => { c with xtvec1 := v &&& 0x01FFFFFFFFFFFFF9 })
  | 0x06 => bank (fun b => { b with xscratch := v })
  | 0x10 => s.modMyCore (fun c => { c with agectl := v &&& 0xFFFF })
  | 0x11 => s.modMyCore (fun c => { c with lardcfg := lardWrite c.lardcfg v })
  | 0x12 => s.modMyCore (fun c => { c with statemap := v })
  | 0x13 => s.modMyCore (fun c => { c with tlcfg := v &&& 0x3F01FF })
  | 0x14 =>
    let l := bitsOf v.toNat 0 12
    s.modMyCore (fun c => if 1 ≤ l ∧ l ≤ 2000 then { c with hwLimit := BitVec.ofNat 12 l } else c)
  | 0x15 => s.modMyCore (fun c => { c with srng := if v.setWidth 32 = 0 then 1 else v.setWidth 32 })
  | 0x16 => s.setMe { x with pkperm := v }
  | _ => s.modCtx s.myCtxId (fun c => { c with timeOff := v - BitVec.ofNat 64 s.now })

/-- A read and write of a control register: the old value goes to the destination (12 R339). -/
def State.csrRw (s : State) (mn : String) (d : BitVec 5) (csr : BitVec 10) (new : Option (Word → Word)) : Out :=
  if !csrOk csr then .refused (.illFormed mn)
  else
    let n := csr.toNat
    let old := s.csr n
    let deny := s.trapOut .illegal (BitVec.ofNat 64 n) 0
    match csrMode n s.me.tl s.me.timed, new with
    | .closed, _ => deny
    | .read, some _ => deny
    | .read, none => .next (s.wrG d old)
    | .write, none => .next (s.wrG d old)
    | .write, some f => .next ((s.csrSet n (f old)).wrG d old)

/-- `csrr` (12 R339). -/
def execCsrr (d : BitVec 5) (csr : BitVec 10) (s : State) : Out := s.csrRw "CSRR" d csr none

/-- `csrw` (12 R339). -/
def execCsrw (d r : BitVec 5) (csr : BitVec 10) (s : State) : Out := s.csrRw "CSRW" d csr (some (fun _ => s.rdG r))

/-- `csrs` (12 R339). -/
def execCsrs (d r : BitVec 5) (csr : BitVec 10) (s : State) : Out := s.csrRw "CSRS" d csr (some (fun x => x ||| s.rdG r))

/-- `csrc` (12 R339). -/
def execCsrc (d r : BitVec 5) (csr : BitVec 10) (s : State) : Out := s.csrRw "CSRC" d csr (some (fun x => x &&& ~~~ s.rdG r))

/-! Steps of a slot that no bundle takes. -/

/-- A stall count has elapsed (09 R217). Arguments: core, slot. -/
def execStallExpire (s : State) : Out :=
  let (core, slot) := (s.arg 0, s.arg 1)
  match (s.slotAt core slot).st with
  | .stalled t => .next (if t ≤ s.clock then s.modSlotAt core slot (fun x => { x with st := .ready }) else s)
  | _ => .next s

/-- The fixed-latency results of a slot whose latency has elapsed stand in their registers alone (09 R218). Arguments: core,
slot. -/
def execFixedLatencyWriteback (s : State) : Out :=
  .next (s.modSlotAt (s.arg 0) (s.arg 1) (fun x => { x with pend := x.pend.filter (fun p => decide (x.dist - p.at_ < p.lat)) }))

/-- The context of a core is in its switch window. -/
def State.inWindow (s : State) (core : Nat) : Bool :=
  match (s.ctx (s.core core).ctx).sw with
  | .window _ _ => true
  | .none_ => false
  | .agreed _ => false

/-- The block of a core, when its grid has been cancelled (14 R365). -/
def State.cancelledBlock (s : State) (core : Nat) : Option Block :=
  match s.blockOf core with
  | some (_, b) => (match s.grid b.ctx b.grid with
    | some g => if g.cancelled then some b else none
    | none => none)
  | none => none

/-- A slot's ELAPSED has reached LIMIT (14 R365; log 18); XPC of a slot parked in `waita` is that bundle (11 R283). Arguments:
core, slot. -/
def execHwdogExpire (s : State) : Out :=
  let (core, slot) := (s.arg 0, s.arg 1)
  let x := s.slotAt core slot
  let us := (s.clock - x.began) / Config.cyclesPerMicro
  let live := match x.st with
    | .ready => true
    | .stalled _ => true
    | .parked _ => true
    | _ => false
  if !live || us < (s.core core).hwLimit.toNat then .next s
  else if s.inWindow core && !(x.timed && !x.spec) then .next (s.dueOne .overrunStop [core, slot])
  else
    let s := { s with cur := ⟨core, slot⟩ }
    match x.spec, x.actKey with
    | true, some k => .next (s.rollback core k .untilGvt false)
    | _, _ =>
      let s := s.disbandMine
      let x := s.me
      let pc := wordOfInt (match x.st.why, x.monitor with
        | some .waita, some m => m.pc
        | _, _ => x.pc)
      match (if x.timed then none else s.cancelledBlock core) with
      | some b =>
        let bank := { x.bank2 with xpc := pc, xcause := BitVec.ofNat 64 Cause.gridcancel.code, xval := BitVec.ofNat 64 us,
                                   xval2 := BitVec.ofNat 64 b.index }
        .next ((s.setMe { x with bank2 := bank }).endActivation core slot)
      | none =>
        let (v, s) := s.draw 64
        let bank := { x.bank2 with xpc := pc, xcause := 0, xval := BitVec.allOnes 64, xval2 := v }
        .next ((s.setMe ({ x with bank2 := bank }.setLevels 2 x.tl)).fatal core slot 2)

/-- A slot parked in `waita` or `idle` wakes for no stated cause (04 R107; 12 R338). Arguments: core, slot. -/
def execSpuriousWake (s : State) : Out :=
  let (core, slot) := (s.arg 0, s.arg 1)
  let x := s.slotAt core slot
  .next (if x.st.why = some .waita ∨ x.st.why = some .idle then s.setSlotAt core slot x.wake else s)

/-- The host answers a read (01 R10): the access takes its bytes, or its error, as the bundle re-executes. Arguments: core, slot,
value, status, address. -/
def execHostCompletion (s : State) : Out :=
  let (core, slot) := (s.arg 0, s.arg 1)
  let x := s.slotAt core slot
  if x.st.why ≠ some .answer then .next s
  else
    let v := if s.arg 3 = 0 then s.arg 2 % 2 ^ 512 else hostError
    .next { (s.setSlotAt core slot x.wake) with hostAnswer := s.hostAnswer ++ [(slotAgent core slot, s.arg 4, v)] }

end Sys2Proof.Machine
end

