-- ==== Sys2Proof/Machine/Matrix.lean ====
section
/-! DEFINITION. The matrix engine (12 R302 to R319; 08 R208, R209; 05 R130, R131): acceptance, the checks of a command, its
steps, the stage-empty write, completion, and the resolution of held jobs. -/

namespace Sys2Proof.Machine

/-! Commands (12 R305). -/

/-- A field of a command's dword. -/
def MCmd.fld (c : MCmd) (i lo n : Nat) : Nat := bitsOf (c.dw.get (Fin.ofNat 8 i)).toNat lo n

/-- OPC, SE, N, M, ACCROW. -/
def MCmd.opc (c : MCmd) : Nat := c.fld 0 0 8
def MCmd.se (c : MCmd) : Bool := c.fld 0 12 1 == 1
def MCmd.cols (c : MCmd) : Nat := c.fld 0 36 7
def MCmd.rows (c : MCmd) : Nat := c.fld 0 26 10 + 1
def MCmd.row0 (c : MCmd) : Nat := c.fld 0 16 10

/-- The format context of a core (12 R304). -/
def Engine.ctxOf (e : Engine) (core : Nat) : Nat := (e.fmt.get (Fin.ofNat 8 core)).toNat

/-- AFMT, BFMT, INFM, SCALE and RND of a format context. -/
def fcA (f : Nat) : Nat := bitsOf f 0 5
def fcB (f : Nat) : Nat := bitsOf f 8 5
def fcInfm (f : Nat) : Bool := bitsOf f 16 1 == 1
def fcScale (f : Nat) : Bool := bitsOf f 17 1 == 1
def fcRnd (f : Nat) : Nat := bitsOf f 18 3

/-- A binary8 format code. -/
def isB8 (c : Nat) : Bool := match Fmt.ofCode c with
  | some x => x.isBin8
  | none => false

/-- A pair of formats that a context admits (12 R304). -/
def pairOk (a b : Nat) : Bool := (isB8 a && isB8 b) || ((a == 0 || a == 4) && (b == 0 || b == 4)) || (a == 8 && b == 8)

/-- The size in bytes of an operand element. -/
def operandBytes (c : Nat) : Nat := if c = 8 then 2 else 1

/-- The bits of a command's dword that hold fields (12 R305, R308, R311, R312, R314 to R317). -/
def cmdMask (opc i : Nat) : Nat :=
  match opc, i with
  | 1, 0 => 2 ^ 45 - 1 - 0xF00
  | 1, 1 => 2 ^ 45 - 1
  | 1, 2 => 0x3FF1FFF
  | 2, 0 => 2 ^ 45 - 1 - 0xF00
  | 2, 1 => 2 ^ 45 - 1
  | 2, 2 => 0x3FF1FFF
  | 3, 0 => 2 ^ 53 - 1 - 0xFF00
  | 3, 1 => 2 ^ 64 - 1
  | 3, 2 => 2 ^ 64 - 1
  | 3, 3 => 2 ^ 32 - 1
  | 4, 0 => 2 ^ 43 - 1 - 0xF00
  | 4, 1 => 2 ^ 32 - 1
  | 5, 0 => 0xF0FF
  | 5, 1 => 2 ^ 64 - 1
  | 5, 2 => 0x1FFF1FFF
  | 6, 0 => 0xFF
  | 6, 1 => 0x1F1F1F
  | 7, 0 => 2 ^ 37 - 1 - 0xFF00
  | 7, 1 => 0xFFFF
  | 8, 0 => 0xFF
  | 8, 1 => 0xFFFF
  | 9, 0 => 0xF00FF
  | _, _ => 0

/-- The RES0 bits of a command are clear, those of its stage-empty fields included (12 R305). -/
def MCmd.resOk (c : MCmd) : Bool :=
  (List.range 7).all (fun i => c.fld i 0 64 &&& cmdMask c.opc i == c.fld i 0 64) &&
    (if c.se && (c.opc == 1 || c.opc == 2 || c.opc == 4 || c.opc == 5) then c.fld 7 19 13 == 0 && c.fld 7 0 2 == 0
     else c.fld 0 12 4 == 0 && c.fld 7 0 64 == 0)

/-- K of an `MMA` or `MMZ`. -/
def MCmd.k (c : MCmd) : Nat := c.fld 1 32 13

/-- Lines of one B group (12 R309). -/
def groupLines (spn lb : Nat) : Nat := if spn = 0 then 64 * lb else 4 + 16 * spn * lb

/-- The output format of an `ACCST` (12 R312). -/
def MCmd.ofmt (c : MCmd) : Option Fmt :=
  let o := c.fld 0 43 5
  if o = 3 ∨ o = 7 then none else Fmt.ofCode o

/-- The cause of a refusal, `none` where a check holds. -/
def failUnless (b : Bool) (c : Cause) : Option Cause := if b then none else some c

/-- The first check that fails. -/
def firstFail (l : List (Option Cause)) : Option Cause := (l.find? (fun x => x.isSome)).join

/-- The checks of an `MMA` or `MMZ` (12 R307, R308; log 22). -/
def mmCheck (c : MCmd) (f : Nat) : Option Cause :=
  let ea := operandBytes (fcA f)
  let k := c.k
  firstFail [
    failUnless (1 ≤ c.cols && c.cols ≤ 64 && (c.opc == 2 || k != 0) && c.fld 1 16 16 % ea == 0 && c.fld 1 0 16 % ea == 0) .resfield,
    failUnless (c.row0 + c.rows ≤ 1024 && (k == 0 ||
      (decide (c.fld 1 0 16 + (c.rows - 1) * c.fld 1 16 16 + k * ea ≤ 65536) &&
       decide (c.fld 2 0 13 + (k + 63) / 64 * groupLines (c.fld 0 43 2) (operandBytes (fcB f)) ≤ 8192) &&
       (!fcScale f || decide (c.fld 2 16 10 + (k + 31) / 32 ≤ 1024))))) .bounds,
    failUnless (fcInfm f == c.infm) .infmmismatch]

/-- The checks of an `ACCLD` (12 R307, R311). -/
def accldCheck (c : MCmd) : Option Cause :=
  firstFail [
    failUnless (1 ≤ c.cols && c.cols ≤ 64 && c.fld 1 0 16 % 4 == 0 && c.fld 1 16 16 % 4 == 0) .resfield,
    failUnless (c.row0 + c.rows ≤ 1024 && decide (c.fld 1 0 16 + (c.rows - 1) * c.fld 1 16 16 + 4 * c.cols ≤ 65536)) .bounds]

/-- The check of a command's descriptor: its reserved bits, then the spaces it admits (12 R307, R325). -/
def descCheck (d : Nat) (host : Bool) : Option Cause × Option Cause :=
  match descSpace d with
  | .ok sp => (none, if sp = 3 && !host then some .space else none)
  | .error c => if c = Cause.resfield.code then (some .resfield, none) else (none, some .space)

/-- The checks of an `ACCST` (12 R307, R312; log 22). -/
def accstCheck (c : MCmd) (f : Nat) : Option Cause :=
  match c.ofmt with
  | none => some .resfield
  | some o =>
    let so := o.width / 8
    let d := c.fld 1 0 64
    let bias := c.fld 0 49 1 == 1
    let rq := c.fld 0 51 1 == 1
    let boff := c.fld 2 32 16
    let rqoff := c.fld 2 48 16
    let stride := c.fld 2 0 32
    firstFail [
      failUnless (1 ≤ c.cols && c.cols ≤ 64 && (!o.isFloat || c.fld 3 0 32 == 0) && (!bias || boff % 4 == 0) &&
        (!rq || rqoff % 4 == 0) && descAddr d % so == 0 && stride % so == 0) .resfield,
      (descCheck d true).1,
      (descCheck d true).2,
      failUnless (c.row0 + c.rows ≤ 1024 && (!bias || decide (boff + 4 * c.cols ≤ 65536)) &&
        (!rq || decide (rqoff + 4 * c.cols ≤ 65536)) &&
        (isAwayDesc d || decide (descAddr d + (c.rows - 1) * stride + c.cols * so ≤ 65536))) .bounds,
      failUnless (fcInfm f == c.infm) .infmmismatch]
where
  /-- A descriptor that is not LOCAL. -/
  isAwayDesc (d : Nat) : Bool := d / 2 ^ 61 % 8 != 1

/-- The checks of a `WLD` (12 R307, R314). -/
def wldCheck (c : MCmd) : Option Cause :=
  let d := c.fld 1 0 64
  let n := c.fld 2 16 13
  firstFail [
    failUnless (descAddr d % 64 == 0) .resfield,
    (descCheck d false).1,
    (descCheck d false).2,
    failUnless (decide (c.fld 2 0 13 + n ≤ 8191) && (d / 2 ^ 61 % 8 != 1 || decide (descAddr d + 64 * (n + 1) ≤ 65536))) .bounds]

/-- The checks of an `FCTX` (12 R304, R316). -/
def fctxCheck (c : MCmd) : Option Cause :=
  let x := c.fld 1 0 64
  failUnless (pairOk (fcA x) (fcB x) && fcRnd x != 5 && fcRnd x != 6) .resfield

/-- The checks of a `STAB` (12 R307, R315). -/
def stabCheck (c : MCmd) : Option Cause :=
  let n := c.fld 0 26 11
  firstFail [
    failUnless (1 ≤ n && n ≤ 1024 && c.fld 1 0 16 % 2 == 0) .resfield,
    failUnless (decide (c.fld 0 16 10 + n ≤ 1024) && decide (c.fld 1 0 16 + 2 * n ≤ 65536)) .bounds]

/-- The checks of an `ATAB` (12 R307, R315); its values are checked once they have been read. -/
def atabCheck (c : MCmd) : Option Cause :=
  firstFail [failUnless (c.fld 1 0 16 % 8 == 0) .resfield, failUnless (decide (c.fld 1 0 16 + 520 ≤ 65536)) .bounds]

/-- The refusal of a command when the engine begins it (12 R307). -/
def MCmd.refusal (c : MCmd) (f : Nat) : Option Cause :=
  if c.opc = 0 ∨ 9 < c.opc then some .illegal
  else if !c.resOk then some .resfield
  else
    match c.opc with
    | 1 => mmCheck c f
    | 2 => mmCheck c f
    | 3 => accstCheck c f
    | 4 => accldCheck c
    | 5 => wldCheck c
    | 6 => fctxCheck c
    | 7 => stabCheck c
    | 8 => atabCheck c
    | _ => none

/-- The engine of a cluster as it reaches memory for a core's command, in units of some bytes (05 R110, R113; log 69). -/
def State.matrixEng (s : State) (core unit : Nat) : Eng :=
  { agent := matrixAgent (clusterOf core), ctx := (s.core core).ctx, cluster := clusterOf core, unit := unit }

/-! Queues (12 R302). -/

/-- The engine of a cluster. -/
def State.engine (s : State) (cl : Nat) : Engine := (s.cluster cl).engine

/-- The state with an engine changed. -/
def State.modEngine (s : State) (cl : Nat) (f : Engine → Engine) : State := s.modCluster cl (fun k => { k with engine := f k.engine })

/-- The command at the head of a core's queue. -/
def State.headCmd (s : State) (core : Nat) : Option MCmd := ((s.engine (clusterOf core)).queue (core % 8)).head?

/-- The head of a core's queue replaced. -/
def State.setHead (s : State) (core : Nat) (c : MCmd) : State :=
  s.modEngine (clusterOf core) (fun e => e.setQueue (core % 8) (c :: (e.queue (core % 8)).tail))

/-- The value of CURSOR at which a command has made its last source read (12 R306, R318). -/
def MCmd.endCursor (c : MCmd) : Nat :=
  match c.opc with
  | 1 => c.k
  | 2 => c.k
  | 3 => c.rows
  | 4 => c.rows
  | 5 => c.fld 2 16 13 + 1
  | _ => 0

/-- The step that runs a command from where it stands. -/
def MCmd.step (c : MCmd) : Option Instr :=
  let more := decide (c.cursor < c.endCursor)
  match c.opc with
  | 1 => some (if !c.begun then .mma else if more then .kStep else if c.se then .stageEmptyWrite else .matrixCommandComplete)
  | 2 => some (if !c.begun then .mmz else if more then .kStep else if c.se then .stageEmptyWrite else .matrixCommandComplete)
  | 3 => some .accst
  | 4 => some (if !c.begun || more then .accld else if c.se then .stageEmptyWrite else .matrixCommandComplete)
  | 5 => some (if !c.begun || more then .wld else if c.se then .stageEmptyWrite else .matrixCommandComplete)
  | 6 => some .fctx
  | 7 => some .stab
  | 8 => some .atab
  | 9 => some .msync
  | _ => none

/-- The step of the head of a core's queue made due; one of no opcode is refused (12 R307). Commands of other queues go on beside it,
so one accepted later may add to the same cells first (log 94). -/
def State.startHead (s : State) (core : Nat) : State :=
  match s.headCmd core with
  | none => s
  | some c =>
    if c.seq = 0 || c.held || c.ended then s
    else
      match c.step with
      | some i => s.dueOne i [clusterOf core, core]
      | none => (s.setHead core { c with ended := true, cause := Cause.illegal.code }).dueOne .matrixCommandComplete [clusterOf core, core]

/-- The cores of a cluster in the engine's rotation (12 R302). -/
def Engine.order (e : Engine) (cl : Nat) : List Nat := (List.range 8).map (fun i => cl * 8 + (e.rot + i) % 8)

/-- The engine accepts the next command of a queue, in rotation, and joins its view (05 R130; 12 R302). Arguments:
cluster. -/
def execMatrixAccept (s : State) : Out :=
  let cl := s.arg 0
  let e := s.engine cl
  match (e.order cl).find? (fun core => (e.queue (core % 8)).any (fun c => c.seq == 0)) with
  | none => .next s
  | some core =>
    let l := e.queue (core % 8)
    let i := l.findIdx (fun c => c.seq == 0)
    let c := l[i]?
    let s := s.modEngine cl (fun e => { e.setQueue (core % 8) (l.modify i (fun c => { c with seq := e.seq + 1 })) with
      seq := e.seq + 1, rot := (core + 1) % 8 })
    let s := match c with
      | some c => s.joinView (matrixAgent cl) c.view
      | none => s
    let s := if i = 0 then s.startHead core else s
    .next (s.dueOne .matrixAccept [cl])

/-- A command at its end, with a cause or with 0. -/
def State.endCmd (s : State) (core : Nat) (c : MCmd) (cause : Nat) : State :=
  (s.setHead core { c with ended := true, cause := cause }).dueOne .matrixCommandComplete [clusterOf core, core]

/-- A command held by an access fault (12 R318). -/
def State.holdCmd (s : State) (core : Nat) (c : MCmd) (cause : Nat) : State :=
  let (code, s) := s.causeOf cause
  (s.setHead core { c with held := true, cause := code }).dueOne .matrixCommandComplete [clusterOf core, core]

/-- A command at its new cursor: its next step is made due, or its end. -/
def State.goOn (s : State) (core : Nat) (c : MCmd) : State :=
  if c.opc = 3 && decide (c.endCursor ≤ c.cursor) then s.endCmd core c 0
  else
    match c.step with
    | some .matrixCommandComplete => s.endCmd core c 0
    | _ => (s.setHead core c).startHead core

/-- The JRES of a matrix job (12 R318). -/
def MCmd.res (c : MCmd) (hold : Bool) : Word :=
  BitVec.ofNat 64 (c.cursor % 2 ^ 24 * 2 ^ 16 + (if hold then 256 else 0) + c.cause % 256)

/-- One step of the command at the head of a core's queue, of one of some opcodes: its checks when it begins, then its
work. A command whose context is in its switch window stops between steps, its JRES with the place (11 R287; 14 R369). -/
def State.matrixStep (s : State) (opcs : List Nat) (begins : Bool) (f : State → Nat → Nat → MCmd → State) : Out :=
  let core := s.arg 1
  let cl := clusterOf core
  match s.headCmd core with
  | none => .next s
  | some c =>
    if c.seq = 0 || c.held || c.ended || !opcs.contains c.opc || (!begins && !c.begun) then .next s
    else if s.inWindow core then .next (s.modCore core (fun k => if c.begun then k.recordStop c.job (c.res false) else k))
    else
      match (if c.begun then none else c.refusal ((s.engine cl).ctxOf core)) with
      | some x => .next (s.endCmd core c x.code)
      | none => .next (f s cl core { c with begun := true })

/-! The accumulator (12 R303; 04 R94). -/

/-- A row of the accumulator. -/
def Engine.accRow (e : Engine) (r : Nat) : Vector (BitVec 32) 64 := e.acc.getD r (Vector.replicate 64 0)

/-- A row written: it is held. -/
def Engine.setRow (e : Engine) (r : Nat) (v : Vector (BitVec 32) 64) : Engine :=
  { e with acc := e.acc.set r v, held := insertNat e.held r }

/-- A row with its first columns replaced. -/
def rowWith (old : Vector (BitVec 32) 64) (n : Nat) (f : Nat → Nat) : Vector (BitVec 32) 64 :=
  Vector.ofFn (fun c => if c.val < n then BitVec.ofNat 32 (f c.val) else old.get c)

/-! Operands (12 R308, R309). -/

/-- Local bytes of the pushing core, read in elements of some bytes (05 R130). -/
def State.cmdRead (s : State) (core unit off n : Nat) : Except Nat (List Byte × State) :=
  s.engRead (s.matrixEng core unit) (localDesc core off) 0 n

/-- The kept value of an element of a sparse group: its value index, `none` where it is not kept (12 R309). -/
def keptIndex (spn word kk : Nat) : Option Nat :=
  match spn with
  | 1 => if bitsOf word (2 * (kk / 4)) 2 = kk % 4 then some (kk / 4) else none
  | 2 => if bitsOf word (kk / 2) 1 = kk % 2 then some (kk / 2) else none
  | _ =>
    let d := bitsOf word (2 * (kk / 4)) 2
    if d = kk % 4 then none else some (3 * (kk / 4) + kk % 4 - if d < kk % 4 then 1 else 0)

/-- Bytes of a line of the weight buffer; a line that nothing has written reads as +0 (04 R95). -/
def Engine.weightBytes (e : Engine) (line off n : Nat) : Nat := bitsOf (e.weight.getD line 0).toNat (8 * off) (8 * n)

/-- The code of B's element (k, c) (12 R309). -/
def Engine.bCode (e : Engine) (spn wline eb k c : Nat) : Nat :=
  let base := wline + k / 64 * groupLines spn eb
  let kk := k % 64
  let at_ (row first : Nat) : Nat := e.weightBytes (first + row * eb + c * eb / 64) (c * eb % 64) eb
  if spn = 0 then at_ kk base
  else
    match keptIndex spn (e.weightBytes (base + 4 * c / 64) (4 * c % 64) 4) kk with
    | some v => at_ v (base + 4)
    | none => 0

/-- The value of an operand's code. -/
def operandValue (fmt : Nat) (infm : Bool) (code : Nat) : Exact :=
  match Fmt.ofCode fmt with
  | some f => decodeNum f infm code
  | none => .fin false 0 0

/-- A product of operands: a zero of integers is +0 (08 R209). -/
def operandProduct (fmt : Nat) (a b : Exact) : Exact :=
  match mulExact a b with
  | .fin s m e => if m = 0 && (fmt == 0 || fmt == 4) then .fin false 0 0 else .fin s m e
  | x => x

/-- The exact sum of the terms of a block (08 R209). -/
def blockSum : List Exact → Exact
  | [] => .fin false 0 0
  | x :: t => t.foldl (addExact .rne) x

/-- A scale entry: a power of two, or NaN (12 R315). -/
def scaleOf (x : BitVec 16) : Option Int := if x.getLsbD 15 then none else some (sxNat x.toNat 9)

/-- One block added into a cell (08 R209). -/
def blockAdd (acc : Nat) (sum : Exact) (e : Option Int) : Nat :=
  let v := match sum, e with
    | .nan, _ => nanCode .f32
    | _, none => nanCode .f32
    | .inf s, some _ => roundF32 (.inf s)
    | .fin s m x, some e => roundF32 (.fin s m (x + e))
  roundF32 (addExact .rne (decodeNum .f32 false acc) (decodeNum .f32 false v))

/-- The A codes of a row of a K-step. -/
def codesOf (ea : Nat) : Nat → List Byte → List Nat
  | 0, _ => []
  | n + 1, bs => leNat (bs.take ea) :: codesOf ea n (bs.drop ea)

/-- One row's blocks of a K-step added (12 R310; 08 R209). -/
def Engine.addRow (e : Engine) (c : MCmd) (f row : Nat) (a : List Nat) (b : List (List Exact)) : Engine :=
  let old := e.accRow row
  let av := a.map (operandValue (fcA f) (fcInfm f))
  e.setRow row (rowWith old c.cols (fun col =>
    let terms := (av.zip (b.map (fun l => l.getD col (.fin false 0 0)))).map (fun p => operandProduct (fcA f) p.1 p.2)
    let pad := List.replicate 32 (Exact.fin false 0 0)
    let block (acc : Nat) (i : Nat) : Nat :=
      let l := (terms.drop (32 * i)).take 32
      if l.isEmpty then acc
      else
        let sc := if fcScale f then scaleOf (e.scale.getD (c.fld 2 16 10 + c.cursor / 32 + i) 0) else some 0
        blockAdd acc (blockSum ((l ++ pad).take 32)) sc
    block (block (old.toList.getD col 0).toNat 0) 1))

/-- The A reads of the rows of a K-step, in order (12 R310). -/
def State.readRows (s : State) (core unit base stride n : Nat) : Nat → Except Nat (List (List Byte) × State)
  | 0 => .ok ([], s)
  | m + 1 =>
    match State.readRows s core unit base stride n m with
    | .error x => .error x
    | .ok (l, s) =>
      match s.cmdRead core unit (base + m * stride) n with
      | .error x => .error x
      | .ok (bs, s) => .ok (l ++ [bs], s)

/-- An `MMA` begins (12 R310). Arguments: cluster, core. -/
def execMma (s : State) : Out := s.matrixStep [1] true (fun s _ core c => s.goOn core c)

/-- An `MMZ` begins: its cells become +0 (12 R310). Arguments: cluster, core. -/
def execMmz (s : State) : Out :=
  s.matrixStep [2] true (fun s cl core c =>
    let s := if c.cursor ≠ 0 then s else s.modEngine cl (fun e => (List.range c.rows).foldl (fun (e : Engine) i =>
      e.setRow (c.row0 + i) (rowWith (e.accRow (c.row0 + i)) c.cols (fun _ => 0))) e)
    s.goOn core c)

/-- One K-step (12 R310): 64 elements of K over every row; an access fault holds the command with nothing added. Arguments:
cluster, core. -/
def execKStep (s : State) : Out :=
  s.matrixStep [1, 2] false (fun s cl core c =>
    if c.endCursor ≤ c.cursor then s.goOn core c
    else
      let f := (s.engine cl).ctxOf core
      let ea := operandBytes (fcA f)
      let n := min 64 (c.k - c.cursor)
      match s.readRows core ea (c.fld 1 0 16 + c.cursor * ea) (c.fld 1 16 16) (n * ea) c.rows with
      | .error x => s.holdCmd core c x
      | .ok (rows, s) =>
        let e := s.engine cl
        let b := (List.range n).map (fun i => (List.range c.cols).map (fun col =>
          operandValue (fcB f) (fcInfm f) (e.bCode (c.fld 0 43 2) (c.fld 2 0 13) (operandBytes (fcB f)) (c.cursor + i) col)))
        let e := rows.zipIdx.foldl (fun (e : Engine) r => e.addRow c f (c.row0 + r.2) (codesOf ea n r.1) b) e
        let s := s.modCtx (s.core core).ctx (fun x =>
          { x with counts := x.counts.set 5 (x.counts.get 5 + BitVec.ofNat 64 (n * c.rows * c.cols)) })
        (s.modEngine cl (fun _ => { e with lastStep := s.clock })).goOn core { c with cursor := c.cursor + 64 })

/-- One row of an `ACCLD` (12 R311). Arguments: cluster, core. -/
def execAccld (s : State) : Out :=
  s.matrixStep [4] true (fun s cl core c =>
    if c.endCursor ≤ c.cursor then s.goOn core c
    else
      match s.cmdRead core 4 (c.fld 1 0 16 + c.cursor * c.fld 1 16 16) (4 * c.cols) with
      | .error x => s.holdCmd core c x
      | .ok (bs, s) =>
        let codes := codesOf 4 c.cols bs
        let r := c.row0 + c.cursor
        (s.modEngine cl (fun e => e.setRow r (rowWith (e.accRow r) c.cols (fun i => codes.getD i 0)))).goOn core
          { c with cursor := c.cursor + 1 })

/-- The activation table applied (12 R313). -/
def actApply (t : ActTable) (x : Nat) : Nat :=
  let v := decodeNum .f32 false x
  let d (y : BitVec 32) : Exact := decodeNum .f32 false y.toNat
  let seg : Option Nat := match v with
    | .nan => none
    | .inf s => some (if s then 0 else 63)
    | .fin _ _ _ =>
      -- the greatest i in 0 to 63 with lo + i × (hi − lo) / 64 ≤ x
      some (((List.range 64).filter (fun i => i == 0 ||
        !exactLt (mulExact (addExact .rne v (d t.lo).negate) (.fin false 64 0))
          (mulExact (addExact .rne (d t.hi) (d t.lo).negate) (.fin false i 0)))).getLast?.getD 0)
  match seg with
  | none => nanCode .f32
  | some i =>
    let j := Fin.ofNat 64 i
    roundF32 (addExact .rne (mulExact (d (t.slope.get j)) v) (d (t.icpt.get j)))

/-- The value that the epilogue makes of a cell before its conversion (12 R313). -/
def epilogue (c : MCmd) (t : ActTable) (bias rq : List Nat) (col x : Nat) : Nat :=
  let v (y : Nat) : Exact := decodeNum .f32 false y
  let x := if c.fld 0 49 1 = 1 then roundF32 (addExact .rne (v x) (v (bias.getD col 0))) else x
  let x := if c.fld 0 50 1 = 1 then actApply t x else x
  if c.fld 0 51 1 = 1 then roundF32 (mulExact (v x) (v (rq.getD col 0))) else x

/-- The output code of a value, with the draw of `rst` (12 R313; 08 R204, R205). -/
def outputCode (c : MCmd) (f : Nat) (o : Fmt) (mode : RMode) (d x : Nat) : Nat :=
  let v := decodeNum .f32 false x
  let sat := c.fld 0 48 1 == 1
  match o with
  | .int w sg => toInt (addExact .rne v (exactOfInt (sxNat (c.fld 3 0 32) 32))) w sg mode sat d
  | .bin8 p u => toFloat v (.bin8 p u) mode sat (fcInfm f) d
  | .bf16 => toFloat v .bf16 mode sat (fcInfm f) d
  | .f32 => toFloat v .f32 mode sat (fcInfm f) d

/-- The codes of a row of an `ACCST`, one draw an element under `rst` (08 R203). -/
def outputRow (c : MCmd) (f : Nat) (o : Fmt) (mode : RMode) : List Nat → BitVec 32 → List Nat × BitVec 32
  | [], g => ([], g)
  | x :: t, g =>
    let (d, g) := drawIf mode g
    let (l, g) := outputRow c f o mode t g
    (outputCode c f o mode d x :: l, g)

/-- The N `f32` codes at a local offset of the pushing core, or none where they are not asked for. -/
def State.cmdVec (s : State) (core : Nat) (wanted : Bool) (off n : Nat) : Except Nat (List Nat × State) :=
  if wanted then (s.cmdRead core 4 off (4 * n)).map (fun r => (codesOf 4 n r.1, r.2)) else .ok ([], s)

/-- A row of an `ACCST` that has been stored: released where the command says so, and the next one begun (12 R313). -/
def State.rowStored (s : State) (cl core : Nat) (c : MCmd) : State :=
  let r := c.row0 + c.cursor
  let s := s.modEngine cl (fun e => if c.fld 0 52 1 = 1
    then { e with acc := e.acc.erase r, held := e.held.filter (fun i => i != r) } else e)
  s.goOn core { c with cursor := c.cursor + 1 }

/-- The engine of a cluster has no write under way (12 R313). -/
def State.engineWritten (s : State) (cl : Nat) : Bool :=
  s.eager || s.writes.entries.all (fun w => w.2.agent != matrixAgent cl || w.2.reach == .sys)

/-- One row of an `ACCST` (12 R313): its stores, then once they have performed its release. A third argument of 1 waits for them.
Arguments: cluster, core. -/
def execAccst (s : State) : Out :=
  if s.arg 2 = 1 then
    let core := s.arg 1
    match s.headCmd core with
    | none => .next s
    | some c => .next (if !s.engineWritten (clusterOf core) then s.dueOne .accst [clusterOf core, core, 1]
        else s.rowStored (clusterOf core) core c)
  else
  s.matrixStep [3] true (fun s cl core c =>
    match c.ofmt with
    | none => s.endCmd core c Cause.resfield.code
    | some o =>
      if c.endCursor ≤ c.cursor then s.goOn core c
      else
        match s.cmdVec core (c.fld 0 49 1 == 1) (c.fld 2 32 16) c.cols with
        | .error x => s.holdCmd core c x
        | .ok (bias, s) =>
          match s.cmdVec core (c.fld 0 51 1 == 1) (c.fld 2 48 16) c.cols with
          | .error x => s.holdCmd core c x
          | .ok (rq, s) =>
            let e := s.engine cl
            let f := e.ctxOf core
            let r := c.row0 + c.cursor
            let row := e.accRow r
            let xs := (List.range c.cols).map (fun i => epilogue c (e.act.getD (core % 8) ActTable.reset) bias rq i (row.toList.getD i 0).toNat)
            let (codes, g) := outputRow c f o (RMode.ofField (fcRnd f) c.rnd.toNat) xs e.srng
            let so := o.width / 8
            match s.engWrite (s.matrixEng core so) (c.fld 1 0 64) (c.cursor * c.fld 2 0 32) (codes.flatMap (leBytes so)) with
            | .error x => s.holdCmd core c x
            | .ok s =>
              let s := s.modEngine cl (fun e => { e with srng := g })
              if s.engineWritten cl then s.rowStored cl core c
              else (s.setHead core c).dueOne .accst [cl, core, 1])

/-- One line of a `WLD`, with the record of its origin (12 R314). Arguments: cluster, core. -/
def execWld (s : State) : Out :=
  s.matrixStep [5] true (fun s cl core c =>
    if c.endCursor ≤ c.cursor then s.goOn core c
    else
      match s.engRead (s.matrixEng core (operandBytes (fcB ((s.engine cl).ctxOf core)))) (c.fld 1 0 64) (64 * c.cursor) 64 with
      | .error x => s.holdCmd core c x
      | .ok (bs, s) =>
        let line := c.fld 2 0 13 + c.cursor
        let s := s.modEngine cl (fun e => { e with
          weight := e.weight.set line (vecOfBytes bs), wld := e.wld.set line ⟨core, c.dw.get 1, c.cursor⟩ })
        s.goOn core { c with cursor := c.cursor + 1 })

/-- `FCTX` (12 R316). Arguments: cluster, core. -/
def execFctx (s : State) : Out :=
  s.matrixStep [6] true (fun s cl core c =>
    let i := Fin.ofNat 8 core
    (s.modEngine cl (fun e => { e with fmt := e.fmt.set i.val (c.dw.get 1) i.isLt })).endCmd core c 0)

/-- `STAB` (12 R315). Arguments: cluster, core. -/
def execStab (s : State) : Out :=
  s.matrixStep [7] true (fun s cl core c =>
    let n := c.fld 0 26 11
    match s.cmdRead core 2 (c.fld 1 0 16) (2 * n) with
    | .error x => s.holdCmd core c x
    | .ok (bs, s) =>
      (s.modEngine cl (fun e => { e with scale := (codesOf 2 n bs).zipIdx.foldl (fun m x =>
        m.set (c.fld 0 16 10 + x.2) (BitVec.ofNat 16 x.1)) e.scale })).endCmd core c 0)

/-- A finite `f32` code. -/
def finiteF32 (x : Nat) : Bool := bitsOf x 23 8 != 255

/-- `ATAB` (12 R315). Arguments: cluster, core. -/
def execAtab (s : State) : Out :=
  s.matrixStep [8] true (fun s cl core c =>
    match s.cmdRead core 4 (c.fld 1 0 16) 520 with
    | .error x => s.holdCmd core c x
    | .ok (bs, s) =>
      let l := codesOf 4 130 bs
      let g (i : Nat) : BitVec 32 := BitVec.ofNat 32 (l.getD i 0)
      let lo := l.getD 0 0
      let hi := l.getD 1 0
      if !finiteF32 lo || !finiteF32 hi || !exactLt (decodeNum .f32 false lo) (decodeNum .f32 false hi) then
        s.endCmd core c Cause.resfield.code
      else
        let t : ActTable := ⟨g 0, g 1, Vector.ofFn (fun i => g (2 + 2 * i.val)), Vector.ofFn (fun i => g (3 + 2 * i.val))⟩
        (s.modEngine cl (fun e => { e with act := e.act.set (core % 8) t })).endCmd core c 0)

/-- `MSYNC` (12 R317): with ALLQ it waits for every command accepted before it. Arguments: cluster, core. -/
def execMsync (s : State) : Out :=
  s.matrixStep [9] true (fun s cl core c =>
    let e := s.engine cl
    let earlier := (List.range 8).any (fun q => (e.queue q).any (fun d => d.seq != 0 && decide (d.seq < c.seq)))
    if c.fld 0 19 1 = 1 && earlier then s.setHead core c else s.endCmd core c 0)

/-! The stage-empty write and completion (12 R302, R306, R318). -/

/-- The stage-empty write of a command whose source reads have returned (12 R306), a release at SESCOPE (05 R131). Arguments:
cluster, core. -/
def execStageEmptyWrite (s : State) : Out :=
  s.matrixStep [1, 2, 4, 5] false (fun s cl core c =>
    if !c.se || c.cursor < c.endCursor then s
    else
      let target := cl * 8 + c.fld 7 16 3
      match s.engLocal (s.core core).ctx target (c.fld 7 0 16) 4 true with
      | .error _ => s.holdCmd core c Cause.notmapped.code
      | .ok _ =>
        let scope := c.fld 0 13 3
        if !s.released (matrixAgent cl) scope then (s.setHead core c).dueOne .stageEmptyWrite [cl, core]
        else
          match s.engWrite (s.matrixEng core 4) (localDesc target (c.fld 7 0 16)) 0 (leBytes 4 (c.fld 7 32 32))
              [(scope, s.view (matrixAgent cl))] with
          | .error x => s.holdCmd core c x
          | .ok s => s.endCmd core c 0)

/-- The head of a core's queue gone: the next command begins, and each `MSYNC` that waits looks again. -/
def State.popCmd (s : State) (core : Nat) : State :=
  let cl := clusterOf core
  let s := s.modEngine cl (fun e => e.setQueue (core % 8) (e.queue (core % 8)).tail)
  let s := s.startHead core
  let waiting := (List.range 8).map (fun i => cl * 8 + i) |>.filter (fun c => c != core && (match s.headCmd c with
    | some d => d.opc == 9 && d.begun && !d.ended
    | none => false))
  s.due ((waiting.map (fun c => ⟨.msync, [cl, c]⟩)) ++ [⟨.blockRetire, [cl]⟩, ⟨.switchOutComplete, [(s.core core).ctx]⟩])

/-- The scope that a command's completion is a release at (12 R302, R317). -/
def MCmd.scope (c : MCmd) : Nat := if c.opc = 9 then c.fld 0 16 3 else 2

/-- What an acquire of a command's completion by a core joins: nothing where the scope holds the engine alone (00 R397; 05 R123). -/
def State.completionView (s : State) (core : Nat) (c : MCmd) : List Nat :=
  if c.scope < 2 then [] else s.view (matrixAgent (clusterOf core))

/-- A command as it goes on after a hold or a switch-out: an `MMZ` that has run no K-step clears its cells again (12 R310). -/
def MCmd.again (c : MCmd) : MCmd := { c with begun := c.begun && !(c.opc == 2 && c.cursor == 0) }

/-- A held fault of a core that has exited becomes a fatal fault at TL2 of the slot that pushed the command, or of another EMPTY
one; where its slots all run activations, its block takes the fault without a dump (12 R319; 14 R363; log 19). -/
def State.heldFatal (s : State) (core : Nat) (c : MCmd) : State :=
  let (pc, s) := s.draw 64
  let k := s.core core
  let slot := if (k.slot c.slot).st = .empty then some c.slot else (List.range 4).find? (fun i => (k.slot i).st == .empty)
  match slot with
  | none => s.blockFault core Cause.jobfault.code (c.res true) pc
  | some i =>
    (s.modSlotAt core i (fun x => { x.setLevels 2 x.tl with
      actKey := none, xstat := setField (setField (x.setLevels 2 x.tl).xstat 9 1 0) 10 1 0,
      bank2 := { x.bank2 with xpc := pc, xcause := BitVec.ofNat 64 Cause.jobfault.code, xval := c.res true,
                              xval2 := BitVec.ofNat 64 c.job.toNat } })).fatal core i 1

/-- A matrix command completes, or is held (12 R302, R318, R319; log 19), once its engine's writes are readable in the scope of
the completion. Arguments: cluster, core. -/
def execMatrixCommandComplete (s : State) : Out :=
  let core := s.arg 1
  match s.headCmd core with
  | none => .next s
  | some c =>
    let ctx := (s.core core).ctx
    let view := s.completionView core c
    if (c.ended || c.held) && !s.released (matrixAgent (clusterOf core)) c.scope then
      .next (s.dueOne .matrixCommandComplete [clusterOf core, core])
    else if c.ended then .next ((s.popCmd core).completeCtxJob ctx core c.job (c.res false) (c.cause != 0) false view)
    else if !c.held then .next s
    else if (s.core core).exited && (s.blockOf core).isSome then
      let s := s.heldFatal core c
      .next ((s.popCmd core).completeCtxJob ctx core c.job (c.res false) true false view)
    else .next (s.completeCtxJob ctx core c.job (c.res true) true true view)

/-- The held command of a core's queue that a job names. -/
def State.heldCmd (s : State) (core job : Nat) : Option MCmd :=
  match s.headCmd core with
  | some c => if c.held && c.job.toNat == job then some c else none
  | none => none

/-- MCTL resumes a held job from its cursor (12 R318). Arguments: core, job. -/
def execMctlResume (s : State) : Out :=
  let (core, job) := (s.arg 0, s.arg 1)
  match s.heldCmd core job with
  | none => .next s
  | some c =>
    let s := s.modCore core (fun k => { k with jobs := k.jobs.modify (job % 256) Job.reset (fun j => { j with st := .pending, hold := false }) })
    .next ((s.setHead core { c.again with held := false, cause := 0 }).startHead core)

/-- MCTL cancels a held job (12 R318). Arguments: core, job. -/
def execMctlCancel (s : State) : Out :=
  let (core, job) := (s.arg 0, s.arg 1)
  match s.heldCmd core job with
  | none => .next s
  | some c =>
    let s := s.modCore core (fun k => { k with jobs := k.jobs.modify (job % 256) Job.reset (fun j =>
      { j with st := .faulted, hold := false, res := c.res false }) })
    .next (s.popCmd core)

end Sys2Proof.Machine
end

