-- ==== Sys2Proof/Machine/Switch.lean ====
section
/-! DEFINITION. Slices, switch points, the overrun path, and the save and restore of a context (07 R193; 13 R350; 14 R366 to
R373). What a Loft image holds stands in its context too, as a structure (log 40). -/

namespace Sys2Proof.Machine

/-! Slices (13 R350). -/

/-- Two partitions share a die. -/
def sharesDie (a b : List Nat) : Bool := a.any b.contains

/-- A context is eligible to run: SAVED, with a partition that has not been withdrawn (13 R350). -/
def Ctx.eligible (c : Ctx) : Bool := c.st == .saved && c.order != 0 && !c.dies.isEmpty

/-- Another eligible context shares a die with a context. -/
def State.contended (s : State) (ctx : Nat) : Bool :=
  s.ctxs.entries.any (fun e => e.1 != ctx && e.2.eligible && sharesDie e.2.dies (s.ctx ctx).dies)

/-- A context about to be switched out: a switch point at least 20 µs off, freely chosen, is proposed (13 R350; log 21). -/
def State.proposeSwitch (s : State) (ctx : Nat) : State :=
  let (n, s) := s.choose 1000000
  (s.modCtx ctx (fun c => { c with sliceEnd := none })).dueOne .stAgreement [ctx, s.now + 20000 + n]

/-- A running context's slice ends (13 R350): the next follows at once unless another context waits for a die of it, or its
partition has been withdrawn. Arguments: context. -/
def execSliceEnd (s : State) : Out :=
  let ctx := s.arg 0
  let c := s.ctx ctx
  match c.sliceEnd with
  | none => .next s
  | some t =>
    if c.st ≠ .running || c.sw ≠ .none_ || s.clock < t then .next s
    else if c.order ≠ 0 && !s.contended ctx then .next (s.setSlice ctx c.slice)
    else .next (s.proposeSwitch ctx)

/-- The scheduling clusters of a partition agree a switch point (13 R350). Arguments: context, ST. -/
def execStAgreement (s : State) : Out :=
  let (ctx, st) := (s.arg 0, s.arg 1)
  let c := s.ctx ctx
  if c.st ≠ .running || c.sw ≠ .none_ then .next s
  else .next (s.modCtx ctx (fun c => { c with sw := .agreed st }))

/-! The switch window (14 R366, R367). -/

/-- A parked slot as a switch point leaves it: woken, unless an answer on its way holds it; a `bar` re-executes (10 R272). -/
def Slot.atSwitch (x : Slot) : Slot :=
  match x.st.why with
  | some w => if w.woken then x.wake else x
  | none => x

/-- A package holds a switch point up: it is in reset, or its firmware reloads (13 R357). -/
def Package.holdsSwitch (p : Package) : Bool := p.halted || p.fw.rung == 2

/-- A switch point (14 R366): each core of the context stops taking entries and wakes its parked slots, walks are discarded,
and the save's first write clears VALID (14 R371). Arguments: context. -/
def execSwitchPoint (s : State) : Out :=
  let ctx := s.arg 0
  match (s.ctx ctx).sw with
  | .agreed st =>
    if (s.ctx ctx).st ≠ .running || s.now < st || (s.ctx ctx).dies.any (fun d => (s.pkg (d / 2)).holdsSwitch) then .next s
    else
      let cores := s.coresOf ctx
      let s := (s.clearValid ctx).modCtx ctx (fun c =>
        let i := { c.image with valid := false, slots := [], slow := false,
                                stTime := (BitVec.ofNat 64 st + c.timeOff).toNat }
        { c with sw := .window st false, image := i })
      let s := cores.foldl (fun s i => s.modCore i (fun c => { c with window := true, slots := c.slots.map Slot.atSwitch })) s
      let drop (w : Walk) : Walk := { w with waiters := w.waiters.filter (fun p => !cores.contains p.1) }
      .next { s with dies := s.dies.mapVal (fun _ d => { d with walks := d.walks.map drop, waiting := d.waiting.map drop }) }
  | _ => .next s

/-- The reason of a slot stopped on the overrun path. -/
def overrunReason : Nat := 512

/-- A slot that the overrun path can stop. -/
def SlotSt.live (t : SlotSt) : Bool :=
  match t with
  | .ready => true
  | .stalled _ => true
  | .parked _ => true
  | .empty => false
  | .follower _ => false
  | .halted _ => false
  | .stopped _ => false

/-- The slot as its SLOT section holds it (14 R372): at its next bundle, its results landed; one that waits at a `bar` is to
re-execute it, having arrived (10 R272). -/
def Slot.section (x : Slot) : Slot :=
  { x with pend := [], board := [], monitor := none, walkFault := none, yielded := [], st := .ready }

/-- A slot parked for an answer on its way, which it takes before it can stop (14 R367). -/
def Slot.awaits (x : Slot) : Bool :=
  match x.st.why with
  | some w => !w.woken
  | none => false

/-- A slot of a switch window overruns (14 R367; 07 R193): a speculative activation is rolled back and re-queued, one with
SPEC = 0 goes on (log 42), any other is stopped and saved whole, its gang disbanded (06 R157), once its accesses and its followers'
are in order and no answer is awaited. Arguments: core, slot. -/
def execOverrunStop (s : State) : Out :=
  let (core, slot) := (s.arg 0, s.arg 1)
  let x := s.slotAt core slot
  if !(s.core core).window || !x.st.live then .next s
  else
    let s := { s with cur := ⟨core, slot⟩ }
    match x.timed, x.spec, x.actKey with
    | true, true, some k => .next (s.rollback core k .free false)
    | true, false, _ => .next (if x.awaits then s else s.setMe x.wake)
    | _, _, _ =>
      if x.awaits || s.hostAnswer.any (fun e => e.1 == slotAgent core slot) || !s.allSettled then .next (s.dueOne .overrunStop [core, slot])
      else
        let saved : SavedSlot := ⟨core, slot, x.section, s.clock - x.began⟩
        let s := s.disbandMine
        let s := s.modMe (fun y => { y with st := .stopped overrunReason, gang := none })
        .next (s.modCtx (s.core core).ctx (fun c => { c with image := { c.image with slots := c.image.slots ++ [saved], slow := true } }))

/-- A core whose every slot is EMPTY or stopped on the overrun path. -/
def Core.atRest (c : Core) : Bool := c.slots.toList.all (fun x => x.st == .empty || x.st == .stopped overrunReason)

/-- A core can save its section (14 R366): its slots are at rest, and its timed activations have been dealt with, or every
core of its context is at rest and the last round can be run (07 R193). -/
def State.canSave (s : State) (core : Nat) : Bool :=
  let c := s.core core
  c.window && !c.saved && c.atRest &&
    (c.acts.isEmpty || ((s.coresOf c.ctx).all (fun i => (s.core i).atRest) && s.roundReady c.ctx))

/-- A core saves its section (14 R366): the last round of 07 R193 is run first where an activation is still uncommitted; an
overrun is charged to the next slice (14 R367). Arguments: core. -/
def execCoreSectionSave (s : State) : Out :=
  let core := s.arg 0
  if !s.canSave core then .next s
  else
    let ctx := (s.core core).ctx
    let s := if (s.core core).acts.isEmpty then s else s.lastRound ctx
    let slow := (s.core core).slots.toList.any (fun x => x.st == .stopped overrunReason)
    let s := s.modCore core (fun c => { c with window := false, saved := true })
    let late := match (s.ctx ctx).sw with
      | .window st _ => (s.now - st) * 18 / 5
      | _ => 0
    .next (s.modCtx ctx (fun c => { c with deduct := if slow then max c.deduct late else c.deduct }))

/-! Completing a switch-out (14 R368, R369). -/

/-- A kick of a core is still to begin its work: due, or waiting on a walk (12 R323). -/
def State.kicksLeft (s : State) (cores : List Nat) : Bool :=
  let kick (d : Due) : Bool := (d.step == .clkick || d.step == .cukick) && cores.contains (d.args.getD 0 0)
  s.agenda.any kick || s.dies.values.any (fun d => (d.walks ++ d.waiting).any (fun w => w.dues.any (fun x => kick x.1)))

/-- The switch-out of a context can complete (14 R368; 05 R139): every core is saved, the last round has been run or can be, every
chain has stopped, no kick is left, every write of its agents has performed. -/
def State.canSwitchOut (s : State) (ctx : Nat) : Bool :=
  let cores := s.coresOf ctx
  (match (s.ctx ctx).sw with
   | .window _ done => done || s.roundReady ctx
   | _ => false) &&
    cores.all (fun i => (s.core i).saved) && !s.kicksLeft cores &&
    (s.clustersOf ctx).all (fun k => (s.cluster k).chains.all (fun c => c.stopped)) &&
    (s.eager || s.writes.entries.all (fun w => w.2.reach == .sys))

/-- The messages of a context on their way, channel by channel in order: those in eject buffers, those in channels, those
still in ports (14 R369). -/
def State.collectFlight (s : State) (ctx : Nat) : List Channel :=
  let cores := s.coresOf ctx
  let put (l : List Channel) (m : Msg) : List Channel :=
    if l.any (fun c => c.sender == m.agent && c.core == m.dest && c.queue == m.dq) then
      l.map (fun c => if c.sender == m.agent && c.core == m.dest && c.queue == m.dq then { c with msgs := c.msgs ++ [m] } else c)
    else l ++ [⟨m.agent, m.dest, m.dq, [m]⟩]
  let msgs := cores.flatMap (fun i => (s.core i).eject) ++ (s.channels.flatMap (fun c => c.msgs)).filter (fun m => m.ctx == ctx) ++
    cores.flatMap (fun i => (s.core i).port)
  msgs.foldl put []

/-- A core as its CORE and QUEUE sections hold it (14 R372). -/
def Core.section (c : Core) : Core :=
  { c with slots := Vector.replicate 4 Slot.reset, eject := [], port := [], acts := [], larderHead := 0, larderTail := 0,
           retire := [], dir := .empty, rangeTlb := [], pageTlb := [], window := false, saved := false, lvtNote := [],
           queues := c.queues.map (fun l => l.map (fun e => { e with taken := false, head := none })) }

/-- A core as its sections hold it, JRES of a matrix command that stopped between steps with its cursor (12 R310; 14 R369). -/
def State.savedCore (s : State) (core : Nat) : Core :=
  let c := (s.core core).section
  let stopped (m : MCmd) : Job → Job := fun j => if j.st = .pending ∧ j.id = m.job then { j with res := m.res false } else j
  match s.headCmd core with
  | some m => if m.begun && !m.ended && !m.held then { c with jobs := c.jobs.modify (m.job.toNat % 256) Job.reset (stopped m) } else c
  | none => c

/-- A cluster as its CLUSTER and CHAIN sections hold it: the weight buffer and the rows not held are not kept (14 R369). -/
def Cluster.section (k : Cluster) : Cluster :=
  { k with pantry := [], commitQ := [], tlb2 := [],
           engine := { k.engine with queues := k.engine.queues.map (fun l => l.map MCmd.again), weight := .empty, acc := k.engine.acc.filter (fun r _ => k.engine.held.contains r) } }

/-- Bytes of a core's local memory, and its tags, gone from memory; what comes to stand there begins a new history (05 R139). -/
def State.clearLocal (s : State) (core : Nat) : State :=
  let lo := localBase core
  let s := s.restart lo 65536
  { s with mem := s.mem.filter (fun c => decide (c.1 < lo) || decide (lo + 65536 ≤ c.1)),
           tags := s.tags.filter (fun g => decide (g < lo / 16) || decide (lo / 16 + 4096 ≤ g)) }

/-- A package's directory of host lines without the records of some cores. -/
def dropHwDir (cores : List Nat) (p : Package) : Package :=
  { p with hwDir := (p.hwDir.mapVal (fun _ l => l.filter (fun r => !cores.contains r.core))).filter (fun _ l => !l.isEmpty) }

/-- What a context has on the device is gone from it: cores, clusters, walks, collectives, messages, local memory. Steps of the pod
that waited on one of its walks look again. -/
def State.clearCtx (s : State) (ctx : Nat) : State :=
  let cores := s.coresOf ctx
  let ks := s.clustersOf ctx
  let waiting := s.dies.values.flatMap (fun d => ((d.walks ++ d.waiting).filter (fun w => w.ctx == ctx)).flatMap (fun w => w.dues.map Prod.fst))
  let s := cores.foldl State.clearLocal (s.due waiting)
  { s with
    granted := s.granted.filter (fun e => e.2.ctx != ctx),
    cores := s.cores.filter (fun i _ => !cores.contains i),
    clusters := s.clusters.filter (fun i _ => !ks.contains i),
    dies := s.dies.mapVal (fun _ d => { d with walks := d.walks.filter (fun w => w.ctx != ctx),
                                               waiting := d.waiting.filter (fun w => w.ctx != ctx),
                                               coll := d.coll.filter (fun c => c.ctx != ctx) }),
    dirs := s.dirs.mapVal (fun _ d => (d.mapVal (fun _ l => l.filter (fun r => !cores.contains r.core))).filter (fun _ l => !l.isEmpty)),
    pkgs := s.pkgs.mapVal (fun _ p => dropHwDir cores p),
    channels := (s.channels.map (fun c => { c with msgs := c.msgs.filter (fun m => m.ctx != ctx) })).filter (fun c => !c.msgs.isEmpty) }

/-- The contexts that may be switched in after one, in the order of their PARTITION commands (13 R350). -/
def State.turns (s : State) (after : Nat) : List Nat :=
  let l := s.ctxs.entries.filter (fun e => e.2.eligible)
  let ins (e : Nat × Ctx) (m : List (Nat × Ctx)) : List (Nat × Ctx) :=
    m.takeWhile (fun x => decide (x.2.order < e.2.order)) ++ [e] ++ m.dropWhile (fun x => decide (x.2.order < e.2.order))
  let l := l.foldl (fun m e => ins e m) []
  ((l.filter (fun e => decide (after < e.2.order))) ++ (l.filter (fun e => decide (e.2.order ≤ after)))).map (fun e => e.1)

/-- The switch-ins that dies that have become free allow. -/
def State.nextTurns (s : State) (after : Nat) : State := s.due ((s.turns after).map (fun c => ⟨.switchIn, [c]⟩))

/-- The switch-out of a context completes (14 R368; 07 R193): its image holds what R369 and R372 keep, VALID is written, and
the context is SAVED. Arguments: context. -/
def execSwitchOutComplete (s : State) : Out :=
  let ctx := s.arg 0
  if !s.canSwitchOut ctx then .next s
  else
    let s := if (s.ctx ctx).sw.lastRun then s else s.lastRound ctx
    let s := (s.clustersOf ctx).foldl (fun (s : State) k => s.drain (commitAgent k)) s
    let cores := s.coresOf ctx
    let colls := s.dies.entries.flatMap (fun e => (e.2.coll.filter (fun c => c.ctx == ctx)).map
      (fun c => (e.1, { c with since := s.clock - c.since })))
    let img := (s.ctx ctx).image
    let img := { img with
      cores := ⟨cores.map (fun i => (i, s.savedCore i))⟩,
      clusters := ⟨(s.clustersOf ctx).map (fun k => (k, (s.cluster k).section))⟩,
      locals := ⟨cores.map (fun i => (i, s.localSection i))⟩,
      colls := colls, flight := s.collectFlight ctx, valid := true, counted := img.late.length, drops := [] }
    let old := s.ctx ctx
    let s := (s.clearCtx ctx).modCtx ctx (fun c =>
      { c with st := .saved, sw := .none_, sliceEnd := none, gen := c.gen + 1, neverIn := false, image := img })
    let s := s.writeImages ctx cores
    let saving := (s.pkgs.entries.filter (fun p => p.2.fw.rung == 3)).map (fun p => (⟨.contextPreservingEngineReset, [p.1]⟩ : Due))
    .next ((s.due saving).nextTurns old.order)

/-! Switching in (14 R373). -/

/-- The working cores of a partition (13 R341). -/
def State.workCores (s : State) (ctx : Nat) : List Nat := (s.workClusters ctx).flatMap (fun k => (List.range 8).map (fun i => 8 * k + i))

/-- The dies of a context are free for it. -/
def State.diesFree (s : State) (ctx : Nat) : Bool :=
  !s.ctxs.entries.any (fun e => e.1 != ctx && e.2.st == .running && sharesDie e.2.dies (s.ctx ctx).dies)

/-- The registers of a core in force from a switch-in (04 R91; 07 R171). -/
def Core.inForce (c : Core) (spillK : Nat) : InForce :=
  ⟨spillK, bitsOf c.lardcfg.toNat 0 5, c.lardcfg.getLsbD 7, c.statemap, c.tlcfg⟩

/-- The entries of a queue restored: the first sixty-four stand in hardware, the others in the pool (04 R92). -/
def respill (l : List QEntry) : List QEntry := l.zipIdx.map (fun e => { e.1 with spilled := decide (Config.queueDepth ≤ e.2) })

/-- A core restored (14 R373 step 3). -/
def State.restoreCore (s : State) (ctx : Nat) (core : Nat) : State :=
  let x := s.ctx ctx
  let c := x.image.cores.getD core Core.reset
  let c := { c with ctx := ctx, force := c.inForce x.page.spillK, queues := c.queues.map respill }
  let s := (s.clearLocal core).setCore core (c.heads s.clock)
  let (bytes, tags) := x.image.locals.getD core ([], [])
  let s := { s with mem := s.mem.write (localBase core) bytes, tags := tags.foldl (fun l g => insertNat l (localBase core / 16 + g)) s.tags }
  x.seeds.zipIdx.foldl (fun s e => s.poke (localAddr core (0xFF00 + 16 * e.2)) (leBytes 8 e.1.lo.toNat ++ leBytes 8 e.1.hi.toNat)
    (some true) 0) s

/-- The weight lines of an engine written again from their origins as they now stand (12 R314; log 43): those whose source is in
GLOBAL, or in local memory once that is back. -/
def State.replay (s : State) (ctx cl : Nat) (local_ : Bool) : State :=
  ((s.cluster cl).engine.wld.entries.filter (fun e => (bitsOf e.2.src.toNat 61 3 == 1) == local_)).foldl (fun (s : State) e =>
    match s.engRead { agent := matrixAgent cl, ctx := ctx, cluster := cl, unit := 8 } e.2.src.toNat (64 * e.2.line) 64 with
    | .ok (bs, s) => s.modCluster cl (fun k => { k with engine := { k.engine with weight := k.engine.weight.set e.1 (vecOfBytes bs) } })
    | .error f => (s.causeOf f).2) s

/-- The agents of a context begin with a view of every write that has performed (05 R139); a chain still queued brings it with
it. -/
def State.beginViews (s : State) (ctx : Nat) : State :=
  let ks := s.workClusters ctx
  let late (c : Chain) : Chain := { c with view := joinNat c.view s.arrived }
  let agents := (s.workCores ctx).flatMap (fun c => (List.range 4).map (slotAgent c)) ++
    ks.flatMap (fun k => [matrixAgent k, commitAgent k] ++ (s.cluster k).chains.map (fun c => chainAgent k c.id)) ++
    (s.ctx ctx).dies.map collAgent ++ [gridAgent ctx]
  if s.eager then s
  else
    ks.foldl (fun (s : State) k => s.modCluster k (fun c => { c with chainQ := c.chainQ.map late }))
      { s with views := agents.foldl (fun m a => m.set a s.arrived) s.views }

/-- A saved slot restored (14 R373 step 4): its watchdog goes on from ELAPSED, and a gang leader takes GANGFAULT. -/
def State.restoreSlot (s : State) (e : SavedSlot) : State :=
  let x := { e.data with began := s.clock - e.elapsed }
  let led := bitsOf x.xstat.toNat 11 2 == 1
  let s := { s.setSlotAt e.core e.slot { x with gang := none } with cur := ⟨e.core, e.slot⟩, performed := true }
  if led then
    let (v, s) := s.draw 64
    let s := s.modMe (fun x => { x with xstat := setField (setField x.xstat 11 2 0) 13 2 0, npc := x.pc })
    (s.raiseAt .gangfault v 0 x.pc).modSlotAt e.core e.slot (fun x => { x with pc := x.npc })
  else s

/-- A message of LATE that a CORE section counts as received no longer counts until its core accepts it again (07 R188). -/
def State.uncount (s : State) (m : Msg) : State :=
  if m.dq ≠ 4 then s
  else s.modCore m.dest (fun c => if m.colour then { c with recv1 := c.recv1 - 1 } else { c with recv0 := c.recv0 - 1 })

/-- The messages of an image put back on their way: FLIGHT, then LATE (14 R373 step 5); what was dropped of the saved context
counts as received (07 R188). -/
def State.reinject (s : State) (i : Image) : State :=
  let s := i.drops.foldl (fun s m => s.receipt m.dest m) s
  let s := (i.late.take i.counted).foldl State.uncount s
  let s := i.flight.foldl (fun s c => c.msgs.foldl State.launchMsg s) s
  i.late.foldl State.launchMsg s

/-- The participants of a collective that has started, among those of a context (12 R331). -/
def Coll.groupIn (c : Coll) (l : List (Nat × Coll)) : List (Nat × Nat) :=
  (List.range c.npart).filterMap (fun q => (l.find? (fun e => e.1 == c.dieOfRank q && e.2.started && e.2.tag == c.tag && e.2.rank == q)).map
    (fun e => (e.1, e.2.key)))

/-- Chains, commands and collectives go on from their cursors (14 R373 step 6). -/
def State.resumeEngines (s : State) (ctx : Nat) (colls : List (Nat × Coll)) : State :=
  let ks := s.workClusters ctx
  let s := ks.foldl (fun (s : State) k =>
    let l := (s.cluster k).chains
    let s := s.modCluster k (fun x => { x with chains := x.chains.map (fun c => { c with stopped := false }) })
    let s := l.foldl (fun s c => s.chainNext k { c with stopped := false }) s
    let s := (List.range 8).foldl (fun s i => s.startHead (8 * k + i)) s
    (s.dueOne .chainStart [k]).dueOne .matrixAccept [k]) s
  colls.foldl (fun (s : State) e =>
    let c := { e.2 with since := s.clock - e.2.since, group := if e.2.started then e.2.groupIn colls else [] }
    let s := s.modDie e.1 (fun d => { d with coll := d.coll ++ [c] })
    if c.ended then s.dueOne .collectiveComplete [e.1, c.key]
    else if c.started then
      s.dueOne (match c.op with
        | 1 => .allreduce
        | 2 => .reduceScatter
        | 3 => .allgather
        | 4 => .broadcast
        | _ => .allToAll) [e.1, c.key]
    else s.dueOne .collectiveRendezvous [c.ctx, c.tag]) s

/-- The steps that a switched-in context lets happen (14 R373 step 7). -/
def State.switchedIn (s : State) (ctx : Nat) : State :=
  let cores := s.coresOf ctx
  let stopping := cores.filter (fun c => match s.blockOf c with
    | some (_, b) => b.stopping
    | none => false)
  let s := s.due (stopping.map (fun c => ⟨.blockStop, [c]⟩))
  let s := s.due ((s.clustersOf ctx).map (fun k => ⟨.blockRetire, [k]⟩))
  let cancels := (s.ctx ctx).grids.entries.filter (fun e => e.2.cancelled && !e.2.complete)
  let s := s.due (cancels.flatMap (fun e => ((s.ctx ctx).pkgsOf.filter (fun p => !e.2.arrived.contains p)).map
    (fun p => ⟨.cancelArrive, [ctx, e.1, p]⟩)))
  let s := s.due (cores.flatMap (fun c => (List.range 4).map (fun i => ⟨.activate, [c, i]⟩)))
  let s := s.due ((s.ctx ctx).dies.map (fun d => ⟨.roomRequest, [d]⟩))
  s.due (s.pkgs.entries.flatMap (fun p => ((p.2.queues.entries.filter (fun e => e.2.ctx == ctx && e.2.state != 0)).map
    (fun e => ⟨.graphFinish, [p.1 * 4096 + e.1]⟩)) ))

/-- Every collective of a context ends, its job FAULTED with COLLRDV (12 R332). -/
def State.endColls (s : State) (ctx : Nat) : State :=
  let l := s.dies.values.flatMap (fun d => d.coll.filter (fun c => c.ctx == ctx)) ++ (s.ctx ctx).image.colls.map (fun e => e.2)
  l.foldl (fun (s : State) c => s.completeCtxJob ctx c.core c.job
    (BitVec.ofNat 64 (c.cursor % 2 ^ 40 * 2 ^ 24 + Cause.collrdv.code)) true false []) s

/-- A grid of a context that stops where it stands: none of its blocks is left to run, and of a queue's grid the record reports
DESTROYED (06 R167; 13 R349; 15 R381). -/
def Grid.stopped (g : Grid) (i : Nat) (resident : List Block) (pkgs : List Nat) : Grid :=
  if g.complete then g
  else
    let mine := resident.filter (fun b => b.grid == i)
    let faulted := (mine.filter (fun b => b.fault.isSome)).length
    let never := g.nblk - g.next + (g.ranges.values.flatMap (fun l => l)).length
    { g with next := g.nblk, ranges := .empty, nnever := g.nnever + never, ended := g.ended + mine.length, nfault := g.nfault + faulted,
             nstop := g.nstop + (mine.length - faulted), trigBlk := g.nblk, cancelled := true, arrived := pkgs, acked := pkgs,
             destroyed := g.destroyed || g.launch.queue.isSome }

/-- What runs or waits of a context stops and is gone: its queues destroyed, its jobs, messages, blocks and dumps dropped; a dump of
another context that waited may begin (13 R349; 14 R376; 15 R381). -/
def State.dropWork (s : State) (ctx : Nat) : State :=
  let s := s.pkgs.entries.foldl (fun (s : State) p =>
    (p.2.queues.entries.filter (fun e => e.2.ctx == ctx)).foldl (fun s e => s.destroyQueue (p.1 * 4096 + e.1)) s) (s.endColls ctx)
  let resident := s.blocks.values.filter (fun b => b.ctx == ctx)
  let gone (e : Nat × Nat × Nat) : Bool := (s.core e.1).ctx == ctx
  let s := { s with pkgs := s.pkgs.mapVal (fun _ p => { p with dump :=
    ⟨p.dump.cur.filter (fun e => !gone e), p.dump.waiting.filter (fun e => !gone e)⟩ }) }
  let s := s.due ((s.pkgs.entries.filter (fun p => !p.2.dump.waiting.isEmpty)).map (fun p => ⟨.dumpStart, [p.1]⟩))
  let s := { s.clearCtx ctx with blocks := s.blocks.filter (fun _ b => b.ctx != ctx) }
  let s := s.modCtx ctx (fun c =>
    { c with sw := .none_, sliceEnd := none, round := none, launches := c.launches.filter (fun l => l.queue.isSome),
             grids := c.grids.mapVal (fun i g => g.stopped i resident c.pkgsOf) })
  let live := (s.ctx ctx).grids.entries.filter (fun e => !e.2.complete)
  s.due (live.flatMap (fun e => [⟨.gridTrigger, [ctx, e.1]⟩, ⟨.gridComplete, [ctx, e.1]⟩]))

/-- A context enters RESET: what runs of it is gone, its keys are wiped and its queues destroyed (01 R9; 15 R381). -/
def State.enterReset (s : State) (ctx : Nat) : State :=
  let s := s.pkgs.entries.foldl (fun (s : State) p =>
    let mine (k : Nat) : Bool := (p.2.keys.getD k KeySlot.reset).owner == ctx
    (s.modPkg p.1 (fun k => { k with keys := k.keys.mapVal (fun _ x => if x.owner = ctx then { x with loaded := false, key := [] } else x) })).wakeKeys
      p.1 mine) s
  (s.dropWork ctx).modCtx ctx (fun c => { c with st := .reset })

/-- The CORE sections of an image name the working cores of the partition; a context never switched in has them all. -/
def State.coresMatch (s : State) (ctx : Nat) : Bool :=
  let x := s.ctx ctx
  x.neverIn || x.image.cores.keys == s.workCores ctx

/-- The CORE sections read from the areas of a context name the working cores of the partition that stand on the areas' packages;
those of a context never switched in may name none. -/
def State.sectionsMatch (s : State) (ctx : Nat) (named : List Nat) : Bool :=
  let x := s.ctx ctx
  (x.neverIn && named.isEmpty) || named == (s.workCores ctx).filter (fun c => (x.lofts.get? (pkgOf c)).isSome)

/-- A switch-in (14 R373): an image that is not whole puts the context in RESET (14 R371), one that names other cores is
refused. Arguments: context. -/
def execSwitchIn (s : State) : Out :=
  let ctx := s.arg 0
  let x := s.ctx ctx
  let (whole, t) := s.areasWhole ctx
  let (named, t) := t.takeImage ctx
  if !x.eligible || !s.diesFree ctx || x.dies.any (fun d => (s.pkgs.get? (d / 2)).isNone || (s.pkg (d / 2)).halted ||
      decide (3 ≤ (s.pkg (d / 2)).fw.rung)) then .next s
  else if !x.image.valid || !whole then .next (s.enterReset ctx)
  else if !s.coresMatch ctx || !s.sectionsMatch ctx named then .next s
  else
    let (s, x) := (t, t.ctx ctx)
    let s := s.modCtx ctx (fun c => { c with
      st := .running, slice := if c.nextSlice = 0 then c.slice else c.nextSlice, cap := if c.nextCap = 0 then c.cap else c.nextCap,
      nextSlice := 0, nextCap := 0, image := Image.empty,
      round := some ⟨match c.round with
        | some r => r.colour
        | none => false, s.clock, false, 0⟩ })
    let s := (s.workClusters ctx).foldl (fun (s : State) k => { s with clusters := s.clusters.set k (x.image.clusters.getD k Cluster.reset) }) s
    let s := (s.workClusters ctx).foldl (fun s k => s.replay ctx k false) (s.beginViews ctx)
    let t := { s with ctxs := s.ctxs.set ctx { s.ctx ctx with image := x.image } }
    let s := (s.workCores ctx).foldl (fun (t : State) c => t.restoreCore ctx c) t
    let s := s.modCtx ctx (fun c => { c with image := Image.empty })
    let s := (s.workClusters ctx).foldl (fun s k => s.replay ctx k true) s
    let s := x.image.slots.foldl State.restoreSlot s
    let s := (s.reinject x.image).resumeEngines ctx x.image.colls
    let s := s.switchedIn ctx
    .next (s.polEvent 2 ctx (s.candQueues ctx))

end Sys2Proof.Machine
end

