-- ==== Sys2Proof/Machine/Firmware.lean ====
section
/-! DEFINITION. The firmware of a package: core dumps (14 R363, R375 to R377), the heartbeat, the reset ladder and live update
(13 R356 to R358), resets (02 R33; 03 R76, R78; 13 R357), and power and cooling (15 R391, R392). -/

namespace Sys2Proof.Machine

/-! Dumps. -/

/-- The header of an Attic (14 R375). -/
def Attic.header (a : Attic) (ctx : Nat) : List Byte :=
  leBytes 8 0x4154544900000001 ++ leBytes 4 a.state ++ leBytes 4 ((if a.trunc then 1 else 0) + if a.nested then 2 else 0) ++
    leBytes 8 a.nextra ++ leBytes 8 a.used ++ leBytes 32 (ctx % 2 ^ 20)

/-- The Attic of a context set, its header with it in memory. -/
def State.setAttic (s : State) (ctx : Nat) (a : Attic) : State :=
  (s.modCtx ctx (fun c => { c with attic := some a })).rootWrite (s.ctx ctx).home a.addr (a.header ctx)

/-- A record of a fatal slot (14 R375): its header, its SLOT image, and in a primary record its core's images. -/
def State.dumpRecord (s : State) (core slot reason : Nat) (primary : Bool) : List Byte :=
  let x := s.slotAt core slot
  let b := x.bank2
  let body := x.image ((s.clock - x.began) / Config.cyclesPerMicro) ++
    (if primary then s.coreImage core ++ (s.core core).queueImage else [])
  leBytes 8 (64 + body.length) ++ leBytes 8 (if primary then 1 else 2) ++ leBytes 8 reason ++ dwBytes b.xcause ++
    leBytes 8 (core * 4 + slot) ++ dwBytes b.xpc ++ dwBytes b.xval ++ dwBytes b.xval2 ++ body

/-- A record put after those of an Attic; one that would pass its end is cut there (14 R377). -/
def State.putRecord (s : State) (ctx : Nat) (a : Attic) (bs : List Byte) : State :=
  let room := a.size - 64 - a.used
  let cut := bs.take room
  let s := s.rootWrite (s.ctx ctx).home (a.addr + 64 + a.used) cut
  s.setAttic ctx { a with used := a.used + cut.length, trunc := a.trunc || decide (room < bs.length) }

/-- A fatal fault counted without a record (14 R377). -/
def State.countExtra (s : State) (ctx : Nat) (a : Attic) : State := s.setAttic ctx { a with nextra := min (a.nextra + 1) 0xFFFFFFFF }

/-- A fatal slot ends (14 R363): its activation ends as by `gexit` with status 0, a speculative one is rolled back and gone,
and its block counts as faulted. -/
def State.endFatal (s : State) (core slot reason : Nat) : State :=
  let x := s.slotAt core slot
  let b := x.bank2
  let view := s.view (slotAgent core slot)
  let cause := if reason = 2 then 0 else b.xcause.toNat % 256
  let blk := s.blockOf core
  let s := { s with cur := ⟨core, slot⟩ }
  let s := match x.timed && x.spec, x.actKey with
    | true, some k => (s.rollback core k .free true).modSlotAt core slot Slot.emptied
    | _, _ => s.endActivation core slot
  let s := s.blockFault core cause b.xval b.xpc
  if x.timed then s
  else
    let s := s.modCore core (fun c => { c with exited := true })
    match blk with
    | some (i, y) => ((s.modGrid y.ctx y.grid (fun g => { g with view := joinNat g.view view })).checkTrig i).due (exitDues core)
    | none => s

/-- What becomes of a fatal slot that waits (14 R376, R377): whether it is dealt with now. -/
def State.serveFatal (s : State) (pkg core slot reason : Nat) : Option State :=
  let ctx := (s.core core).ctx
  match (s.ctx ctx).attic with
  | none => some (s.endFatal core slot reason)
  | some a =>
    if a.state = 2 then some ((s.countExtra ctx a).endFatal core slot reason)
    else if a.state = 1 then
      (if a.nested || a.trunc then some ((s.countExtra ctx a).endFatal core slot reason)
       else some ((s.putRecord ctx { a with nested := true } (s.dumpRecord core slot reason false)).endFatal core slot reason))
    else if (s.pkg pkg).dump.cur.isSome then none
    else
      let s := s.setAttic ctx { a with state := 1 }
      let s := s.putRecord ctx { a with state := 1 } (s.dumpRecord core slot reason true)
      some ((s.modPkg pkg (fun p => { p with dump := { p.dump with cur := some (core, slot, reason) } })).dueOne .dumpComplete [pkg])

/-- The first fatal slot that can be dealt with, the others kept. -/
def State.serveFirst (s : State) (pkg : Nat) : List (Nat × Nat × Nat) → List (Nat × Nat × Nat) → Option (State × List (Nat × Nat × Nat))
  | _, [] => none
  | before, e :: t =>
    match s.serveFatal pkg e.1 e.2.1 e.2.2 with
    | some s => some (s, before ++ t)
    | none => State.serveFirst s pkg (before ++ [e]) t

/-- The dump role serves a fatal slot: it begins a primary record in an EMPTY Attic, or ends one that leaves no dump (14
R376, R377). Arguments: package. -/
def execDumpStart (s : State) : Out :=
  let p := s.arg 0
  match s.serveFirst p [] (s.pkg p).dump.waiting with
  | none => .next s
  | some (s, rest) => .next ((s.modPkg p (fun k => { k with dump := { k.dump with waiting := rest } })).dueOne .dumpStart [p])

/-- A dump is done: STATE = DONE is written as a release, the host is told, the slot ends, and the dump engine is free (14 R376). Arguments:
package. -/
def execDumpComplete (s : State) : Out :=
  let p := s.arg 0
  match (s.pkg p).dump.cur with
  | none => .next s
  | some (core, slot, reason) =>
    let ctx := (s.core core).ctx
    let s := s.modPkg p (fun k => { k with dump := { k.dump with cur := none } })
    let s := match (s.ctx ctx).attic with
      | some a => if a.state = 1 then { s.setAttic ctx { a with state := 2 } with notices := s.notices ++ [Notice.dump ctx] } else s
      | none => s
    .next ((s.endFatal core slot reason).dueOne .dumpStart [p])

/-! The heartbeat and the ladder (13 R356, R357). -/

/-- The role of a Garret cluster in a role map: column 0 or 1, row (13 R343). -/
def roleIn (role col row : Nat) : Nat := bitsOf role (2 * (16 * col + row)) 2

/-- The role of a Garret core (12 R336; 13 R343). -/
def PkgConfig.roleOf (c : PkgConfig) (core : Nat) : Nat :=
  let id := core % 2 ^ 20
  roleIn (c.role.get (Fin.ofNat 2 (id / 2048 % 2))).toNat (bitsOf id 10 1) (id / 8 % 16)

/-- The command-processing and the scheduling roles answer the firmware's watch: none of their cores is lost (14 R363). -/
def Package.rolesAnswer (p : Package) : Bool := !p.fw.lost.any (fun c => p.cfg.roleOf c == 1 || p.cfg.roleOf c == 2)

/-- A firmware whose new image runs on: ACTIVE changes, and the slots' images with it (13 R358). -/
def Firmware.swapped (f : Firmware) : Firmware := { f with active := !f.active, update := .none_, image := f.spare, spare := f.image }

/-- A heartbeat of a package (13 R357): the host dword, at the address that HBADDR gives aligned to 8 (log 65), is written with one more
than before; the first one of a new image ends a live update, and ACTIVE changes (R358). Arguments: package. -/
def execHeartbeat (s : State) : Out :=
  let p := s.arg 0
  let k := s.pkg p
  if !k.fw.beats s.clock || k.halted || !k.rolesAnswer then
    .next (s.modPkg p (fun k => { k with fw := { k.fw with hbNext := max k.fw.hbNext (s.clock + 1000 * Config.cyclesPerMicro) } }))
  else
    let n := k.fw.hbCount + 1
    let a := p * 2 ^ 44 + 0x08000000000 + k.fw.hbAddr.toNat / 8 * 8
    let s := s.postHost (2 * p) a (leBytes 8 n.toNat)
    let handed := match k.fw.update with
      | .handed _ => k.fw.stagedHand
      | .none_ => false
      | .quiescing => false
    let s := s.modPkg p (fun k => { k with fw := { k.fw with hbCount := n, hbNext := s.clock + 1000 * Config.cyclesPerMicro } })
    .next (if handed then (s.modPkg p (fun k => { k with fw := k.fw.swapped })).queuesOn p else s)

/-- The queues of a package whose head entries are read again from HEAD (13 R357). -/
def State.reread (s : State) (p : Nat) : State :=
  (s.pkg p).queues.keys.foldl (fun (s : State) q => (s.modHq (p * 4096 + q) (fun h => { h with entry := none })).readEntry (p * 4096 + q)) s

/-- A rung above 1 ends a live update; the reload uses the slot that ACTIVE names (13 R358). -/
def State.abortUpdate (s : State) (p : Nat) : State :=
  if s.fwBegins p then s else (s.modPkg p (fun k => { k with fw := { k.fw with update := .none_ } })).queuesOn p

/-- The rung in progress is over. -/
def State.rungDone (s : State) (p : Nat) : State := s.modPkg p (fun k => { k with fw := { k.fw with rung := 0 } })

/-- Rung 1 (13 R357): the command-processing cores reload. Arguments: package. -/
def execCommandProcessorRestart (s : State) : Out :=
  let p := s.arg 0
  let s := s.modPkg p (fun k => { k with fw := { k.fw with lost := k.fw.lost.filter (fun c => k.cfg.roleOf c != 1) } })
  .next ((if (s.pkg p).fw.rung = 1 then s.rungDone p else s).reread p)

/-- Every Garret core reloads (13 R357). -/
def State.reload (s : State) (p : Nat) : State :=
  (((s.abortUpdate p).modPkg p (fun k => { k with fw := { k.fw with lost := [] } })).reread p).dueOne .qdestroy [p]

/-- Rung 2 (13 R357). Arguments: package. -/
def execGarretReload (s : State) : Out :=
  let p := s.arg 0
  .next ((if (s.pkg p).fw.rung = 2 then s.rungDone p else s).reload p)

/-- The contexts RUNNING on some die of a list. -/
def State.runningOn (s : State) (dies : List Nat) : List Nat :=
  (s.ctxs.entries.filter (fun e => e.2.st == .running && sharesDie e.2.dies dies)).map (fun e => e.1)

/-- Rung 3 (13 R357): running contexts are saved at a switch point; once they are, the engines are reset and rung 2 follows.
Arguments: package. -/
def execContextPreservingEngineReset (s : State) : Out :=
  let p := s.arg 0
  if (s.pkg p).fw.rung ≠ 3 then .next s
  else
    match (s.runningOn [2 * p, 2 * p + 1]) with
    | [] =>
      let s := { s with clusters := s.clusters.filter (fun k _ => k / 512 != p) }
      .next (((s.rungDone p).reload p).nextTurns 0)
    | l => .next (l.foldl (fun (s : State) c => if (s.ctx c).sw = .none_ ∧ (s.ctx c).sliceEnd.isSome then s.proposeSwitch c else s) s)

/-- A die reset (13 R357; 01 R9; 15 R391): contexts RUNNING on it enter RESET, and its clusters leave reset in turn; steps of other
agents that waited on its walks look again. -/
def State.resetDie (s : State) (d : Nat) : State :=
  let s := (s.runningOn [d]).foldl State.enterReset s
  let waiting := ((s.die d).walks ++ (s.die d).waiting).flatMap (fun w => w.dues.map Prod.fst)
  ({ s with dies := s.dies.set d Die.reset, clusters := s.clusters.filter (fun k _ => k / 256 != d) }.due waiting).dueOne .clusterResetRelease [d]

/-- Rung 4 for a die (13 R357): the rung is over once both dies of the package have been reset, and it subsumes the reload of the
Garret cores. Arguments: die. -/
def execDieReset (s : State) : Out :=
  let d := s.arg 0
  let p := d / 2
  let more := s.agenda.any (fun x => x.step == .dieReset && x.args.getD 0 0 / 2 == p)
  let s := (s.resetDie d).reload p
  .next ((if (s.pkg p).fw.rung = 4 && !more then s.rungDone p else s).nextTurns 0)

/-- A context passes to RETIRING (01 R9; 02 R64): its windows and reservations are dropped, and each Cellar that holds a node
of it withdraws them with one `unmap`. -/
def State.retire (s : State) (ctx : Nat) : State :=
  let s := s.modCtx ctx (fun c => { c with st := .retiring, order := 0, windows := Vector.replicate 16 Window.closed })
  let home := (s.ctx ctx).home
  let s := s.modEng home (fun e => { e with resv := e.resv.filter (fun r => r.ctx != ctx) })
  let unit : Vector Word 5 := #v[BitVec.ofNat 64 (ctx % 2 ^ 20 * 2 ^ 32 + 16 + 3), 0, 0, 0, 0]
  let at_ := (s.pkgs.entries.filter (fun p => p.2.cellar.entries.any (fun n => n.2.ctx == ctx))).map (fun p => p.1)
  let s := at_.foldl (fun (s : State) p => s.request p (.space unit (.retire ctx))) s
  s.dueOne .contextFree [ctx]

/-- The boot ROM accepts a configuration table (13 R343, R344): its signature, its first fields, its Garret columns, its
reserved bytes and its roles. -/
def PkgConfig.tableOk (c : PkgConfig) (p : Nat) : Bool :=
  let t := c.table
  let f (off n : Nat) : Nat := leNat ((t.drop off).take n)
  let cols (d : Nat) : List Nat := garretColumns (f (16 + 8 * d) 8)
  let clean (off n : Nat) : Bool := ((t.drop off).take n).all (fun b => b == 0)
  let roles := [0, 1].flatMap (fun d => (List.range (cols d).length).flatMap (fun i =>
    (List.range 16).map (fun r => roleIn (f (32 + 8 * d) 8) i r)))
  t.length == 4096 && Config.signatureValid p (t.take (256 + 3309)) && f 0 8 == 0x58534E4147430001 && f 8 4 == 1 &&
    decide (c.minSvn ≤ f 12 4) &&
    [0, 1].all (fun d => decide (bitsOf (f (16 + 8 * d) 8) 0 2 ≤ 2) && decide (cols d).Nodup &&
      (cols d).all (fun x => (c.enabled.get (Fin.ofNat 2 d)).testBit x)) &&
    clean 48 208 && clean (256 + 3309) 531 && [1, 2, 3].all roles.contains

/-- The configuration that the boot ROM puts in force: the table's, or the built-in default where it refuses the table (13
R344). -/
def PkgConfig.booted (c : PkgConfig) (p : Nat) : PkgConfig :=
  let f (off : Nat) : Word := BitVec.ofNat 64 (leNat ((c.table.drop off).take 8))
  if c.tableOk p then { c with layout := #v[f 16, f 24], role := #v[f 32, f 40] }
  else { c with layout := PkgConfig.reset.layout, role := PkgConfig.reset.role }

/-- A package reset (02 R33; 03 R76, R78; 13 R344, R357; 15 R388 to R390; log 11): all but the fuses, the count of unlocks and the image
slots is as at power-on, its lines hold what nothing has written, slots that wait on a line under one of its keys look again (04
R107), and contexts homed on it pass to RETIRING, of which nothing runs any more (01 R9). -/
def State.resetPackage (s : State) (p : Nat) : State :=
  let s := (s.runningOn [2 * p, 2 * p + 1]).foldl State.enterReset s
  let (n, s) := s.draw 128
  let old := s.pkg p
  let fresh := { Package.reset p with
    cfg := { old.cfg.booted p with nonce := n }, life := old.cfg.fused, unlocks := old.unlocks,
    cellar := ⟨(rootNodes p).entries ++ ((cxlRanges old.cfg.ports).zipIdx.map (fun e =>
      let f := p * 2 ^ 32 + Config.cxlFrame + e.1.1 / 4096
      (2 + e.2, ⟨0, false, false, false, 0, 0, f, 0, 0, 0x7F, f, e.1.2 / 4096, none⟩)))⟩,
    fw := { (Package.reset p).fw with
      cfgRef := !old.cfg.tableOk p, image := if old.fw.active then old.fw.spare else old.fw.image,
      spare := if old.fw.active then old.fw.image else old.fw.spare } }
  let mine (a : Nat) : Bool := decide (p * 2 ^ 44 ≤ a) && decide (a < (p + 1) * 2 ^ 44)
  let s := s.restart (p * 2 ^ 44) (2 ^ 44)
  let s := { s with
    pkgs := s.pkgs.set p fresh,
    mem := s.mem.filter (fun c => !mine c.1), tags := s.tags.filter (fun g => !mine (16 * g)),
    stamps := s.stamps.filter (fun l _ => !mine (64 * l)), poison := s.poison.filter (fun l => !mine (64 * l)) }
  let s := [2 * p, 2 * p + 1].foldl State.resetDie (s.wakeKeys p (fun i => i != 0))
  let homed := s.ctxs.entries.filter (fun e => e.2.home == p && (e.2.st == .saved || e.2.st == .running || e.2.st == .reset))
  homed.foldl (fun (s : State) e => (if e.2.st = .reset then s else s.enterReset e.1).retire e.1) s

/-- Rung 5 (13 R357). Arguments: package. -/
def execPackageReset (s : State) : Out := .next ((s.resetPackage (s.arg 0)).nextTurns 0)

/-! Live update (13 R358). -/

/-- An image is loaded into the inactive slot and checked (13 R358): a sound one is STAGED, with whether it takes the old image's
handover (log 30); one that is not leaves nothing STAGED. Arguments: package, address, length, and 1 where its SVN and handover
versions are in order. -/
def execFirmwareImageStage (s : State) : Out :=
  let (p, a, n) := (s.arg 0, s.arg 1, s.arg 2)
  let (bs, s) := s.rootRead p a n
  let ok := s.rootOk a n && s.arg 3 = 1 && Config.signatureValid p bs
  let (h, s) := s.choose 2
  .next (s.modPkg p (fun k => { k with fw := { k.fw with spare := bs, staged := ok, stagedHand := h == 1 } }))

/-- Every queue of a package is at an entry boundary. -/
def Package.atBoundary (p : Package) : Bool := p.queues.values.all (fun q => q.busy == .idle)

/-- GO (13 R358): with nothing STAGED it sets UPDFAIL; else the queues come to an entry boundary, and then the old image writes the
handover structure, of which the model holds the first dword, its version, a free value (log 30). Arguments: package. -/
def execLiveUpdate (s : State) : Out :=
  let p := s.arg 0
  let k := s.pkg p
  if !k.fw.staged then .next (s.modPkg p (fun k => { k with fw := { k.fw with updFail := true } }))
  else
    match k.fw.update with
    | .handed _ => .next s
    | _ =>
      let u := if k.atBoundary then Update.handed s.clock else .quiescing
      let (v, s) := s.draw 64
      let s := s.modPkg p (fun k => { k with fw := { k.fw with update := u, handover := if k.atBoundary then some v else k.fw.handover } })
      .next (if k.atBoundary && !k.fw.stagedHand then s.dueOne .liveUpdateRollback [p] else s)

/-- Control returns to the old image (13 R358): its version was not accepted, or no heartbeat came within 5 ms. Arguments:
package. -/
def execLiveUpdateRollback (s : State) : Out :=
  let p := s.arg 0
  let k := s.pkg p
  match k.fw.update with
  | .handed t =>
    if k.fw.stagedHand && s.clock < t + 5000 * Config.cyclesPerMicro then .next s
    else
      let s := s.modPkg p (fun k => { k with fw := { k.fw with update := .none_, rollBk := true, updFail := true } })
      .next (s.queuesOn p)
  | _ => .next s

/-! Power and cooling (15 R391, R392). -/

/-- The next cluster of a die leaves reset: 272 of them (15 R391; log 3). Arguments: die. -/
def execClusterResetRelease (s : State) : Out :=
  let d := s.arg 0
  let n := (s.die d).released
  if 272 ≤ n then .next s
  else
    let s := s.modDie d (fun x => { x with released := n + 1 })
    .next (if n + 1 < 272 then s.dueOne .clusterResetRelease [d] else s)

/-- A matrix engine begins its first step, or raises its rate by one quarter, up to its die's step; it holds each from then on (15
R391, R392; logs 3, 87). Arguments: cluster. -/
def execMatrixRampStep (s : State) : Out :=
  let k := s.arg 0
  let top := (s.die (k / 256)).throttle
  .next (s.modEngine k (fun e =>
    { e with ramp := if e.rampAt ≠ 0 ∧ e.ramp < min 4 top then e.ramp + 1 else e.ramp, rampAt := max 1 s.clock }))

/-- 100 µs without a K-step: an engine ramps again (15 R391). Arguments: cluster. -/
def execMatrixIdleTimeout (s : State) : Out :=
  let k := s.arg 0
  .next (s.modEngine k (fun e => if e.lastStep + 100 * Config.cyclesPerMicro ≤ s.clock then { e with ramp := 1, rampAt := 0 } else e))

/-- A die's engines go down or up one step (15 R392). Arguments: die, its hottest sensor in °C, the package's input power in
watts. -/
def execThermalThrottleStep (s : State) : Out :=
  let (d, temp, power) := (s.arg 0, s.arg 1, s.arg 2)
  let f (n : Nat) : Nat :=
    if 100 ≤ temp ∨ 3200 < power then max 1 (n - 1) else if temp < 95 ∧ power < 3000 then min 4 (n + 1) else n
  let t := f (s.die d).throttle
  let s := s.modDie d (fun x => { x with throttle := t })
  .next { s with clusters := s.clusters.mapVal (fun k c =>
    if k / 256 = d then { c with engine := { c.engine with ramp := min c.engine.ramp t } } else c) }

/-- A fatal error: it is reported, and the package is held in reset (15 R392). Arguments: package. -/
def execThermalFatal (s : State) : Out :=
  let p := s.arg 0
  let s := [2 * p, 2 * p + 1].foldl State.resetDie s
  .next { s.modPkg p (fun k => { k with halted := true }) with notices := s.notices ++ [.fatal p] }

/-- The host resets the PCIe link of a package held in reset, which starts as at power-on (15 R392). Arguments: package. -/
def execPcieLinkReset (s : State) : Out :=
  let p := s.arg 0
  .next (if (s.pkg p).halted then (s.resetPackage p).nextTurns 0 else s)

end Sys2Proof.Machine
end

