-- ==== Sys2Proof/Machine/Mailbox.lean ====
section
/-! DEFINITION. The commands of the control mailbox (15 R379 to R389, R398 to R400). -/

namespace Sys2Proof.Machine

/-! Running a command. -/

/-- The RESULT codes (15 R379). -/
inductive Res where
  | ok | noctx | state | arg | refused
  deriving DecidableEq, Repr

/-- The code of a RESULT. -/
def Res.num : Res → Nat
  | .ok => 0
  | .noctx => 1
  | .state => 2
  | .arg => 3
  | .refused => 4

/-- An argument register. -/
def State.ccArg (s : State) (pkg i : Nat) : Nat := ((s.pkg pkg).mailbox.arg.get (Fin.ofNat 8 i)).toNat

/-- An argument of the command in progress, as it stood when CCGO was written. -/
def State.cc (s : State) (pkg i : Nat) : Nat := ((s.pkg pkg).mailbox.held.get (Fin.ofNat 8 i)).toNat

/-- Every argument from CCARG1 up lies below its bound; one that a command does not name has the bound 1 (15 R380). -/
def State.argsIn (s : State) (pkg : Nat) (bounds : List Nat) : Bool :=
  (List.range 7).all (fun i => decide (s.cc pkg (i + 1) < bounds.getD i 1))

/-- A context id, and any dword. -/
def ctxBound : Nat := 2 ^ 20
def anyWord : Nat := 2 ^ 64

/-- A command's step: its code must be the one held while BUSY; reserved bits give ARG first (log 45), then `f` answers with a
RESULT, or with the state whose completion is still to come. -/
def State.commandRun (s : State) (code : Nat) (applies : State → Nat → Bool) (bounds : List Nat)
    (f : State → Nat → Nat → State × Option Res) : Out :=
  let p := s.arg 0
  if !(s.pkg p).mailbox.busy || s.cc p 0 % 256 ≠ code || !applies s p then .next s
  else if s.cc p 0 / 256 ≠ 0 || !s.argsIn p bounds then .next (s.mailboxDone p Res.arg.num)
  else
    match f s p (s.cc p 1) with
    | (t, some .ok) => .next (t.mailboxDone p 0)
    | (_, some r) => .next (s.mailboxDone p r.num)
    | (t, none) => .next t

/-- A command with one form. -/
def State.command (s : State) (code : Nat) (bounds : List Nat) (f : State → Nat → Nat → State × Option Res) : Out :=
  s.commandRun code (fun _ _ => true) bounds f

/-- A command on a context that must exist, in one of some states (15 R380). -/
def onCtx (ok : Ctx → Bool) (f : State → Nat → Nat → State × Option Res) (s : State) (p ctx : Nat) : State × Option Res :=
  if ctx = 0 || (s.ctx ctx).st = .free then (s, some .noctx)
  else if !ok (s.ctx ctx) then (s, some .state)
  else f s p ctx

/-- A context in any state. -/
def anyState (_ : Ctx) : Bool := true

/-- SAVED or RUNNING. -/
def isLive (c : Ctx) : Bool := c.st == .saved || c.st == .running

/-- The command that names a context without acting on one: the root's id, or one that exists (log 45). -/
def named (f : State → Nat → Nat → State × Option Res) (s : State) (p ctx : Nat) : State × Option Res :=
  if ctx ≠ 0 && (s.ctx ctx).st = .free then (s, some .noctx) else f s p ctx

/-- The capability in sixteen bytes, tagged as the device writes it (09 R235). -/
def seedCap (bs : List Byte) : Cap := ⟨BitVec.ofNat 64 (leNat (bs.take 8)), BitVec.ofNat 64 (leNat ((bs.drop 8).take 8)), true⟩

/-! Contexts (01 R8, R9; 15 R380, R381, R398). -/

/-- Contexts homed on a package that are not FREE. -/
def State.homed (s : State) (p : Nat) : Nat := (s.ctxs.entries.filter (fun e => e.2.home == p && e.2.st != .free)).length

/-- CREATE (01 R8, R24). Arguments: package. -/
def execCreate (s : State) : Out :=
  s.command 0x01 [ctxBound, anyWord, 32] (fun s p ctx =>
    let n := s.cc p 3
    if 16 < n || ctx = 0 || ctx = 0xFFFFF || !Config.ctxAssigned p ctx || !s.rootOk (s.cc p 2) (16 * n) then (s, some .arg)
    else if (s.ctx ctx).st ≠ .free then (s, some .state)
    else if Config.contextLimit ≤ s.homed p then (s, some .refused)
    else
      let (bs, s) := s.rootRead p (s.cc p 2) (16 * n)
      let seeds := (List.range n).map (fun i => seedCap (bs.drop (16 * i)))
      ({ s with ctxs := s.ctxs.set ctx { Ctx.reset with st := .saved, home := p, seeds := seeds } }, some .ok))

/-- RESET (15 R381). Arguments: package. -/
def execReset (s : State) : Out :=
  s.command 0x02 [ctxBound] (onCtx isLive (fun s _ ctx => ((s.enterReset ctx).nextTurns 0, some .ok)))

/-- A context as REINIT leaves it (15 R398). -/
def Ctx.fresh (c : Ctx) : Ctx :=
  { Ctx.reset with
    st := .saved, home := c.home, seeds := c.seeds, frozen := c.frozen, tracks := c.tracks, dies := c.dies, lastDies := c.lastDies,
    order := c.order, slice := c.slice, cap := c.cap, nextSlice := c.nextSlice, nextCap := c.nextCap, lofts := c.lofts,
    attic := c.attic, policy := c.policy, timeOff := c.timeOff, counts := c.counts }

/-- The first image of a context written in the areas it has (15 R398). -/
def State.firstImage (s : State) (ctx : Nat) : State := s.writeImages ctx (s.workCores ctx)

/-- REINIT (15 R398): the timelines stay allocated, their GVT at the key (0, 0, 0) of 19 R393, and the areas hold a new image.
Arguments: package. -/
def execReinit (s : State) : Out :=
  s.command 0x03 [ctxBound] (onCtx (fun c => c.st == .reset) (fun s _ ctx =>
    (((s.modCtx ctx Ctx.fresh).firstImage ctx).nextTurns 0, some .ok)))

/-- DESTROY (01 R9; 02 R64): its queues, and what waits of it, go with it (log 45). Arguments: package. -/
def execDestroy (s : State) : Out :=
  s.command 0x04 [ctxBound] (onCtx (fun c => c.st == .saved || c.st == .reset) (fun s _ ctx =>
    ((s.dropWork ctx).retire ctx, some .ok)))

/-- The frozen marks of a context set (02 R56). -/
def State.setFrozen (s : State) (ctx : Nat) (b : Bool) : State :=
  let s := { s with pkgs := s.pkgs.mapVal (fun _ p =>
    { p with cellar := p.cellar.mapVal (fun _ n => if n.ctx = ctx then { n with frozen := b } else n) }) }
  s.modCtx ctx (fun c => { c with frozen := b })

/-- FREEZE (02 R56). Arguments: package. -/
def execFreeze (s : State) : Out :=
  s.command 0x05 [ctxBound] (onCtx anyState (fun s _ ctx => (s.setFrozen ctx true, some .ok)))

/-- UNFREEZE (02 R56). Arguments: package. -/
def execUnfreeze (s : State) : Out :=
  s.command 0x06 [ctxBound] (onCtx anyState (fun s _ ctx => (s.setFrozen ctx false, some .ok)))

/-! Keys, tracking, timelines (03 R76, R81; 07 R171). -/

/-- A key slot changed, and the slots that wait on a line under it woken (04 R107). -/
def State.modKey (s : State) (p k : Nat) (f : KeySlot → KeySlot) : State :=
  (s.modPkg p (fun x => { x with keys := x.keys.modify k KeySlot.reset f })).wakeKeys p (fun i => i == k)

/-- KEYLOAD (03 R76): a load that would pass generation 0xFFFF is refused and changes nothing (15 R379), so a slot that is still
LOADED stays so (log 88). Arguments: package. -/
def execKeyload (s : State) : Out :=
  s.command 0x07 [ctxBound, 4096, anyWord] (onCtx anyState (fun s p ctx =>
    let k := s.cc p 2
    if k = 0 || !s.rootOk (s.cc p 3) 64 then (s, some .arg)
    else if (s.keySlot p k).gen = 0xFFFF then (s, some .refused)
    else
      let a := s.cc p 3
      let (bs, s) := s.rootRead p a 64
      let s := s.modKey p k (fun x => ⟨true, bs, ctx, x.gen + 1⟩)
      (s.rootWrite p a (List.replicate 64 0), some .ok)))

/-- KEYCLEAR (15 R380). Arguments: package. -/
def execKeyclear (s : State) : Out :=
  s.command 0x08 [ctxBound, 4096] (onCtx anyState (fun s p _ =>
    if s.cc p 2 = 0 then (s, some .arg) else (s.modKey p (s.cc p 2) (fun x => { x with loaded := false, key := [] }), some .ok)))

/-- A descriptor of a tracked range, four dwords: space, first page, pages, bitmap (log 46). -/
def trackOf (d : List Nat) : Track := ⟨d.getD 0 0, d.getD 1 0, d.getD 2 0, d.getD 3 0⟩

/-- A range that 03 R81 admits: GLOBAL or HOSTWIN, whole groups of pages, and a bitmap in HBM frames of a package of the pod. A
range that is not, one of no page with it, answers the command with ARG (log 66). -/
def State.trackOk (s : State) (t : Track) : Bool :=
  (t.space == 0 || t.space == 3) && t.vpn % 32 == 0 && decide (t.vpn < 2 ^ 45) && t.pages % 32 == 0 && decide (1 ≤ t.pages) &&
    decide (t.pages ≤ 2 ^ 32) && t.bitmap % 8 == 0 && decide (t.bitmap < 2 ^ 52) && (s.pkgs.get? (pkgOfAddr t.bitmap)).isSome &&
    decide (t.bitmap % 2 ^ 44 + t.pages / 4 ≤ Config.cellarFrame * 4096)

/-- The bitmaps of ranges with every D set and every A clear (03 R81). -/
def State.fillBitmaps (s : State) (p : Nat) (l : List Track) : State :=
  l.foldl (fun s t => s.rootWrite p t.bitmap (List.replicate (t.pages / 4) 0xAA)) s

/-- TRACK (03 R81): disabling ends at once; enabling completes after the shootdown of cached dirty state. Arguments:
package. -/
def execTrack (s : State) : Out :=
  s.command 0x09 [ctxBound, anyWord, 16] (onCtx anyState (fun s p ctx =>
    let n := s.cc p 3
    if 8 < n || !s.rootOk (s.cc p 2) (32 * n) then (s, some .arg)
    else if n = 0 then (s.modCtx ctx (fun c => { c with tracks := [] }), some .ok)
    else
      let (bs, t) := s.rootRead p (s.cc p 2) (32 * n)
      let l := (List.range n).map (fun i => trackOf (dwordsOf 4 (bs.drop (32 * i))))
      if !l.all s.trackOk then (s, some .arg)
      else (((t.fillBitmaps p l).modCtx ctx (fun c => { c with tracks := l })).dueOne .trackEnableComplete [p], none)))

/-- The dirty state that TLBs cache for a context removed. -/
def State.dropAllDirty (s : State) (ctx : Nat) : State :=
  let clear (e : TlbEntry) : TlbEntry := if e.ctx = ctx then { e with dirty := false } else e
  { s with cores := s.cores.mapVal (fun _ c => { c with rangeTlb := c.rangeTlb.map clear, pageTlb := c.pageTlb.map clear })
           clusters := s.clusters.mapVal (fun _ c => { c with tlb2 := c.tlb2.map clear }) }

/-- Enabling completes once every cached dirty state of the context is gone (03 R81). Arguments: package. -/
def execTrackEnableComplete (s : State) : Out :=
  let p := s.arg 0
  if (s.pkg p).mailbox.busy && s.cc p 0 == 0x09 && s.cc p 3 != 0 && !(s.ctx (s.cc p 1)).tracks.isEmpty then
    .next ((s.dropAllDirty (s.cc p 1)).mailboxDone p 0)
  else .next s

/-- TIMELINE with bit 8 of CCARG2: it allocates an id, whose GVT is (0, 0, 0) in every cluster, live or saved (07 R171; 19 R393).
Arguments: package. -/
def execTimelineAllocate (s : State) : Out :=
  s.commandRun 0x0A (fun s p => bitsOf (s.cc p 2) 8 1 == 1) [ctxBound, 512] (onCtx anyState (fun s p ctx =>
    let id := s.cc p 2 % 256
    match s.timelines.get? id with
    | some c => (s, some (if c = ctx then .ok else .refused))
    | none =>
      let forget (k : Cluster) : Cluster := { k with gvt := k.gvt.erase id }
      let saved (c : Ctx) : Ctx := { c with image := { c.image with clusters := c.image.clusters.mapVal (fun _ k => forget k) } }
      ({ s with timelines := s.timelines.set id ctx, announced := s.announced.erase id,
                clusters := s.clusters.mapVal (fun _ k => forget k), ctxs := s.ctxs.mapVal (fun _ c => saved c),
                agenda := s.agenda.filter (fun d => !(d.step == .gvtAdopt && d.args.getD 1 0 == id)) }, some .ok)))

/-- TIMELINE with bit 8 of CCARG2 clear: it frees an id. Arguments: package. -/
def execTimelineFree (s : State) : Out :=
  s.commandRun 0x0A (fun s p => bitsOf (s.cc p 2) 8 1 == 0) [ctxBound, 512] (onCtx anyState (fun s p ctx =>
    let id := s.cc p 2 % 256
    match s.timelines.get? id with
    | some c => if c = ctx then ({ s with timelines := s.timelines.erase id }, some .ok) else (s, some .refused)
    | none => (s, some .ok)))

/-! Partitions, areas, queues, policies (13 R345, R350, R354; 14 R371, R375, R377). -/

/-- The dies of a bitmap. -/
def bitmapDies (bs : List Byte) : List Nat := (List.range 512).filter (fun i => bitsOf (leNat (bs.take 64)) i 1 == 1)

/-- The order of the next PARTITION command. -/
def State.nextOrder (s : State) : Nat := s.ctxs.values.foldl (fun m c => max m (c.order + 1)) 1

/-- PARTITION (13 R350; log 37). Arguments: package. -/
def execPartition (s : State) : Out :=
  s.command 0x0B [ctxBound, anyWord, 2 ^ 24, 2 ^ 24] (onCtx anyState (fun s p ctx =>
    let (bs, t) := s.rootRead p (s.cc p 2) 64
    let dies := bitmapDies bs
    let c := s.ctx ctx
    let slice := s.cc p 3
    let cap := s.cc p 4
    let len := if slice = 0 then (if c.nextSlice = 0 then c.slice else c.nextSlice) else slice
    if !s.rootOk (s.cc p 2) 64 || (slice ≠ 0 && (slice < 100 || 10000000 < slice)) || (cap ≠ 0 && cap < len) || dies.any (fun d => (s.pkgs.get? (d / 2)).isNone) then
      (s, some .arg)
    else if !isLive c then (s, some .state)
    else if dies.isEmpty then (t.modCtx ctx (fun c => { c with order := 0 }), some .ok)
    else if (c.st = .saved && c.neverIn) || dies == c.lastDies then
      let n := t.nextOrder
      let t := t.modCtx ctx (fun c => { c with
        dies := dies, lastDies := dies, order := n, nextSlice := len,
        nextCap := if cap ≠ 0 then cap else max len (if c.nextCap = 0 then c.cap else c.nextCap) })
      (t.dueOne .switchIn [ctx], some .ok)
    else (s, some .state)))

/-- LOFT (14 R371): an area named for a context that has never been switched in takes its first image (15 R398; log 40).
Arguments: package. -/
def execLoft (s : State) : Out :=
  s.command 0x0C [ctxBound, 256, anyWord, anyWord] (onCtx anyState (fun s p ctx =>
    let (k, a) := (s.cc p 2, (s.cc p 3, s.cc p 4))
    if !s.rootOk a.1 a.2 then (s, some .arg) else
    let s := s.modCtx ctx (fun c => { c with lofts := c.lofts.set k a })
    (if (s.ctx ctx).st = .saved && (s.ctx ctx).neverIn then s.writeImage ctx k a (s.workCores ctx) else s, some .ok)))

/-- ATTIC (14 R375): the Attic is EMPTY. Arguments: package. -/
def execAttic (s : State) : Out :=
  s.command 0x0D [ctxBound, 1, anyWord, anyWord] (onCtx anyState (fun s p ctx =>
    if !s.rootOk (s.cc p 3) (max 64 (s.cc p 4)) then (s, some .arg)
    else (s.setAttic ctx ⟨s.cc p 3, s.cc p 4, 0, false, false, 0, 0⟩, some .ok)))

/-- ATTICREARM (14 R377). Arguments: package. -/
def execAtticrearm (s : State) : Out :=
  s.command 0x0E [ctxBound] (onCtx (fun c => c.attic.isSome) (fun s _ ctx =>
    match (s.ctx ctx).attic with
    | some a => (s.setAttic ctx ⟨a.addr, a.size, 0, false, false, 0, 0⟩, some .ok)
    | none => (s, some .state)))

/-- QCREATE (13 R345, R346): a ring of 2^k entries for k from 6 to 16. Arguments: package. -/
def execQcreate (s : State) : Out :=
  s.command 0x0F [ctxBound, 4096, anyWord, 32] (onCtx isLive (fun s p ctx =>
    let q := p * 4096 + s.cc p 2
    let k := s.cc p 4
    if k < 6 || 16 < k || !s.rootOk (s.cc p 3) 16 then (s, some .arg)
    else if (s.hq q).state ≠ 0 then (s, some .state)
    else
      let (bs, s) := s.rootRead p (s.cc p 3) 16
      (s.modHq q (fun _ => { HostQueue.reset with state := 1, ctx := ctx, base := seedCap bs, size := 2 ^ k }), some .ok)))

/-- QDESTROY (13 R349): it waits while a live update is in progress. Arguments: package. -/
def execQdestroy (s : State) : Out :=
  s.command 0x10 [ctxBound, 4096] (onCtx anyState (fun s p ctx =>
    let q := p * 4096 + s.cc p 2
    if (s.hq q).state ≠ 0 && (s.hq q).ctx ≠ ctx then (s, some .arg)
    else if (s.hq q).state ≠ 1 then (s, some .state)
    else if !s.fwBegins p then (s, none)
    else (s.destroyQueue q, some .ok)))

/-- POLICY (13 R353, R354): a program that is not accepted leaves the previous one. Arguments: package. -/
def execPolicy (s : State) : Out :=
  s.command 0x11 [ctxBound, anyWord, 256] (onCtx anyState (fun s p ctx =>
    let n := s.cc p 3
    let (bs, t) := s.rootRead p (s.cc p 2) (4 * n)
    let ws : List (BitVec 32) := (List.range n).map (fun i => BitVec.ofNat 32 (leNat ((bs.drop (4 * i)).take 4)))
    if !s.rootOk (s.cc p 2) (4 * n) then (s, some .arg)
    else if policyOk ws then (t.modCtx ctx (fun c => { c with policy := ws }), some .ok) else (s, some .refused)))

/-! Time, sampling, debug (15 R384, R386, R387). -/

/-- TIMEOFF (15 R384). Arguments: package. -/
def execTimeoff (s : State) : Out :=
  s.command 0x12 [ctxBound, anyWord] (onCtx anyState (fun s p ctx =>
    (s.modCtx ctx (fun c => { c with timeOff := BitVec.ofNat 64 (s.cc p 2) }), some .ok)))

/-- SAMPLE (15 R386): it is kept until its time comes. Arguments: package. -/
def execSample (s : State) : Out :=
  s.command 0x13 [ctxBound, anyWord, anyWord, anyWord] (named (fun s p _ =>
    let m : Sample := ⟨s.cc p 2, s.cc p 3, s.cc p 4⟩
    if !s.rootOk m.buf m.size then (s, some .arg)
    else (s.modPkg p (fun k => { k with samples := k.samples ++ [m] }), some .ok)))

/-- The state code of a slot in a sample (15 R386). -/
def Slot.sampleCode (x : Slot) : Nat :=
  match x.st with
  | .empty => 0
  | .halted _ => 5
  | .follower _ => 4
  | .stopped _ => 6
  | .ready => if x.tl = 0 then 1 else 6
  | .stalled _ => if x.tl = 0 then 2 else 6
  | .parked _ => if x.tl = 0 then 3 else 6

/-- A core's entry of a sample (15 R386). -/
def Core.sampleEntry (c : Core) (core : Nat) : List Byte :=
  let l := c.slots.toList
  let live := l.filter (fun x => x.st != .empty)
  let codes := l.zipIdx.foldl (fun n x => n + x.1.sampleCode * 2 ^ (40 + 3 * x.2)) 0
  leBytes 8 (core % 2 ^ 20 + c.ctx % 2 ^ 20 * 2 ^ 20 + codes + live.length * 2 ^ 52) ++ live.flatMap (fun x => dwBytes (wordOfInt x.pc))

/-- Entries as many as fit. -/
def fitEntries : Nat → List (List Byte) → List (List Byte)
  | _, [] => []
  | room, e :: t => if e.length ≤ room then e :: fitEntries (room - e.length) t else []

/-- A named pod time has come: the record of every core that is not EMPTY is written (15 R386; log 44). Arguments: package. -/
def execSampleLatch (s : State) : Out :=
  let p := s.arg 0
  match (s.pkg p).samples.find? (fun m => decide (m.time ≤ s.now)) with
  | none => .next s
  | some m =>
    let s := s.modPkg p (fun k => { k with samples := k.samples.erase m })
    let all := (s.cores.entries.filter (fun e => decide (e.1 < 2 ^ 20) && e.2.slots.toList.any (fun x => x.st != .empty))).map
      (fun e => e.2.sampleEntry e.1)
    let l := fitEntries (m.size - 64) all
    let body := l.flatMap (fun e => e)
    let head := leBytes 8 0x53414D5000000001 ++ leBytes 8 m.time ++ leBytes 8 l.length ++ leBytes 40 (64 + body.length)
    .next (if m.size < 64 then s else s.rootWrite p m.buf (head ++ body))

/-- DBGCTL written to a core (15 R387): BRKEN and TRACE are set as given, then HALT, RESUME or STEP acts. -/
def State.dbgctl (s : State) (core v buf : Nat) : State :=
  let on := bitsOf v 4 1 == 1
  let s := s.modCore core (fun c => { c with dbg := { c.dbg with
    brken := bitsOf v 3 1 == 1, trace := on, buffer := if on then buf else c.dbg.buffer, fill := if on then 0 else c.dbg.fill } })
  if bitsOf v 0 1 = 1 then s.haltCore core
  else if bitsOf v 1 1 = 1 then s.resumeCore core
  else if bitsOf v 2 1 = 1 then (s.resumeCore core).modCore core (fun c => { c with dbg := { c.dbg with stepping := true } })
  else s

/-- DEBUG where the lowest bit set among HALT, RESUME, STEP, TRACE is a given one, or none of them is. -/
def State.debug (s : State) (bit : Nat) : Out :=
  let pick (s : State) (p : Nat) : Bool :=
    let v := s.cc p 3
    let order := [0, 1, 2, 4]
    match order.find? (fun i => bitsOf v i 1 == 1) with
    | some i => i == bit
    | none => bit == 3
  s.commandRun 0x14 pick [ctxBound, 2 ^ 20, 32, anyWord] (named (fun s p _ =>
    let core := s.cc p 2
    if !s.coreExists core then (s, some .arg) else (s.dbgctl core (s.cc p 3) (s.cc p 4), some .ok)))

/-- DEBUG with HALT (15 R387). Arguments: package. -/
def execDbgHalt (s : State) : Out := s.debug 0

/-- DEBUG with RESUME (15 R387). Arguments: package. -/
def execDbgResume (s : State) : Out := s.debug 1

/-- DEBUG with STEP (15 R387). Arguments: package. -/
def execDbgStep (s : State) : Out := s.debug 2

/-- DEBUG with BRKEN alone, or with no bit set (15 R387). Arguments: package. -/
def execDbgBrken (s : State) : Out := s.debug 3

/-- DEBUG with TRACE (15 R387). Arguments: package. -/
def execDbgTrace (s : State) : Out := s.debug 4

/-! Unlock (15 R388, R389). -/

/-- The code of a lifecycle state in a token (log 47). -/
def Lifecycle.code : Lifecycle → Nat
  | .manufacture => 0
  | .production => 1
  | .debugOpen => 2
  | .returned => 3

/-- The sixty-four bytes of fields that a token must hold (15 R389). -/
def Package.tokenFields (k : Package) : List Byte :=
  leBytes 8 k.cfg.device.toNat ++ leBytes 4 k.life.code ++ leBytes 16 k.cfg.nonce.toNat ++ List.replicate 36 0

/-- A state that UNLOCK leaves for DEBUGOPEN (15 R388). -/
def Lifecycle.unlockable (l : Lifecycle) : Bool := l == .production || l == .returned

/-- UNLOCK (15 R388, R389): a token with other fields or a bad signature is refused, as is any token in a state that does not lead to
DEBUGOPEN. Arguments: package. -/
def execUnlock (s : State) : Out :=
  s.command 0x15 [ctxBound, anyWord] (named (fun s p _ =>
    let (bs, t) := s.rootRead p (s.cc p 2) (64 + 3309)
    let k := s.pkg p
    if !s.rootOk (s.cc p 2) (64 + 3309) then (s, some .arg)
    else if !k.life.unlockable || bs.take 64 ≠ k.tokenFields || !Config.signatureValid 2 bs then (s, some .refused)
    else
      let live := (t.ctxs.entries.filter (fun e => isLive e.2)).map (fun e => e.1)
      let t := live.foldl State.enterReset t
      let t := (t.modPkg p (fun k => { k with keys := k.keys.mapVal (fun _ x => { x with loaded := false, key := [] }),
                                               unlocks := k.unlocks + 1, life := .debugOpen })).wakeKeys p (fun i => i != 0)
      (t, some .ok)))

/-! The root's requests and the handler table (15 R380, R399, R400). -/

/-- A request unit that the root may send (15 R400): its fields and no others, SCTX and SSP 0, ORIG and JOB zero. One of no page is
sent like any other, and its engine answers it as it answers a core's (log 89). -/
def rootUnitOk (u : Vector Word 5) : Bool :=
  let d (i : Nat) : Nat := (u.get (Fin.ofNat 5 i)).toNat
  decide (1 ≤ d 0 % 16) && decide (d 0 % 16 ≤ 3) && bitsOf (d 0) 5 1 == 0 && decide (d 0 < 128) && decide (d 1 < 2 ^ 45) &&
    decide (d 2 < 2 ^ 45) && decide (d 3 < 2 ^ 52) && decide (d 4 < 2 ^ 24)

/-- SPACEREQ (15 R400): it completes with the engine's answer. Arguments: package. -/
def execSpacereq (s : State) : Out :=
  s.command 0x16 [1, anyWord, anyWord, anyWord, anyWord, anyWord, anyWord] (fun s p _ =>
    let u : Vector Word 5 := Vector.ofFn (fun i => BitVec.ofNat 64 (s.cc p (2 + i.val)))
    if !rootUnitOk u then (s, some .arg) else (s.request p (.space u (.mailbox p)), none))

/-- NODEREAD (02 R38; 15 R380). Arguments: package. -/
def execNoderead (s : State) : Out :=
  s.command 0x17 [1, 2 ^ 32, anyWord, anyWord, anyWord, anyWord, anyWord] (fun s p _ =>
    let id := s.cc p 2
    if 0x3FFFFFF < id then (s, some .arg)
    else
      let l := nodeDwords (s.pkg p).cellar id
      ((List.range 5).foldl (fun s i => s.setArg p (3 + i) (BitVec.ofNat 64 (l.getD i 0))) s, some .ok))

/-- HTWRITE of an entry (15 R399): a tagged granule, then an untagged one. Arguments: package. -/
def execHtwrite (s : State) : Out :=
  s.commandRun 0x18 (fun s p => bitsOf (s.cc p 2) 10 1 == 0) [ctxBound, 2048, anyWord] (onCtx isLive (fun s p ctx =>
    let idx := s.cc p 2
    let (bs, t) := s.rootRead p (s.cc p 3) 32
    if !s.rootOk (s.cc p 3) 32 || 1022 < idx || 1 < leNat ((bs.drop 16).take 8) || leNat (bs.drop 24) ≠ 0 then (s, some .arg)
    else
      let a := (s.ctx ctx).page.htbase.toNat + 32 * idx
      let e := t.podEng (serviceAgent p 0) ctx
      match t.engPlaces e a 0 32 true with
      | .ok [(.mem m k, _)] =>
        let t := t.engTouched e a 0 32 true
        (((t.serviceWrite p 0 m (bs.take 16) (some true) k).serviceWrite p 0 (m + 16) (bs.drop 16) none k), some .ok)
      | .error c => (((t.causeOf c).2.mailboxDone p Res.refused.num), none)
      | _ => (s, some .refused)))

/-- HTWRITE of HTBASE (15 R399). Arguments: package. -/
def execHtwriteBase (s : State) : Out :=
  s.commandRun 0x18 (fun s p => bitsOf (s.cc p 2) 10 1 == 1) [ctxBound, 2048, anyWord] (onCtx isLive (fun s p ctx =>
    let v := BitVec.ofNat 64 (s.cc p 3)
    if v &&& 0x01FFFFFFFFFF8000 ≠ v then (s, some .arg)
    else (s.modCtx ctx (fun c => { c with page := { c.page with htbase := v } }), some .ok)))

/-- A code that no command has (15 R380). Arguments: package. -/
def execMailboxUnassignedCode (s : State) : Out :=
  let p := s.arg 0
  let code := s.cc p 0 % 256
  .next (if (s.pkg p).mailbox.busy && (code == 0 || decide (0x19 ≤ code)) then s.mailboxDone p Res.arg.num else s)

/-- The step of the command that the mailbox holds. -/
def State.commandStep (s : State) (p : Nat) : Instr :=
  match s.cc p 0 % 256 with
  | 0x01 => .create
  | 0x02 => .reset
  | 0x03 => .reinit
  | 0x04 => .destroy
  | 0x05 => .freeze
  | 0x06 => .unfreeze
  | 0x07 => .keyload
  | 0x08 => .keyclear
  | 0x09 => .track
  | 0x0A => if bitsOf (s.cc p 2) 8 1 = 1 then .timelineAllocate else .timelineFree
  | 0x0B => .partition
  | 0x0C => .loft
  | 0x0D => .attic
  | 0x0E => .atticrearm
  | 0x0F => .qcreate
  | 0x10 => .qdestroy
  | 0x11 => .policy
  | 0x12 => .timeoff
  | 0x13 => .sample
  | 0x14 =>
    let v := s.cc p 3
    if bitsOf v 0 1 = 1 then .dbgHalt
    else if bitsOf v 1 1 = 1 then .dbgResume
    else if bitsOf v 2 1 = 1 then .dbgStep
    else if bitsOf v 4 1 = 1 then .dbgTrace
    else .dbgBrken
  | 0x15 => .unlock
  | 0x16 => .spacereq
  | 0x17 => .noderead
  | 0x18 => if bitsOf (s.cc p 2) 10 1 = 1 then .htwriteBase else .htwrite
  | _ => .mailboxUnassignedCode

end Sys2Proof.Machine
end

