-- ==== Sys2Proof/Machine/HostAccess.lean ====
section
/-! DEFINITION. The host's accesses (05 R133, R134; 13 R345, R356; 15 R378, R379), the control page's steps (01 R16; 15 R384,
R385), and attestation (15 R390). -/

namespace Sys2Proof.Machine

/-! The register aperture, BAR0 (15 R378). -/

/-- FWSTAT (13 R356). -/
def Firmware.stat (f : Firmware) : Nat :=
  (if f.cfgRef then 1 else 0) + (if f.updFail then 2 else 0) + (if f.rollBk then 4 else 0) + f.rung % 16 * 256

/-- The step of a rung (13 R357). -/
def rungSteps (p rung : Nat) : List Due :=
  match rung with
  | 1 => [⟨.commandProcessorRestart, [p]⟩]
  | 2 => [⟨.garretReload, [p]⟩]
  | 3 => [⟨.contextPreservingEngineReset, [p]⟩]
  | 4 => [⟨.dieReset, [2 * p]⟩, ⟨.dieReset, [2 * p + 1]⟩]
  | _ => [⟨.packageReset, [p]⟩]

/-- A rung to climb (13 R357): one at or below the rung in progress is ignored; one above 1 ends a live update at once (R358). -/
def State.climb (s : State) (p rung : Nat) : State :=
  if rung = 0 || 5 < rung || rung ≤ (s.pkg p).fw.rung then s
  else ((if 1 < rung then s.abortUpdate p else s).modPkg p (fun k => { k with fw := { k.fw with rung := rung } })).due (rungSteps p rung)

/-- CCGO (15 R379): it starts the command that the arguments hold; a write made while BUSY only sets OVR. -/
def State.ccgo (s : State) (p : Nat) : State :=
  let m := (s.pkg p).mailbox
  if m.busy then s.modPkg p (fun k => { k with mailbox := { k.mailbox with ovr := true } })
  else
    let s := s.modPkg p (fun k => { k with mailbox := { k.mailbox with busy := true, held := k.mailbox.arg } })
    s.dueOne (s.commandStep p) [p]

/-- A write of the aperture: offsets not listed ignore it (13 R345, R356; 15 R379). -/
def State.apertureWrite (s : State) (p off n : Nat) (v : Word) : State :=
  let reg := off / 8 * 8
  if 0x100000 ≤ off ∧ off < 0x100000 + 0x1000 * 4096 then
    if off % 0x1000 = 0 ∧ n = 4 then s.dueOne .tailWrite [p * 4096 + (off - 0x100000) / 0x1000, v.toNat % 2 ^ 32] else s
  else if reg = 0x0008 then
    s.modPkg p (fun k => { k with fw := { k.fw with
      hbAddr := mergeBytes k.fw.hbAddr off n v, hbNext := s.clock + 1000 * Config.cyclesPerMicro } })
  else if off = 0x0010 then s.climb p (v.toNat % 8)
  else if off = 0x0028 then if v.getLsbD 0 then s.dueOne .liveUpdate [p] else s
  else if 0x1000 ≤ reg ∧ reg < 0x1040 then
    let v := mergeBytes ((s.pkg p).mailbox.arg.get (Fin.ofNat 8 ((reg - 0x1000) / 8))) off n v
    s.setArg p ((reg - 0x1000) / 8) (if reg = 0x1000 then v &&& 0xFF else v)
  else if off = 0x1040 then if v.getLsbD 0 then s.ccgo p else s
  else s

/-- A dword of the aperture as read (13 R345, R356; 15 R379). -/
def State.apertureDword (s : State) (p reg : Nat) : Nat :=
  let k := s.pkg p
  if 0x100000 ≤ reg ∧ reg < 0x100000 + 0x1000 * 4096 then
    let h := s.hq (p * 4096 + (reg - 0x100000) / 0x1000)
    if reg % 0x1000 = 8 then h.head
    else if reg % 0x1000 = 16 then h.state % 4 + h.errcnt % 256 * 2 ^ 8 + h.disc % 2 ^ 32 * 2 ^ 16
    else 0
  else if reg = 0x0000 then k.fw.stat
  else if reg = 0x0008 then k.fw.hbAddr.toNat
  else if reg = 0x0018 then freeNodes k.cellar % 2 ^ 27 + min k.eng.queue.length 0xFFFF * 2 ^ 32
  else if reg = 0x0020 then (if k.fw.active then 1 else 0) + (if k.fw.staged then 2 else 0)
  else if 0x1000 ≤ reg ∧ reg < 0x1040 then s.ccArg p ((reg - 0x1000) / 8)
  else if reg = 0x1048 then (if k.mailbox.busy then 1 else 0) + (if k.mailbox.ovr then 2 else 0) + k.mailbox.result % 256 * 256
  else 0

/-! The host's requests (05 R134). -/

/-- The service core that serves a request of the host, by the BAR and the address (05 R133). -/
def hostUnit (bar a : Nat) : Nat := if bar = 2 then serviceUnit a else 0

/-- The bytes of a posted write, by aligned 8 bytes (05 R113); to a host-window frame it is a request to the host, from the die of
its service core (01 R10). -/
def State.hostWrite (s : State) (p unit a : Nat) (bs : List Byte) : State :=
  if isHostFrame (a / 4096) then s.postHost (2 * p + unit / 4) a bs
  else if s.eager then s.serviceWrite p unit a bs none 0
  else (unitParts (bs.length + 1) 8 a bs.length).foldl (fun (s : State) x =>
    s.serviceWrite p unit x.1 ((bs.drop (x.1 - a)).take x.2) none 0) s

/-- The bytes that a read of the host answers with (05 R134; 15 R378): none where the line is poisoned (04 R97); a host-window
frame's bytes and the status of their completion are the host's (01 R10; log 21). -/
def State.hostLoad (s : State) (p unit a n : Nat) : List Byte × State :=
  if isHostFrame (a / 4096) then
    let (v, s) := (s.readHost (2 * p + unit / 4) a n).draw (8 * n)
    let (st, s) := s.choose 2
    if st = 0 then (leBytes n v.toNat, s) else ([], s.tellHost a)
  else if s.poisoned a n then ([], s.tellHost a)
  else s.serviceRead p unit a n

/-- A posted write of the host (05 R134; 15 R378): it performs at its home, in the order its service core received it, a release at
`sys`, under no key (03 R77).
Arguments: package, BAR, address, length, value. -/
def execHostPostedWrite (s : State) : Out :=
  let (p, bar, a, n) := (s.arg 0, s.arg 1, s.arg 2, s.arg 3)
  if (s.pkg p).halted then .next s
  else if bar = 0 then .next (s.apertureWrite p a n (BitVec.ofNat 64 (s.arg 4)))
  else if bar = 2 ∧ s.localBacked p a ∧ s.localBacked p (a + n - 1) then .next
    (s.hostWrite p (hostUnit bar a) (p * 2 ^ 44 + a) (leBytes n (s.arg 4)))
  else .next s

/-- A read of the host (05 R134; 15 R378): the bytes stand in `reply`; one that the device does not support, or of a poisoned
line (04 R97), answers with none. Arguments: package, BAR, address, length. -/
def execHostRead (s : State) : Out :=
  let (p, bar, a, n) := (s.arg 0, s.arg 1, s.arg 2, s.arg 3)
  if (s.pkg p).halted then .next { s with reply := [] }
  else if bar = 0 then .next { s with reply := ((leBytes 8 (s.apertureDword p (a / 8 * 8))).drop (a % 8)).take n }
  else if bar = 2 ∧ s.localBacked p a ∧ s.localBacked p (a + n - 1) then
    let (bs, s) := s.hostLoad p (hostUnit bar a) (p * 2 ^ 44 + a) n
    .next { s with reply := bs }
  else .next { s with reply := [] }

/-! The control page (01 R16; 15 R384, R385). -/

/-- A request for a performance count (15 R384). Arguments: context, value. -/
def execPmreq (s : State) : Out :=
  .next (s.pmRequest (s.arg 0) (s.arg 1 % 16))

/-- A performance count as answered: MACs are counted in 4,096s and HBM bytes in 64s (15 R384). -/
def pmScaled (e : Nat) (n : Word) : Word :=
  if e = 5 then BitVec.ofNat 64 (n.toNat / 4096) else if e = 6 then BitVec.ofNat 64 (n.toNat / 64) else n

/-- The answer arrives in PMVAL (15 R384). Arguments: context. -/
def execPmAnswer (s : State) : Out :=
  let ctx := s.arg 0
  match (s.ctx ctx).page.pmbusy with
  | none => .next s
  | some e => .next (s.modCtx ctx (fun c => { c with page := { c.page with
      pmbusy := none, pmval := pmScaled e (c.counts.get (Fin.ofNat 8 e)) } }))

/-- The latch of a slot set by a narrow read of a low half (15 R385). Arguments: core, slot, value. -/
def execHalfReadLatch (s : State) : Out :=
  .next (s.modSlotAt (s.arg 0) (s.arg 1) (fun x => { x with latch := BitVec.ofNat 32 (s.arg 2) }))

/-- A store to a register of the control page with fields of its own (01 R16). Arguments: core, slot, address, length,
value. -/
def execControlRegisterWrite (s : State) : Out :=
  .next (s.ctrlWrite (s.arg 0) (s.arg 2) (s.arg 3) (BitVec.ofNat 64 (s.arg 4)))

/-! Attestation (15 R390; log 30). -/

/-- What a measurement covers, as a number; 3 and 4 are the images of the active slot and of the other, with the slots' state. -/
def Package.measured (k : Package) (i : Nat) : Nat :=
  match i with
  | 2 => (k.cfg.layout.get 0).toNat + (k.cfg.layout.get 1).toNat * 2 ^ 64 + (k.cfg.role.get 0).toNat * 2 ^ 128 + (k.cfg.role.get 1).toNat * 2 ^ 192
  | 3 => (if k.fw.active then 1 else 0) + 2 * (k.fw.image.length + 2 ^ 64 * leNat k.fw.image)
  | 4 => (if k.fw.staged then 1 else 0) + 2 * (k.fw.spare.length + 2 ^ 64 * leNat k.fw.spare)
  | 5 => k.life.code + 4 * k.unlocks
  | 6 => k.cfg.minSvn
  | _ => 0

/-- The digest of a measurement index, 1 to 6. -/
def Package.measurement (k : Package) (p i : Nat) : List Byte := leBytes 48 (Config.measurement p i (k.measured i)).toNat

/-- Every measurement of a package. -/
def Package.measurements (k : Package) (p : Nat) : List Byte := [1, 2, 3, 4, 5, 6].flatMap (k.measurement p)

/-- An SPDM answer of a kind. -/
def State.spdm (s : State) (kind : Nat) : Out := .next { s with reply := Config.spdmBody kind (s.arg 0) }

/-- GET_VERSION. Arguments: package. -/
def execGetVersion (s : State) : Out := s.spdm 0

/-- GET_CAPABILITIES: no secure sessions. Arguments: package. -/
def execGetCapabilities (s : State) : Out := s.spdm 1

/-- NEGOTIATE_ALGORITHMS: ML-DSA-65 and SHA3-384. Arguments: package. -/
def execNegotiateAlgorithms (s : State) : Out := s.spdm 2

/-- GET_DIGESTS. Arguments: package. -/
def execGetDigests (s : State) : Out := s.spdm 3

/-- GET_CERTIFICATE. Arguments: package. -/
def execGetCertificate (s : State) : Out := s.spdm 4

/-- CHALLENGE: the measurements and the requester's nonce, signed; a part whose fuses hold RETURNED has no identity key, and answers
with none (15 R388). Arguments: package, nonce. -/
def execChallenge (s : State) : Out :=
  let p := s.arg 0
  let msg := leBytes 32 (s.arg 1) ++ (s.pkg p).measurements p
  .next { s with reply := if (s.pkg p).cfg.fused = .returned then [] else msg ++ Config.sign p msg }

/-- GET_MEASUREMENTS of an index, or of all for index 0xFF; an index that is not measured answers with none. Arguments:
package, index. -/
def execGetMeasurements (s : State) : Out :=
  let (p, i) := (s.arg 0, s.arg 1)
  .next { s with reply :=
    if i = 0xFF then (s.pkg p).measurements p else if 1 ≤ i ∧ i ≤ 6 then (s.pkg p).measurement p i else [] }

end Sys2Proof.Machine
end

