-- ==== Sys2Proof/Machine/Integer.lean ====
section
/-! DEFINITION. The integer instructions of the A slot (10 R240, R241), and `anop` (R266). Each reads its sources at the
bundle's issue and writes one general register; none traps on a value (R236). -/

namespace Sys2Proof.Machine

/-- Signed quotient truncated towards zero; by zero all ones; −2^63 / −1 wraps to −2^63 (08 R201). -/
def divWord (a b : Word) : Word := if b = 0 then BitVec.allOnes 64 else wordOfInt (Int.tdiv a.toInt b.toInt)

/-- Signed remainder with the dividend's sign; by zero the dividend (08 R201). -/
def remWord (a b : Word) : Word := if b = 0 then a else wordOfInt (Int.tmod a.toInt b.toInt)

/-- Leading zero bits, 0 to 64 (10 R240). -/
def clzWord (a : Word) : Nat := 64 - bitLen a.toNat

/-- Trailing zero bits of the low n bits, n when they are all zero. -/
def ctzNat : Nat → Nat → Nat
  | 0, _ => 0
  | n + 1, x => if x % 2 = 1 then 0 else ctzNat n (x / 2) + 1

/-- One bits of the low n bits. -/
def popNat : Nat → Nat → Nat
  | 0, _ => 0
  | n + 1, x => x % 2 + popNat n (x / 2)

/-- A register form: g(D) receives f of g(A) and g(B) (10 R240). -/
def intOp (f : Word → Word → Word) (d a b : BitVec 5) (s : State) : Out := .next (s.wrG d (f (s.rdG a) (s.rdG b)))

/-- `anop` (10 R266): no change beyond the issue of its bundle. -/
def execAnop (s : State) : Out := .next s

/-- `add` (10 R240). -/
def execAdd (d a b : BitVec 5) (s : State) : Out := intOp (fun a b => a + b) d a b s

/-- `sub` (10 R240). -/
def execSub (d a b : BitVec 5) (s : State) : Out := intOp (fun a b => a - b) d a b s

/-- `and` (10 R240). -/
def execAnd (d a b : BitVec 5) (s : State) : Out := intOp (fun a b => a &&& b) d a b s

/-- `or` (10 R240). -/
def execOr (d a b : BitVec 5) (s : State) : Out := intOp (fun a b => a ||| b) d a b s

/-- `xor` (10 R240). -/
def execXor (d a b : BitVec 5) (s : State) : Out := intOp (fun a b => a ^^^ b) d a b s

/-- `shl` (10 R240). -/
def execShl (d a b : BitVec 5) (s : State) : Out := intOp (fun a b => a <<< (b.toNat % 64)) d a b s

/-- `shr` (10 R240). -/
def execShr (d a b : BitVec 5) (s : State) : Out := intOp (fun a b => a >>> (b.toNat % 64)) d a b s

/-- `sra` (10 R240). -/
def execSra (d a b : BitVec 5) (s : State) : Out := intOp (fun a b => a.sshiftRight (b.toNat % 64)) d a b s

/-- `slt` (10 R240). -/
def execSlt (d a b : BitVec 5) (s : State) : Out := intOp (fun a b => if a.toInt < b.toInt then 1 else 0) d a b s

/-- `sltn` (10 R240). -/
def execSltn (d a b : BitVec 5) (s : State) : Out := intOp (fun a b => if a.toNat < b.toNat then 1 else 0) d a b s

/-- `min` (10 R240). -/
def execMin (d a b : BitVec 5) (s : State) : Out := intOp (fun a b => if a.toInt < b.toInt then a else b) d a b s

/-- `max` (10 R240). -/
def execMax (d a b : BitVec 5) (s : State) : Out := intOp (fun a b => if a.toInt < b.toInt then b else a) d a b s

/-- `minn` (10 R240). -/
def execMinn (d a b : BitVec 5) (s : State) : Out := intOp (fun a b => if a.toNat < b.toNat then a else b) d a b s

/-- `maxn` (10 R240). -/
def execMaxn (d a b : BitVec 5) (s : State) : Out := intOp (fun a b => if a.toNat < b.toNat then b else a) d a b s

/-- `mul` (10 R240). -/
def execMul (d a b : BitVec 5) (s : State) : Out := intOp (fun a b => a * b) d a b s

/-- `mulh` (10 R240). -/
def execMulh (d a b : BitVec 5) (s : State) : Out := intOp (fun a b => wordOfInt (a.toInt * b.toInt / (2 ^ 64 : Nat))) d a b s

/-- `mulhn` (10 R240). -/
def execMulhn (d a b : BitVec 5) (s : State) : Out := intOp (fun a b => BitVec.ofNat 64 (a.toNat * b.toNat / 2 ^ 64)) d a b s

/-- `div` (10 R240). -/
def execDiv (d a b : BitVec 5) (s : State) : Out := intOp (fun a b => divWord a b) d a b s

/-- `divn` (10 R240). -/
def execDivn (d a b : BitVec 5) (s : State) : Out := intOp (fun a b => if b = 0 then BitVec.allOnes 64 else BitVec.ofNat 64 (a.toNat / b.toNat)) d a b s

/-- `rem` (10 R240). -/
def execRem (d a b : BitVec 5) (s : State) : Out := intOp (fun a b => remWord a b) d a b s

/-- `remn` (10 R240). -/
def execRemn (d a b : BitVec 5) (s : State) : Out := intOp (fun a b => if b = 0 then a else BitVec.ofNat 64 (a.toNat % b.toNat)) d a b s

/-- `clz` (10 R240). -/
def execClz (d a : BitVec 5) (s : State) : Out := .next (s.wrG d (BitVec.ofNat 64 (clzWord (s.rdG a))))

/-- `ctz` (10 R240). -/
def execCtz (d a : BitVec 5) (s : State) : Out := .next (s.wrG d (BitVec.ofNat 64 (ctzNat 64 (s.rdG a).toNat)))

/-- `popc` (10 R240). -/
def execPopc (d a : BitVec 5) (s : State) : Out := .next (s.wrG d (BitVec.ofNat 64 (popNat 64 (s.rdG a).toNat)))

/-- `addi` (10 R241). -/
def execAddi (d a : BitVec 5) (imm : BitVec 16) (s : State) : Out := .next (s.wrG d (s.rdG a + immS imm))

/-- `andi` (10 R241). -/
def execAndi (d a : BitVec 5) (imm : BitVec 16) (s : State) : Out := .next (s.wrG d (s.rdG a &&& immS imm))

/-- `ori` (10 R241). -/
def execOri (d a : BitVec 5) (imm : BitVec 16) (s : State) : Out := .next (s.wrG d (s.rdG a ||| immZ imm))

/-- `xori` (10 R241). -/
def execXori (d a : BitVec 5) (imm : BitVec 16) (s : State) : Out := .next (s.wrG d (s.rdG a ^^^ immZ imm))

/-- `slti` (10 R241). -/
def execSlti (d a : BitVec 5) (imm : BitVec 16) (s : State) : Out := .next (s.wrG d (if (s.rdG a).toInt < (immS imm).toInt then 1 else 0))

/-- `shli` (10 R241). -/
def execShli (d a : BitVec 5) (imm : BitVec 6) (s : State) : Out := .next (s.wrG d (s.rdG a <<< imm.toNat))

/-- `shri` (10 R241). -/
def execShri (d a : BitVec 5) (imm : BitVec 6) (s : State) : Out := .next (s.wrG d (s.rdG a >>> imm.toNat))

/-- `srai` (10 R241). -/
def execSrai (d a : BitVec 5) (imm : BitVec 6) (s : State) : Out := .next (s.wrG d ((s.rdG a).sshiftRight imm.toNat))

end Sys2Proof.Machine
end

