-- ==== Sys2Proof/Machine/LoadStore.lean ====
section
/-! DEFINITION. The memory instructions (11 R276 to R283, R299): scalar, vector and capability loads and stores, atomics,
`waita`, fences and the deferred store. -/

namespace Sys2Proof.Machine

/-- What a relaxed access touches before it is presented (07 R180, R181). -/
def State.touch (s : State) (p : Place) (n : Nat) (w : Bool) (xval2 : Word) : Except State State :=
  match p with
  | .mem a _ _ =>
    (match s.ownLocal a with
     | some off => s.touchLocal off n w xval2
     | none => s.touchGlobal a n w xval2)
  | .host _ _ => .ok s
  | .ctrl _ => .ok s
  | .qwin _ => .ok s

/-- The address and KEYID of a place of memory. -/
def Place.addr : Place → Nat
  | .mem a _ _ => a
  | .host a _ => a
  | .ctrl _ => 0
  | .qwin _ => 0

/-- The KEYID of a place. -/
def Place.keyid : Place → Nat
  | .mem _ k _ => k
  | .host _ _ => 0
  | .ctrl _ => 0
  | .qwin _ => 0

/-- The LC permission of a place (03 R74). -/
def Place.lc : Place → Bool
  | .mem _ _ lc => lc
  | .host _ _ => false
  | .ctrl _ => false
  | .qwin _ => false

/-! Scalar loads and stores. -/

/-- An acquire of the status word of a job that has completed joins what its completion carries (05 R126, R129). -/
def State.acquireStatus (s : State) (p : Place) (acq : Option Nat) : State :=
  match p, acq with
  | .ctrl off, some _ =>
    if 0x80000 ≤ off ∧ off < 0x81000 ∧ off / 8 % 2 = 1 then
      let j := s.myCore.job ((off - 0x80000) / 16)
      if j.st = .done ∨ j.st = .faulted then s.joinView s.myAgent j.view else s
    else s
  | _, _ => s

/-- A scalar load of n bytes into a general register (11 R276, R277). -/
def State.loadScalar (s : State) (g : BitVec 5) (cap : BitVec 4) (index : Word) (shift n : Nat) (d : Int) (signed : Bool)
    (acq : Option Nat) : State :=
  let c := s.rdC cap
  let ea := effAddr c index shift d
  match s.access c cap.toNat .load ea n n with
  | .error e => e
  | .ok p =>
    if s.relaxed p then
      joinEx ((s.touch p n false (descr .load n cap.toNat)).map (fun s =>
        s.present .load [⟨p.addr, n, [], none, 0, p.keyid⟩] (some (.g g)) (8 * n) signed acq none))
    else
      match s.loadAt p n (descr .load n cap.toNat) acq (c.space == 3) with
      | .error e => e
      | .ok (bs, t) => (t.acquireStatus p acq).hostDone.wrG g (loadExtend bs signed)

/-- A store to a kick register that is not of 64 bits (12 R323). -/
def narrowKick (off n : Nat) : Bool := n != 8 && (off / 8 * 8 == 0x10000 || off / 8 * 8 == 0x10008)

/-- The checks that a store to a kick register makes as `copygo` or `clgo` would (12 R323); `none` where it may start. -/
def State.kickCheck (s : State) (off n : Nat) (v ea : Word) (capIdx : Nat) : Option State :=
  let full := (s.myCore.jobSlot).isNone
  if (off / 8 * 8 ≠ 0x10000 ∧ off / 8 * 8 ≠ 0x10008) ∨ s.me.gangRole = 2 then none
  else if n ≠ 8 then some (s.raise .notmapped ea (descr .store n capIdx))
  else if off = 0x10000 then
    let head := v.toNat % 65536
    if v.toNat ≠ head then some (s.raise .resfield v 0)
    else if head % 32 ≠ 0 then some (s.raise .align (BitVec.ofNat 64 head) (descr .load 32 capIdx))
    else
      match s.xlatLocal s.cur.core false head 32 .load with
      | .fault f => some (s.raise f (BitVec.ofNat 64 head) (descr .load 32 capIdx))
      | .miss _ _ => none
      | .ok _ =>
        if full || (s.cluster (clusterOf s.cur.core)).chainsFull then some s.stall else none
  else
    let a := v.toNat % 2 ^ 57
    if v.toNat ≠ a then some (s.raise .resfield v 0)
    else if a % 64 ≠ 0 then some (s.raise .align v (descr .load 64 capIdx))
    else
      match s.xlat 0 a 64 .load with
      | .fault f => some (s.raise f v (descr .load 64 capIdx))
      | .miss sp vpn => some (s.parkWalk [(sp, vpn)])
      | .ok _ => if full then some s.stall else none

/-- Whether a store of the running activation to a space is deferred to commit (07 R177). -/
def State.defersTo (s : State) (space : Nat) : Bool := s.me.spec && (space == 3 || space == 4)

/-- A scalar store whose checks have passed (07 R177; 12 R300, R301, R323). -/
def State.storeChecked (s : State) (c : Cap) (capIdx : Nat) (p : Place) (ea : Int) (n : Nat) (v : Word) (rel : Option Nat) :
    State :=
  let xv := wordOfInt ea
  match p, s.me.actKey with
  | .qwin off, _ =>
    if s.me.timed then s.raise .illegal 0 0
    else if off < 64 then s.raise .notmapped xv (descr .store n capIdx)
    else joinEx (s.storeAt p none (wordBytes n v) none (descr .store n capIdx) rel)
  | .ctrl off, none =>
    (match s.kickCheck off n v xv capIdx with
     | some e => e
     | none => joinEx (s.storeAt p none (wordBytes n v) none (descr .store n capIdx) rel))
  | .ctrl off, some k =>
    if s.me.spec && narrowKick off n then s.raise .notmapped xv (descr .store n capIdx)
    else if s.me.spec then joinEx (s.defer k (descr .store n capIdx) (.store c c.space ea.toNat n v rel))
    else
      (match s.kickCheck off n v xv capIdx with
       | some e => e
       | none => joinEx (s.storeAt p none (wordBytes n v) none (descr .store n capIdx) rel))
  | .host a win, some k =>
    if s.defersTo c.space then joinEx (s.defer k (descr .store n capIdx) (.store c c.space ea.toNat n v rel))
    else joinEx (s.storeAt (.host a win) (pageOf c.space ea) (wordBytes n v) none (descr .store n capIdx) rel)
  | .host a win, none => joinEx (s.storeAt (.host a win) (pageOf c.space ea) (wordBytes n v) none (descr .store n capIdx) rel)
  | .mem a key lc, k? =>
    if s.relaxed (.mem a key lc) then
      joinEx ((s.touch p n true (descr .store n capIdx)).map (fun s =>
        (match pageOf c.space ea with
         | some (sp, vpn) => s.setDirty s.cur.core s.myCtxId sp vpn
         | none => s).present .store [⟨a, n, wordBytes n v, none, 0, key⟩] none (8 * n) false none rel))
    else
      match k? with
      | some k =>
        if s.defersTo c.space then joinEx (s.defer k (descr .store n capIdx) (.store c c.space ea.toNat n v rel))
        else joinEx (s.storeAt p (pageOf c.space ea) (wordBytes n v) none (descr .store n capIdx) rel)
      | none => joinEx (s.storeAt p (pageOf c.space ea) (wordBytes n v) none (descr .store n capIdx) rel)

/-- A scalar store of n bytes (11 R276, R277). -/
def State.storeScalar (s : State) (g : BitVec 5) (cap : BitVec 4) (index : Word) (shift n : Nat) (d : Int)
    (rel : Option Nat) : State :=
  let c := s.rdC cap
  let ea := effAddr c index shift d
  match s.access c cap.toNat .store ea n n with
  | .error e => e
  | .ok p => s.storeChecked c cap.toNat p ea n (s.rdG g) rel

/-- The MS form of a scalar load: the index shifted by SH, the short displacement scaled (09 R223). -/
def State.ldMS (s : State) (n : Nat) (signed : Bool) (g : BitVec 5) (cap : BitVec 4) (idx : BitVec 5) (sh : BitVec 2)
    (disp : BitVec 6) (ext : Option (BitVec 32)) : Out :=
  .next (s.loadScalar g cap (s.rdG idx) sh.toNat n (dispOf disp.toInt n ext) signed none)

/-- The MS form of a scalar store. -/
def State.stMS (s : State) (n : Nat) (g : BitVec 5) (cap : BitVec 4) (idx : BitVec 5) (sh : BitVec 2) (disp : BitVec 6)
    (ext : Option (BitVec 32)) : Out :=
  .next (s.storeScalar g cap (s.rdG idx) sh.toNat n (dispOf disp.toInt n ext) none)

/-- `ld.i8` (11 R276). -/
def execLdI8 (g : BitVec 5) (cap : BitVec 4) (idx : BitVec 5) (sh : BitVec 2) (disp : BitVec 6) (ext : Option (BitVec 32))
    (s : State) : Out := s.ldMS 1 true g cap idx sh disp ext
/-- `ld.n8` (11 R276). -/
def execLdN8 (g : BitVec 5) (cap : BitVec 4) (idx : BitVec 5) (sh : BitVec 2) (disp : BitVec 6) (ext : Option (BitVec 32))
    (s : State) : Out := s.ldMS 1 false g cap idx sh disp ext
/-- `ld.i16` (11 R276). -/
def execLdI16 (g : BitVec 5) (cap : BitVec 4) (idx : BitVec 5) (sh : BitVec 2) (disp : BitVec 6) (ext : Option (BitVec 32))
    (s : State) : Out := s.ldMS 2 true g cap idx sh disp ext
/-- `ld.n16` (11 R276). -/
def execLdN16 (g : BitVec 5) (cap : BitVec 4) (idx : BitVec 5) (sh : BitVec 2) (disp : BitVec 6) (ext : Option (BitVec 32))
    (s : State) : Out := s.ldMS 2 false g cap idx sh disp ext
/-- `ld.i32` (11 R276). -/
def execLdI32 (g : BitVec 5) (cap : BitVec 4) (idx : BitVec 5) (sh : BitVec 2) (disp : BitVec 6) (ext : Option (BitVec 32))
    (s : State) : Out := s.ldMS 4 true g cap idx sh disp ext
/-- `ld.n32` (11 R276). -/
def execLdN32 (g : BitVec 5) (cap : BitVec 4) (idx : BitVec 5) (sh : BitVec 2) (disp : BitVec 6) (ext : Option (BitVec 32))
    (s : State) : Out := s.ldMS 4 false g cap idx sh disp ext
/-- `ld.64` (11 R276). -/
def execLd64 (g : BitVec 5) (cap : BitVec 4) (idx : BitVec 5) (sh : BitVec 2) (disp : BitVec 6) (ext : Option (BitVec 32))
    (s : State) : Out := s.ldMS 8 false g cap idx sh disp ext
/-- `st.8` (11 R276). -/
def execSt8 (g : BitVec 5) (cap : BitVec 4) (idx : BitVec 5) (sh : BitVec 2) (disp : BitVec 6) (ext : Option (BitVec 32))
    (s : State) : Out := s.stMS 1 g cap idx sh disp ext
/-- `st.16` (11 R276). -/
def execSt16 (g : BitVec 5) (cap : BitVec 4) (idx : BitVec 5) (sh : BitVec 2) (disp : BitVec 6) (ext : Option (BitVec 32))
    (s : State) : Out := s.stMS 2 g cap idx sh disp ext
/-- `st.32` (11 R276). -/
def execSt32 (g : BitVec 5) (cap : BitVec 4) (idx : BitVec 5) (sh : BitVec 2) (disp : BitVec 6) (ext : Option (BitVec 32))
    (s : State) : Out := s.stMS 4 g cap idx sh disp ext
/-- `st.64` (11 R276). -/
def execSt64 (g : BitVec 5) (cap : BitVec 4) (idx : BitVec 5) (sh : BitVec 2) (disp : BitVec 6) (ext : Option (BitVec 32))
    (s : State) : Out := s.stMS 8 g cap idx sh disp ext

/-- The bytes of an SZ field of the scalar MX forms (09 R222): 4 or 8. -/
def szBytes (sz : BitVec 2) : Option Nat := if sz = 2 then some 4 else if sz = 3 then some 8 else none

/-- `ldacq` (11 R277). -/
def execLdacq (d : BitVec 5) (cap : BitVec 4) (r : BitVec 5) (scope : BitVec 3) (sz : BitVec 2) (ext : Option (BitVec 32))
    (s : State) : Out :=
  match szBytes sz with
  | some n => .next (s.loadScalar d cap (s.rdG r) n.log2 n (dispX ext) false (some scope.toNat))
  | none => .refused (.illFormed "LDACQ")

/-- `strel` (11 R277). -/
def execStrel (d : BitVec 5) (cap : BitVec 4) (r : BitVec 5) (scope : BitVec 3) (sz : BitVec 2) (ext : Option (BitVec 32))
    (s : State) : Out :=
  match szBytes sz with
  | some n => .next (s.storeScalar d cap (s.rdG r) n.log2 n (dispX ext) (some scope.toNat))
  | none => .refused (.illFormed "STREL")

/-- `stdef` (11 R299): LOCAL and QWIN fault SPACE; deferred in a speculative activation, `st.64` in any other. -/
def execStdef (g : BitVec 5) (cap : BitVec 4) (idx : BitVec 5) (sh : BitVec 2) (disp : BitVec 6) (ext : Option (BitVec 32))
    (s : State) : Out :=
  let c := s.rdC cap
  let ea := effAddr c (s.rdG idx) sh.toNat (dispOf disp.toInt 8 ext)
  let xv2 := descr .store 8 cap.toNat
  match check26 c (fun sp => sp != 1 && sp != 5 && decide (sp < 6)) (needed .store false) ea 8 ea 8 with
  | some f => .next (s.raise f (wordOfInt ea) xv2)
  | none =>
    match s.access c cap.toNat .store ea 8 8 with
    | .error e => .next e
    | .ok p =>
      match s.me.spec, s.me.actKey with
      | true, some k => .next (joinEx (s.defer k xv2 (.store c c.space ea.toNat 8 (s.rdG g) none)))
      | _, _ => .next (s.storeChecked c cap.toNat p ea 8 (s.rdG g) none)

/-! Vector accesses. -/

/-- The elements of a load read in ascending order; `win` where it goes through HOSTWIN. -/
def State.loadElems (s : State) (n : Nat) (win : Bool) : List (Nat × Int × Place) → Except State (List (Nat × List Byte) × State)
  | [] => .ok ([], s)
  | (i, ea, p) :: t =>
    match s.loadAt p n (wordOfInt ea) none win with
    | .error e => .error e
    | .ok (bs, s) =>
      match State.loadElems s n win t with
      | .error e => .error e
      | .ok (l, s) => .ok ((i, bs) :: l, s)

/-- The elements of a load read, all of them or none where one traps LARDFULL (07 R182; 14 R361). -/
def State.loadAll (s : State) (n : Nat) (win : Bool) (ps : List (Nat × Int × Place)) :
    Except State (List (Nat × List Byte) × State) :=
  match s.loadElems n win ps with
  | .ok r => .ok r
  | .error e => .error (joinEx (s.allOrNone (.error e)))

/-- A vector register with the loaded elements written (11 R279, R280). -/
def putElems (old : VWord) (w : Nat) (l : List (Nat × List Byte)) : VWord :=
  packElems w (l.foldl (fun es e => es.set e.1 (leNat e.2)) (elems old w))

/-- A vector load of n-byte elements at checked addresses. -/
def State.loadVec (s : State) (v : BitVec 5) (c : Cap) (sh : Shape) (n align : Nat) (al : Int → Int) (es : List (Nat × Int)) :
    State :=
  match s.accessVec c .load sh n align al es with
  | .error e => e
  | .ok ps =>
    if !ps.isEmpty && ps.all (fun p => s.relaxed p.2.2) then
      joinEx ((s.allOrNone (ps.foldlM (fun (s : State) p => s.touch p.2.2 n false (wordOfInt p.2.1)) s)).map (fun s =>
        s.present .load (ps.map (fun p => ⟨p.2.2.addr, n, [], none, p.1, p.2.2.keyid⟩)) (some (.v v)) (8 * n) false none none))
    else
      match s.loadAll n (c.space == 3) ps with
      | .error e => e
      | .ok (l, s) => s.hostDone.wrV v (putElems (s.rdV v) (8 * n) l)

/-- The elements of a store written in ascending order, the highest index last (05 R115). -/
def State.storeElems (s : State) (space : Nat) (x : VWord) (n : Nat) : List (Nat × Int × Place) → Except State State
  | [] => .ok s
  | (i, ea, p) :: t =>
    match s.storeAt p (pageOf space ea) (leBytes n (elem x (8 * n) i)) none (wordOfInt ea) with
    | .error e => .error e
    | .ok s => State.storeElems s space x n t

/-- A vector store of n-byte elements at checked addresses; to HOSTWIN it is deferred in a speculative activation. -/
def State.storeVec (s : State) (x : VWord) (c : Cap) (sh : Shape) (n align : Nat) (al : Int → Int) (es : List (Nat × Int)) :
    State :=
  match s.accessVec c .store sh n align al es with
  | .error e => e
  | .ok ps =>
    match s.defersTo c.space, s.me.actKey with
    | true, some k =>
      joinEx (s.allOrNone (ps.foldlM (fun (s : State) p => s.defer k (wordOfInt p.2.1)
        (.store c c.space p.2.1.toNat n (BitVec.ofNat 64 (elem x (8 * n) p.1)) none)) s))
    | _, _ =>
      if !ps.isEmpty && ps.all (fun p => s.relaxed p.2.2) then
        joinEx ((s.allOrNone (ps.foldlM (fun (s : State) p => s.touch p.2.2 n true (wordOfInt p.2.1)) s)).map (fun s =>
          (ps.foldl (fun (s : State) p => match pageOf c.space p.2.1 with
            | some (sp, vpn) => s.setDirty s.cur.core s.myCtxId sp vpn
            | none => s) s).present .store
            (ps.map (fun p => ⟨p.2.2.addr, n, leBytes n (elem x (8 * n) p.1), none, p.1, p.2.2.keyid⟩)) none (8 * n) false none
            none))
      else joinEx (s.allOrNone (s.storeElems c.space x n ps))

/-- The active word elements of a contiguous access at ea (11 R279). -/
def wordElems (k : Word) (ea : Int) : List (Nat × Int) :=
  ((List.range 16).filter (predBit k)).map (fun i => (i, ea + 4 * i))

/-- `vld` (11 R279). -/
def execVld (v : BitVec 5) (cap : BitVec 4) (k : BitVec 3) (idx : BitVec 5) (disp : BitVec 5) (ext : Option (BitVec 32))
    (s : State) : Out :=
  let c := s.rdC cap
  let ea := effAddr c (s.rdG idx) 6 (dispOf disp.toInt 64 ext)
  .next (s.loadVec v c .contig 4 64 (fun _ => ea) (wordElems (s.rdK k) ea))

/-- A command pushed into the core's queue of the matrix engine (12 R301): a job of kind 8, the sixteen places, LASTJOB;
in a gang, the leader's alone. -/
def State.pushCommand (s : State) (x : VWord) : State :=
  let core := s.cur.core
  let cl := clusterOf core
  let e := (s.cluster cl).engine
  match (if s.me.gangRole = 2 then none else s.myCore.jobSlot) with
  | none => if s.me.gangRole = 2 then s else s.stall
  | some i =>
    if 16 ≤ (e.queue (core % 8)).length then s.stall
    else
      let (id, c) := s.takeJob s.cur.core i 8
      let dw : Vector Word 8 := Vector.ofFn (fun j => BitVec.ofNat 64 (elem x 64 j.val))
      let cmd : MCmd := ⟨dw, id, s.cur.slot, s.me.infm, BitVec.ofNat 3 s.me.rnd, s.view s.myAgent, 0, false, false,
        0, false, 0⟩
      let s := s.setCore core c
      let s := s.modMe (fun x => { x with lastJob := some id })
      let s := s.modCluster cl (fun k => { k with engine := k.engine.setQueue (core % 8) (k.engine.queue (core % 8) ++ [cmd]) })
      s.dueOne .matrixAccept [cl]

/-- `vst` (11 R279), a push into the matrix queue through QWIN (12 R300, R301). -/
def execVst (v : BitVec 5) (cap : BitVec 4) (k : BitVec 3) (idx : BitVec 5) (disp : BitVec 5) (ext : Option (BitVec 32))
    (s : State) : Out :=
  let c := s.rdC cap
  let kk := s.rdK k
  let ea := effAddr c (s.rdG idx) 6 (dispOf disp.toInt 64 ext)
  let es := wordElems kk ea
  if c.tag && c.space == 5 then
    match es with
    | [] => .next s
    | (i, a) :: _ =>
      if es.length < 16 then .next (s.raise .space (BitVec.ofNat 64 i) (wordOfInt a))
      else
        match s.accessVec c .store .contig 4 64 (fun _ => ea) es with
        | .error e => .next e
        | .ok _ =>
          if ea ≠ 0 then .next (s.raise .notmapped 0 (wordOfInt ea))
          else if s.me.timed then .next (s.raise .illegal 0 0)
          else if !s.allSettled then .next (s.park .order)
          else .next (s.pushCommand (s.rdV v))
  else .next (s.storeVec (s.rdV v) c .contig 4 64 (fun _ => ea) es)

/-- The element width of an SZ field of the vector MX forms (09 R222): 8, 16 or 32 bits. -/
def szWidth (sz : BitVec 2) : Option Nat := if sz = 3 then none else some (8 * 2 ^ sz.toNat)

/-- The active elements of a strided or indexed access (11 R280). -/
def stepElems (k : Word) (w : Nat) (f : Nat → Int) : List (Nat × Int) :=
  ((List.range (512 / w)).filter (predBit k)).map (fun i => (i, f i))

/-- `vlds` (11 R280). -/
def execVlds (d : BitVec 5) (cap : BitVec 4) (r : BitVec 5) (k : BitVec 3) (sz : BitVec 2) (ext : Option (BitVec 32))
    (s : State) : Out :=
  match szWidth sz with
  | none => .refused (.illFormed "VLDS")
  | some w =>
    let c := s.rdC cap
    let ea := effAddr c 0 0 (dispX ext)
    .next (s.loadVec d c .element (w / 8) (w / 8) id (stepElems (s.rdK k) w (fun i => ea + i * (s.rdG r).toInt)))

/-- `vldx` (11 R280). -/
def execVldx (d : BitVec 5) (cap : BitVec 4) (r : BitVec 5) (k : BitVec 3) (sz : BitVec 2) (ext : Option (BitVec 32))
    (s : State) : Out :=
  match szWidth sz with
  | none => .refused (.illFormed "VLDX")
  | some w =>
    let c := s.rdC cap
    let ea := effAddr c 0 0 (dispX ext)
    .next (s.loadVec d c .element (w / 8) (w / 8) id
      (stepElems (s.rdK k) w (fun i => ea + (elem (s.rdV r) w i * (w / 8) : Nat))))

/-- `vstx` (11 R280). -/
def execVstx (d : BitVec 5) (cap : BitVec 4) (r : BitVec 5) (k : BitVec 3) (sz : BitVec 2) (ext : Option (BitVec 32))
    (s : State) : Out :=
  match szWidth sz with
  | none => .refused (.illFormed "VSTX")
  | some w =>
    let c := s.rdC cap
    let ea := effAddr c 0 0 (dispX ext)
    .next (s.storeVec (s.rdV d) c .element (w / 8) (w / 8) id
      (stepElems (s.rdK k) w (fun i => ea + (elem (s.rdV r) w i * (w / 8) : Nat))))

/-! Capability loads and stores. -/

/-- The tag of an `ldc` at a place whose granule was read with a tag (01 R21; 03 R74, R78; 07 R181). -/
def State.ldcTag (s : State) (p : Place) (tag : Bool) : Bool :=
  match p with
  | .mem a _ lc =>
    (match s.me.spec, s.me.actKey with
     | true, some k =>
       (match s.pantryOf s.cur.core k (a / 64) with
        | some q =>
          let m := bitsOf q.mask.toNat (a % 64) 16
          if m = 0 then lc && tag
          else lc && m == 65535 && q.tags.getLsbD (a % 64 / 16)
        | none => lc && tag)
     | _, _ => lc && tag)
  | .host _ _ => false
  | .ctrl _ => false
  | .qwin _ => false

/-- A capability of sixteen bytes and a tag. -/
def capOfBytes (bs : List Byte) (tag : Bool) : Cap :=
  ⟨BitVec.ofNat 64 (leNat (bs.take 8)), BitVec.ofNat 64 (leNat (bs.drop 8)), tag⟩

/-- The sixteen bytes of a capability. -/
def Cap.bytes (c : Cap) : List Byte := wordBytes 8 c.lo ++ wordBytes 8 c.hi

/-- `ldc` (11 R281). -/
def execLdc (d : BitVec 4) (cap : BitVec 4) (r : BitVec 5) (ext : Option (BitVec 32)) (s : State) : Out :=
  let c := s.rdC cap
  let ea := effAddr c (s.rdG r) 4 (dispX ext)
  match s.access c cap.toNat .ldc ea 16 16 with
  | .error e => .next e
  | .ok p =>
    if s.relaxed p then
      .next (joinEx ((s.touch p 16 false (descr .ldc 16 cap.toNat)).map (fun s =>
        s.present .load [⟨p.addr, 16, [], some p.lc, 0, p.keyid⟩] (some (.c4 d)) 128 false none none)))
    else
      match s.loadTagged p 16 (descr .ldc 16 cap.toNat) false with
      | .error e => .next e
      | .ok (bs, tag, t) => .next (t.hostDone.wrC d (capOfBytes bs (s.ldcTag p tag)))

/-- `stc` (11 R281). -/
def execStc (d : BitVec 4) (cap : BitVec 4) (r : BitVec 5) (ext : Option (BitVec 32)) (s : State) : Out :=
  let c := s.rdC cap
  let x := s.rdC d
  let ea := effAddr c (s.rdG r) 4 (dispX ext)
  match s.access c cap.toNat .stc ea 16 16 with
  | .error e => .next e
  | .ok p =>
    if s.relaxed p then
      .next (joinEx ((s.touch p 16 true (descr .stc 16 cap.toNat)).map (fun s =>
        (match pageOf c.space ea with
         | some (sp, vpn) => s.setDirty s.cur.core s.myCtxId sp vpn
         | none => s).present .store [⟨p.addr, 16, x.bytes, some x.tag, 0, p.keyid⟩] none 128 false none none)))
    else .next (joinEx (s.storeAt p (pageOf c.space ea) x.bytes (some x.tag) (descr .stc 16 cap.toNat)))

/-! Atomics, waiting and fences. -/

/-- `amo` (11 R282; 05 R125): one indivisible read and write at the home. -/
def execAmo (d : BitVec 5) (cap : BitVec 4) (r : BitVec 5) (op : BitVec 4) (w : BitVec 1) (ord : BitVec 2)
    (ext : Option (BitVec 32)) (s : State) : Out :=
  if 9 < op.toNat then .refused (.illFormed "AMO")
  else
    let c := s.rdC cap
    let n := if w = 1 then 8 else 4
    let ea := effAddr c 0 0 (dispAmo ext)
    let xv2 := descr .amo n cap.toNat
    let x := (s.rdG r).toNat % 2 ^ (8 * n)
    let y := (s.rdG d).toNat % 2 ^ (8 * n)
    match s.access c cap.toNat .amo ea n n with
    | .error e => .next e
    | .ok p =>
      let acq := if ord = 1 || ord = 3 then some (scopeAmo ext) else none
      let rel := if ord = 2 || ord = 3 then some (scopeAmo ext) else none
      if s.relaxed p then
        .next (joinEx ((s.touch p n true xv2).map (fun s =>
          s.present (.amo op.toNat (BitVec.ofNat 64 x) (BitVec.ofNat 64 y)) [⟨p.addr, n, [], none, 0, p.keyid⟩]
              (some (.g d)) (8 * n) false acq rel (pageOf c.space ea))))
      else
        match s.loadTagged p n xv2 true acq with
        | .error e => .next e
        | .ok (bs, _, t) =>
          match amoNew op.toNat n (leNat bs) x y with
          | none => .next (t.wrG d (BitVec.ofNat 64 (leNat bs)))
          | some v =>
            match t.storeAt p (pageOf c.space ea) (leBytes n v) none xv2 rel (fun w => w.reach == .sys) with
            | .error e => .next (joinEx (s.allOrNone (.error e)))
            | .ok t => .next (t.wrG d (BitVec.ofNat 64 (leNat bs)))

/-- The distinct lines that parked slots of a cluster wait on in GLOBAL (04 R109). -/
def State.waitLines (s : State) (cluster : Nat) : List Nat :=
  ((List.range 8).flatMap (fun i => ((s.core (cluster * 8 + i)).slots.toList.filterMap (fun x =>
    if x.st.why = some .waita then x.monitor.bind (fun m => if m.local_ then none else some m.line) else none)))).eraseDups

/-- `waita` (11 R283; 04 R107, R109): completes at once when the value differs, in a timed activation, when the cluster's
table is full, or woken; otherwise the slot parks with its monitor. -/
def execWaita (d : BitVec 5) (cap : BitVec 4) (r : BitVec 5) (sz : BitVec 2) (ext : Option (BitVec 32)) (s : State) : Out :=
  match szBytes sz with
  | none => .refused (.illFormed "WAITA")
  | some n =>
    let c := s.rdC cap
    let ea := effAddr c (s.rdG r) n.log2 (dispX ext)
    match s.access c cap.toNat .waita ea n n with
    | .error e => .next e
    | .ok p =>
      if s.me.timed then .next s
      else
        match s.loadAt p n (descr .waita n cap.toNat) with
        | .error e => .next e
        | .ok (bs, s) =>
          let s := s.hostDone
          if leNat bs ≠ (s.rdG d).toNat % 2 ^ (8 * n) then .next s
          else
            let line := p.addr / 64
            let isLocal := c.space == 1
            let lines := s.waitLines (clusterOf s.cur.core)
            if !isLocal && !lines.contains line && decide (Config.waitLines ≤ lines.length) then .next s
            else
              let m : Monitor := ⟨line, isLocal, s.myCtxId, c.space, ea.toNat / 4096, p.keyid, s.me.pc⟩
              let h := s.holder
              .next ((s.modSlotAt h.core h.slot (fun x => { x with st := .parked .waita, monitor := some m })).parkedIn h .waita)

/-- `fence` (11 R278; 05 R124): no register; where every access performs at once it orders nothing further. -/
def execFence (kind : BitVec 2) (scope : BitVec 3) (s : State) : Out :=
  if kind = 0 then .refused (.illFormed "FENCE")
  else if s.eager then .next s
  else .next (s.present (.fence kind.toNat) [] none 0 false
    (if kind = 2 then none else some scope.toNat) (if kind = 1 then none else some scope.toNat))

end Sys2Proof.Machine
end

