-- ==== Sys2Proof/Machine/Ordering.lean ====
section
/-! DEFINITION. The reference machine's steps (05 R110 to R125): issuing an operation of a slot, a write's reaches, performing at
the home, what a read returns, and what joins a view. They run where accesses do not perform at once (log 20). -/

namespace Sys2Proof.Machine

/-! Issuing (05 R114, R116, R122, R124). -/

/-- An operation reads. -/
def MemOp.reads (o : MemOp) : Bool :=
  match o.kind with
  | .load => true
  | .amo _ _ _ => true
  | .store => false
  | .fence _ => false

/-- An operation writes. -/
def MemOp.writes (o : MemOp) : Bool :=
  match o.kind with
  | .store => true
  | .amo _ _ _ => true
  | .load => false
  | .fence _ => false

/-- An operation orders the operations after it behind every read before it (05 R124). -/
def MemOp.fenceAcq (o : MemOp) : Bool :=
  match o.kind with
  | .fence k => k != 2
  | .load => false
  | .store => false
  | .amo _ _ _ => false

/-- A read has returned: every unit holds its bytes. -/
def MemOp.returned (o : MemOp) : Bool := o.reads && o.issued && o.units.all (fun u => u.bytes.length == u.len)

/-- What an operation does has been done as far as the order of its slot asks (05 R116): a read has returned, a write has
issued. -/
def MemOp.past (o : MemOp) : Bool := if o.reads then o.returned else o.issued

/-- Two operations overlap. -/
def MemOp.overlaps (o p : MemOp) : Bool :=
  o.units.any (fun u => p.units.any (fun v => decide (u.addr < v.addr + v.len) && decide (v.addr < u.addr + u.len)))

/-- An earlier operation of a slot lets a later one issue (05 R116, R124): an acquire and a fence hold what follows them, an
overlapping access comes first, and a release and an acquire fence come after; a release also waits for the earlier stores that
have not issued (log 71). -/
def MemOp.lets (e o : MemOp) : Bool :=
  let holds : Bool := match e.kind with
    | .fence k => k != 2 || o.writes || o.rel.isSome
    | _ => e.acq.isSome && !e.returned
  !holds && (e.past || !(e.overlaps o || o.rel.isSome || (o.fenceAcq && e.reads)))

/-- The operations of a slot that stand before a place of its issue queue. -/
def Slot.before (x : Slot) (pos : Nat) : List MemOp := x.ops.take pos

/-- An operation of a slot's issue queue changed. -/
def Slot.setOp (x : Slot) (pos : Nat) (o : MemOp) : Slot := { x with ops := x.ops.set pos o }

/-- The operation of a slot that issues next: one that its earlier operations let issue, at a position or else the first. -/
def Slot.issuable (x : Slot) (pos : Nat) : Option (MemOp × Nat) :=
  let l := x.ops.zipIdx.filter (fun o => !o.1.issued && (x.before o.2).all (fun e => e.lets o.1))
  match l.find? (fun o => decide (pos ≤ o.2)) with
  | some o => some o
  | none => l.head?

/-- What a write of a slot issued now carries (05 R122): the view at each fence before it, and of a release its own. -/
def State.relsOf (s : State) (agent : Nat) (x : Slot) (rel : Option Nat) : List (Nat × List Nat) :=
  match rel with
  | some k => (k, s.view agent) :: x.relFence
  | none => x.relFence

/-- A release fence noted for the writes that follow it (05 R122, R124); one at the same scope before it holds no more. -/
def Slot.fenced (x : Slot) (scope : Nat) (view : List Nat) : Slot :=
  { x with relFence := x.relFence.filter (fun r => r.1 != scope) ++ [(scope, view)] }

/-- An operation issued from an agent's issue queue (05 R116). Arguments: agent, position. -/
def execMemoryIssue (s : State) : Out :=
  let (agent, pos) := (s.arg 0, s.arg 1)
  let (core, slot) := (agent / 4, agent % 4)
  let x := s.slotAt core slot
  match x.issuable pos with
  | none => .next (if x.ops.any (fun o => !o.issued) then s.dueOne .memoryIssue [agent, pos] else s)
  | some (o, i) =>
    if (match o.rel with
      | some k => !s.released agent k
      | none => false) then .next (s.dueOne .memoryIssue [agent, pos])
    else
      let drop (s : State) : State := s.modSlotAt core slot (fun x => { x with ops := x.ops.eraseIdx i })
      let rels := s.relsOf agent x o.rel
      match o.kind with
      | .load => .next ((s.setSlotAt core slot (x.setOp i { o with issued := true })).dueOne .readReturn [agent, o.id])
      | .amo _ _ _ =>
        .next ((s.setSlotAt core slot (x.setOp i { o with issued := true, rels := rels })).dueOne .readReturn [agent, o.id])
      | .store => .next (o.units.foldl (fun s u => s.issueUnit agent rels u) (drop s)).wakeOrder
      | .fence k =>
        let s := drop s
        let s := if k = 2 then s else
          (s.joinView agent (s.acquired agent (o.acq.getD 7) x.acqReads)).modSlotAt core slot (fun x => { x with acqReads := [] })
        .next (if k = 1 then s else s.modSlotAt core slot (fun x => x.fenced (o.rel.getD 7) (s.view agent))).wakeOrder

/-! Reaches and performing (05 R115, R117). -/

/-- A write advances to its next reach (05 R117). Arguments: write id. -/
def execWriteReach (s : State) : Out :=
  let id := s.arg 0
  match s.writes.get? id with
  | none => .next s
  | some w =>
    match w.onward with
    | some r => .next (({ s with writes := s.writes.set id { w with reach := r } }.dueOne .writeReach [id]).wakeOrder)
    | none => .next (if w.reach = .sys then s else s.dueOne .writePerform [id])

/-- A write performs once every write ordered before it has (05 R115). Arguments: write id. -/
def execWritePerform (s : State) : Out :=
  let id := s.arg 0
  match s.writes.get? id with
  | none => .next s
  | some w =>
    if w.reach = .sys || w.onward.isSome then .next s
    else if s.performedAll w.preds then .next (s.performRec id w)
    else .next (s.dueOne .writePerform [id])

/-! Reading (05 R119, R120, R123, R125). -/

/-- The writes to an operation's bytes that stand in its agent's view have arrived at their home (05 R114, R115). -/
def State.viewArrived (s : State) (agent : Nat) (o : MemOp) : Bool :=
  s.writes.entries.all (fun w => w.2.reach == .sys || !(s.view agent).contains w.1 || !o.units.any (fun u => w.2.meets u.addr u.len))

/-- What an `amo` does at its home (05 R125): it returns the last arrival, and its write arrives next, ordered after every write
that arrived before it (R114); the page is then marked written (03 R82). -/
def State.amoAtHome (s : State) (agent : Nat) (o : MemOp) (op : Nat) (arg cmp : Word) (u : Unit_) :
    Unit_ × List Nat × State :=
  let (old, s) := s.readKey u.addr u.len u.keyid
  let ids := s.lastArrivals u.addr u.len
  let s := ids.foldl (fun (s : State) id => s.joinView agent (s.downOf id)) s
  match amoNew op u.len (leNat old) arg.toNat cmp.toNat with
  | none => ({ u with bytes := old }, ids, s)
  | some v =>
    let s := match o.page with
      | some (sp, vpn) => s.setDirty (agent / 4) (s.core (agent / 4)).ctx sp vpn
      | none => s
    ({ u with bytes := old }, ids,
      s.homeWrite agent o.rels none (fun w => w.reach == .sys) u.addr (leBytes u.len v) none u.keyid)

/-- An operation of a slot found by its id, with its position. -/
def Slot.opAt (x : Slot) (id : Nat) : Option (MemOp × Nat) := x.ops.zipIdx.find? (fun o => o.1.id == id)

/-- The units of an operation read in turn: what they hold, the writes returned. -/
def State.runUnits (s : State) (units : List Unit_) (f : State → Unit_ → Unit_ × List Nat × State) :
    List Unit_ × List Nat × State :=
  units.foldl (fun (acc : List Unit_ × List Nat × State) u =>
    let (v, ids, s) := f acc.2.2 u
    (acc.1 ++ [v], joinNat acc.2.1 ids, s)) ([], [], s)

/-- A read that has returned: an acquire joins what the writes it returned carry, and the result may land (05 R123; 09 R219). -/
def State.returnOp (s : State) (agent pos : Nat) (o : MemOp) (units : List Unit_) (ids : List Nat) : State :=
  let (core, slot) := (agent / 4, agent % 4)
  let s := match o.acq with
    | some k => s.joinView agent (s.acquired agent k ids)
    | none => s
  (s.modSlotAt core slot (fun x =>
    { (x.setOp pos { o with units := units }) with acqReads := joinNat x.acqReads ids })).dueOne .variableResultLand [core, slot]

/-- A read returns (05 R119, R120, R123, R125): an uncorrectable line ends the activation, and the host is told (04 R97).
Arguments: agent, the operation's id. -/
def execReadReturn (s : State) : Out :=
  let (agent, opid) := (s.arg 0, s.arg 1)
  let (core, slot) := (agent / 4, agent % 4)
  match (s.slotAt core slot).opAt opid with
  | none => .next s
  | some (o, pos) =>
    if !o.issued || o.returned || !o.reads then .next s
    else
      match (o.units.flatMap (fun u => linesOf u.addr u.len)).find? s.poison.contains with
      | some l =>
        .next (((s.modSlotAt core slot (fun x => { x with ops := x.ops.eraseIdx pos })).tellHost (64 * l)).lost core slot)
      | none =>
        match o.kind with
        | .amo op arg cmp =>
          if !s.viewArrived agent o then .next (s.dueOne .readReturn [agent, opid])
          else
            let (us, ids, s) := s.runUnits o.units (fun s u => s.amoAtHome agent o op arg cmp u)
            .next (s.returnOp agent pos o us ids)
        | _ =>
          let (us, ids, s) := s.runUnits o.units (fun s u => s.readUnit agent u)
          .next (s.returnOp agent pos o us ids)

/-- The value that a returned operation writes to its destination. -/
def MemOp.value (o : MemOp) (old : RegVal) : RegVal :=
  let u := o.units.headD ⟨0, 0, [], none, 0, 0⟩
  match old with
  | .word _ => .word (match o.kind with
    | .amo _ _ _ => BitVec.ofNat 64 (leNat u.bytes)
    | _ => loadExtend u.bytes o.signed)
  | .vec x => .vec (putElems x o.width (o.units.map (fun u => (u.lane, u.bytes))))
  | .cap _ => .cap (capOfBytes u.bytes (u.tag == some true))

/-- A variable-latency result lands and its interlock is released (09 R219). Arguments: core, slot. -/
def execVariableResultLand (s : State) : Out :=
  let (core, slot) := (s.arg 0, s.arg 1)
  let x := s.slotAt core slot
  match x.ops.find? (fun o => o.returned) with
  | none => .next s
  | some o =>
    let x := match o.dest with
      | some r => { x.wr r (o.value (x.rd r)) with board := x.board.erase r }
      | none => x
    .next ((s.setSlotAt core slot { x with ops := x.ops.filter (fun p => p.id != o.id) }).wakeOrder)

/-! Views (05 R121). -/

/-- The machine adds a readable write to an agent's view, and a slot that waits on its line wakes; a performed one it adds to
every view (05 R121; 04 R108). Arguments: agent, write id. -/
def execViewAdd (s : State) : Out :=
  let (agent, id) := (s.arg 0, s.arg 1)
  match s.writes.get? id with
  | none => .next s
  | some w =>
    if !s.readable w agent then .next s
    else
      let s := s.joinView agent (s.downOf id)
      let lines := linesOf w.addr w.bytes.length
      .next (if agent = everyAgent then s.wakeLines lines
        else s.modSlotAt (agent / 4) (agent % 4) (fun x =>
          if x.st.why == some .waita && (match x.monitor with
            | some m => lines.contains m.line
            | none => false) then x.wake else x))

end Sys2Proof.Machine
end

