-- ==== Sys2Proof/Machine/Predicate.lean ====
section
/-! DEFINITION. The predicate instructions of the A slot (10 R259, R260). -/

namespace Sys2Proof.Machine

/-- `kand` (10 R259). -/
def execKand (d a b : BitVec 3) (s : State) : Out := .next (s.wrK d (s.rdK a &&& s.rdK b))

/-- `kor` (10 R259). -/
def execKor (d a b : BitVec 3) (s : State) : Out := .next (s.wrK d (s.rdK a ||| s.rdK b))

/-- `kxor` (10 R259). -/
def execKxor (d a b : BitVec 3) (s : State) : Out := .next (s.wrK d (s.rdK a ^^^ s.rdK b))

/-- `knot` (10 R259). -/
def execKnot (d a : BitVec 3) (s : State) : Out := .next (s.wrK d (~~~ s.rdK a))

/-- `kmov` between predicate registers (10 R259). -/
def execKmovK (d a : BitVec 3) (s : State) : Out := .next (s.wrK d (s.rdK a))

/-- `kpop` (10 R260). -/
def execKpop (g : BitVec 5) (k : BitVec 3) (s : State) : Out := .next (s.wrG g (BitVec.ofNat 64 (popNat 64 (s.rdK k).toNat)))

/-- `kmov` from a general register (10 R260). -/
def execKmovKg (g : BitVec 5) (k : BitVec 3) (s : State) : Out := .next (s.wrK k (s.rdG g))

/-- `kmov` to a general register (10 R260). -/
def execKmovGk (g : BitVec 5) (k : BitVec 3) (s : State) : Out := .next (s.wrG g (s.rdK k))

end Sys2Proof.Machine
end

