-- ==== Sys2Proof/Machine/Walk.lean ====
section
/-! DEFINITION. The walker of a die (03 R67, R69 to R73, R82): starting a waiting walk, and its completion, which installs
entries or faults the parked accesses. -/

namespace Sys2Proof.Machine

/-- The walk of a die that starts next (03 R70): the oldest waiting one whose context holds fewer than half of the walks, or
any where no other context waits. -/
def Die.nextWalk (d : Die) : Option Walk :=
  if Config.dieWalks ≤ d.walks.length then none
  else d.waiting.find? (fun w =>
    decide ((d.walks.filter (fun x => x.ctx == w.ctx)).length < Config.dieWalks / 2) || d.waiting.all (fun x => x.ctx == w.ctx))

/-- A waiting miss begins its walk (03 R70). Arguments: die. -/
def execWalkStart (s : State) : Out :=
  let d := s.arg 0
  match (s.die d).nextWalk with
  | none => .next s
  | some w =>
    let s := s.modDie d (fun x => { x with walks := x.walks ++ [w], waiting := x.waiting.erase w })
    .next (s.dueOne .walkComplete [d, 0])

/-- A slot still waits on some walk of its die. -/
def Die.holds (d : Die) (core slot : Nat) : Bool := (d.walks ++ d.waiting).any (fun w => w.waiters.contains (core, slot))

/-- The slots of a walk that wait on no other woken (03 R72); a walk that faulted is noted in each (03 R73). -/
def State.wakeWalkers (s : State) (d : Nat) (w : Walk) (faulted : Bool) : State :=
  w.waiters.foldl (fun (s : State) p =>
    let x := s.slotAt p.1 p.2
    if x.st.why ≠ some .walk then s
    else
      let x := if faulted then { x with walkFault := some (spBit w.space, BitVec.ofNat 64 w.vpn, 0) } else x
      s.setSlotAt p.1 p.2 (if (s.die d).holds p.1 p.2 then x else x.wake)) s

/-- The steps of other agents that wait on a walk due again, with the page granted to them (03 R70). -/
def State.grantWalk (s : State) (w : Walk) : State :=
  { s with granted := s.granted ++ w.dues }.due (w.dues.map Prod.fst)

/-- A walk finishes (03 R69, R82). Arguments: die, position among its walks. -/
def execWalkComplete (s : State) : Out :=
  let (d, pos) := (s.arg 0, s.arg 1)
  match (s.die d).walks[pos]? with
  | none => .next s
  | some w =>
    let s := (s.modDie d (fun x => { x with walks := x.walks.eraseIdx pos })).dueOne .walkStart [d]
    let s := (s.walked d w.ctx w.space w.vpn).grantWalk w
    match s.walkEntries w.ctx w.space w.vpn false with
    | none => .next (s.wakeWalkers d w true)
    | some (r, e) =>
      let cores := (w.waiters.map (fun p => p.1) ++ (w.dues.filter (fun x => x.2.own)).map (fun x => x.2.core)).eraseDups
      let s := cores.foldl (fun (s : State) c => if (s.core c).ctx = w.ctx then s.install c r e else s) s
      let others := ((w.dues.filter (fun x => !x.2.own)).map (fun x => x.2.core)).eraseDups
      let s := others.foldl (fun (s : State) c => if (s.core c).ctx = w.ctx then
        s.modCluster (clusterOf c) (fun k => { k with tlb2 := installEntry 4096 k.tlb2 e }) else s) s
      .next (s.wakeWalkers d w false)

end Sys2Proof.Machine
end

