-- ==== Sys2Proof/Machine/Dispatch.lean ====
section
/-! DEFINITION. One arm for each constructor: a direct call of its meaning. -/
namespace Sys2Proof.Machine

/-- What an instruction or step does to the machine. -/
def exec (i : Instr) (s : State) : Host.Outcome State Fault Refusal :=
  match i with
  -- C slot
  | .cnop => Sys2Proof.Machine.execCnop s
  | .br off ext => Sys2Proof.Machine.execBr off ext s
  | .bcc cnd a b off ext => Sys2Proof.Machine.execBcc cnd a b off ext s
  | .jal d off ext => Sys2Proof.Machine.execJal d off ext s
  | .jalr d r off => Sys2Proof.Machine.execJalr d r off s
  | .loop d off ext => Sys2Proof.Machine.execLoop d off ext s
  | .li d imm ext => Sys2Proof.Machine.execLi d imm ext s
  | .liHi d ext => Sys2Proof.Machine.execLiHi d ext s
  | .ldI8 g cap idx sh disp ext => Sys2Proof.Machine.execLdI8 g cap idx sh disp ext s
  | .ldN8 g cap idx sh disp ext => Sys2Proof.Machine.execLdN8 g cap idx sh disp ext s
  | .ldI16 g cap idx sh disp ext => Sys2Proof.Machine.execLdI16 g cap idx sh disp ext s
  | .ldN16 g cap idx sh disp ext => Sys2Proof.Machine.execLdN16 g cap idx sh disp ext s
  | .ldI32 g cap idx sh disp ext => Sys2Proof.Machine.execLdI32 g cap idx sh disp ext s
  | .ldN32 g cap idx sh disp ext => Sys2Proof.Machine.execLdN32 g cap idx sh disp ext s
  | .ld64 g cap idx sh disp ext => Sys2Proof.Machine.execLd64 g cap idx sh disp ext s
  | .st8 g cap idx sh disp ext => Sys2Proof.Machine.execSt8 g cap idx sh disp ext s
  | .st16 g cap idx sh disp ext => Sys2Proof.Machine.execSt16 g cap idx sh disp ext s
  | .st32 g cap idx sh disp ext => Sys2Proof.Machine.execSt32 g cap idx sh disp ext s
  | .st64 g cap idx sh disp ext => Sys2Proof.Machine.execSt64 g cap idx sh disp ext s
  | .vld v cap k idx disp ext => Sys2Proof.Machine.execVld v cap k idx disp ext s
  | .vst v cap k idx disp ext => Sys2Proof.Machine.execVst v cap k idx disp ext s
  | .vlds d cap r k sz ext => Sys2Proof.Machine.execVlds d cap r k sz ext s
  | .vldx d cap r k sz ext => Sys2Proof.Machine.execVldx d cap r k sz ext s
  | .vstx d cap r k sz ext => Sys2Proof.Machine.execVstx d cap r k sz ext s
  | .ldc d cap r ext => Sys2Proof.Machine.execLdc d cap r ext s
  | .stc d cap r ext => Sys2Proof.Machine.execStc d cap r ext s
  | .ldacq d cap r scope sz ext => Sys2Proof.Machine.execLdacq d cap r scope sz ext s
  | .strel d cap r scope sz ext => Sys2Proof.Machine.execStrel d cap r scope sz ext s
  | .waita d cap r sz ext => Sys2Proof.Machine.execWaita d cap r sz ext s
  | .amo d cap r op w ord ext => Sys2Proof.Machine.execAmo d cap r op w ord ext s
  | .cmov cd cs => Sys2Proof.Machine.execCmov cd cs s
  | .cadd cd cs g imm => Sys2Proof.Machine.execCadd cd cs g imm s
  | .cbnd cd cs g imm => Sys2Proof.Machine.execCbnd cd cs g imm s
  | .cprm cd cs imm => Sys2Proof.Machine.execCprm cd cs imm s
  | .cspc d cs spc => Sys2Proof.Machine.execCspc d cs spc s
  | .cget d cs fld => Sys2Proof.Machine.execCget d cs fld s
  | .ctag d cs => Sys2Proof.Machine.execCtag d cs s
  | .map j cap a b t => Sys2Proof.Machine.execMap j cap a b t s
  | .grant j cap a b t => Sys2Proof.Machine.execGrant j cap a b t s
  | .unmap j cap b t => Sys2Proof.Machine.execUnmap j cap b t s
  | .rwin j cap a b => Sys2Proof.Machine.execRwin j cap a b s
  | .mq j cap a b => Sys2Proof.Machine.execMq j cap a b s
  | .dharv j cap a b => Sys2Proof.Machine.execDharv j cap a b s
  | .pkset a => Sys2Proof.Machine.execPkset a s
  | .pksetKey j a => Sys2Proof.Machine.execPksetKey j a s
  | .send a v un => Sys2Proof.Machine.execSend a v un s
  | .sendt a v un t => Sys2Proof.Machine.execSendt a v un t s
  | .ctrarm a n g => Sys2Proof.Machine.execCtrarm a n g s
  | .done => Sys2Proof.Machine.execDone s
  | .yield => Sys2Proof.Machine.execYield s
  | .qstat d => Sys2Proof.Machine.execQstat d s
  | .abort m => Sys2Proof.Machine.execAbort m s
  | .gvtrd d => Sys2Proof.Machine.execGvtrd d s
  | .lvtrd d => Sys2Proof.Machine.execLvtrd d s
  | .stdef g cap idx sh disp ext => Sys2Proof.Machine.execStdef g cap idx sh disp ext s
  | .jobwait d j => Sys2Proof.Machine.execJobwait d j s
  | .jobq d j => Sys2Proof.Machine.execJobq d j s
  | .copygo j cap => Sys2Proof.Machine.execCopygo j cap s
  | .clgo j cap => Sys2Proof.Machine.execClgo j cap s
  | .skeep a => Sys2Proof.Machine.execSkeep a s
  | .sksum a b => Sys2Proof.Machine.execSksum a b s
  | .gang d sz => Sys2Proof.Machine.execGang d sz s
  | .disband => Sys2Proof.Machine.execDisband s
  | .xchg vd vs esz => Sys2Proof.Machine.execXchg vd vs esz s
  | .bar lvl => Sys2Proof.Machine.execBar lvl s
  | .glaunch j cap => Sys2Proof.Machine.execGlaunch j cap s
  | .gtrig => Sys2Proof.Machine.execGtrig s
  | .gexit g => Sys2Proof.Machine.execGexit g s
  | .gid d sel => Sys2Proof.Machine.execGid d sel s
  | .gcancel g => Sys2Proof.Machine.execGcancel g s
  | .trap imm => Sys2Proof.Machine.execTrap imm s
  | .xret => Sys2Proof.Machine.execXret s
  | .brk imm => Sys2Proof.Machine.execBrk imm s
  | .idle => Sys2Proof.Machine.execIdle s
  | .fence kind scope => Sys2Proof.Machine.execFence kind scope s
  | .csrr d csr => Sys2Proof.Machine.execCsrr d csr s
  | .csrw d r csr => Sys2Proof.Machine.execCsrw d r csr s
  | .csrs d r csr => Sys2Proof.Machine.execCsrs d r csr s
  | .csrc d r csr => Sys2Proof.Machine.execCsrc d r csr s
  -- A slot
  | .anop => Sys2Proof.Machine.execAnop s
  | .add d a b => Sys2Proof.Machine.execAdd d a b s
  | .sub d a b => Sys2Proof.Machine.execSub d a b s
  | .and d a b => Sys2Proof.Machine.execAnd d a b s
  | .or d a b => Sys2Proof.Machine.execOr d a b s
  | .xor d a b => Sys2Proof.Machine.execXor d a b s
  | .shl d a b => Sys2Proof.Machine.execShl d a b s
  | .shr d a b => Sys2Proof.Machine.execShr d a b s
  | .sra d a b => Sys2Proof.Machine.execSra d a b s
  | .slt d a b => Sys2Proof.Machine.execSlt d a b s
  | .sltn d a b => Sys2Proof.Machine.execSltn d a b s
  | .min d a b => Sys2Proof.Machine.execMin d a b s
  | .max d a b => Sys2Proof.Machine.execMax d a b s
  | .minn d a b => Sys2Proof.Machine.execMinn d a b s
  | .maxn d a b => Sys2Proof.Machine.execMaxn d a b s
  | .mul d a b => Sys2Proof.Machine.execMul d a b s
  | .mulh d a b => Sys2Proof.Machine.execMulh d a b s
  | .mulhn d a b => Sys2Proof.Machine.execMulhn d a b s
  | .div d a b => Sys2Proof.Machine.execDiv d a b s
  | .divn d a b => Sys2Proof.Machine.execDivn d a b s
  | .rem d a b => Sys2Proof.Machine.execRem d a b s
  | .remn d a b => Sys2Proof.Machine.execRemn d a b s
  | .clz d a => Sys2Proof.Machine.execClz d a s
  | .ctz d a => Sys2Proof.Machine.execCtz d a s
  | .popc d a => Sys2Proof.Machine.execPopc d a s
  | .addi d a imm => Sys2Proof.Machine.execAddi d a imm s
  | .andi d a imm => Sys2Proof.Machine.execAndi d a imm s
  | .ori d a imm => Sys2Proof.Machine.execOri d a imm s
  | .xori d a imm => Sys2Proof.Machine.execXori d a imm s
  | .shli d a imm => Sys2Proof.Machine.execShli d a imm s
  | .shri d a imm => Sys2Proof.Machine.execShri d a imm s
  | .srai d a imm => Sys2Proof.Machine.execSrai d a imm s
  | .slti d a imm => Sys2Proof.Machine.execSlti d a imm s
  | .fadd d a b rnd ty => Sys2Proof.Machine.execFadd d a b rnd ty s
  | .fsub d a b rnd ty => Sys2Proof.Machine.execFsub d a b rnd ty s
  | .fmul d a b rnd ty => Sys2Proof.Machine.execFmul d a b rnd ty s
  | .ffma d a b c rnd ty => Sys2Proof.Machine.execFfma d a b c rnd ty s
  | .fmin d a b ty => Sys2Proof.Machine.execFmin d a b ty s
  | .fmax d a b ty => Sys2Proof.Machine.execFmax d a b ty s
  | .fsgn d a b sbf ty => Sys2Proof.Machine.execFsgn d a b sbf ty s
  | .fcmp d a b sbf ty => Sys2Proof.Machine.execFcmp d a b sbf ty s
  | .fclass d a ty => Sys2Proof.Machine.execFclass d a ty s
  | .fcvt d a tof frf rnd sat => Sys2Proof.Machine.execFcvt d a tof frf rnd sat s
  | .vadd d a b k ty sat rnd => Sys2Proof.Machine.execVadd d a b k ty sat rnd s
  | .vsub d a b k ty sat rnd => Sys2Proof.Machine.execVsub d a b k ty sat rnd s
  | .vmul d a b k ty sat rnd => Sys2Proof.Machine.execVmul d a b k ty sat rnd s
  | .vfma d a b k ty sat rnd => Sys2Proof.Machine.execVfma d a b k ty sat rnd s
  | .vmin d a b k ty rnd => Sys2Proof.Machine.execVmin d a b k ty rnd s
  | .vmax d a b k ty rnd => Sys2Proof.Machine.execVmax d a b k ty rnd s
  | .vabs d a k ty sat rnd => Sys2Proof.Machine.execVabs d a k ty sat rnd s
  | .vneg d a k ty sat rnd => Sys2Proof.Machine.execVneg d a k ty sat rnd s
  | .vand d a b k => Sys2Proof.Machine.execVand d a b k s
  | .vor d a b k => Sys2Proof.Machine.execVor d a b k s
  | .vxor d a b k => Sys2Proof.Machine.execVxor d a b k s
  | .vshl d a b k ty => Sys2Proof.Machine.execVshl d a b k ty s
  | .vshr d a b k ty => Sys2Proof.Machine.execVshr d a b k ty s
  | .vsra d a b k ty => Sys2Proof.Machine.execVsra d a b k ty s
  | .vclamp d a b k ty rnd => Sys2Proof.Machine.execVclamp d a b k ty rnd s
  | .vcmp kd a b k ty cnd => Sys2Proof.Machine.execVcmp kd a b k ty cnd s
  | .vsel d a b k ty rnd => Sys2Proof.Machine.execVsel d a b k ty rnd s
  | .vcvt d a tof k frf rnd => Sys2Proof.Machine.execVcvt d a tof k frf rnd s
  | .vcvtSat d a tof k frf rnd => Sys2Proof.Machine.execVcvtSat d a tof k frf rnd s
  | .vsfu d a fn k ty rnd => Sys2Proof.Machine.execVsfu d a fn k ty rnd s
  | .vred d a fn k ty rnd => Sys2Proof.Machine.execVred d a fn k ty rnd s
  | .vdot d a b k ty rnd => Sys2Proof.Machine.execVdot d a b k ty rnd s
  | .vperm d a b k ty rnd => Sys2Proof.Machine.execVperm d a b k ty rnd s
  | .vsplat d a k ty rnd => Sys2Proof.Machine.execVsplat d a k ty rnd s
  | .vmovg d r idx ty => Sys2Proof.Machine.execVmovg d r idx ty s
  | .vmovl d r idx ty => Sys2Proof.Machine.execVmovl d r idx ty s
  | .kand d a b => Sys2Proof.Machine.execKand d a b s
  | .kor d a b => Sys2Proof.Machine.execKor d a b s
  | .kxor d a b => Sys2Proof.Machine.execKxor d a b s
  | .knot d a => Sys2Proof.Machine.execKnot d a s
  | .kmovK d a => Sys2Proof.Machine.execKmovK d a s
  | .kpop g k => Sys2Proof.Machine.execKpop g k s
  | .kmovKg g k => Sys2Proof.Machine.execKmovKg g k s
  | .kmovGk g k => Sys2Proof.Machine.execKmovGk g k s
  -- policy words
  | .policyRet a => Sys2Proof.Machine.execPolicyRet a s
  | .policyLi d imm => Sys2Proof.Machine.execPolicyLi d imm s
  | .policyAdd d a b => Sys2Proof.Machine.execPolicyAdd d a b s
  | .policySub d a b => Sys2Proof.Machine.execPolicySub d a b s
  | .policyAnd d a b => Sys2Proof.Machine.execPolicyAnd d a b s
  | .policyOr d a b => Sys2Proof.Machine.execPolicyOr d a b s
  | .policyShli d a imm => Sys2Proof.Machine.execPolicyShli d a imm s
  | .policyShri d a imm => Sys2Proof.Machine.execPolicyShri d a imm s
  | .policyMinn d a b => Sys2Proof.Machine.execPolicyMinn d a b s
  | .policyMaxn d a b => Sys2Proof.Machine.execPolicyMaxn d a b s
  | .policyLdf d a imm => Sys2Proof.Machine.execPolicyLdf d a imm s
  | .policyLds d imm => Sys2Proof.Machine.execPolicyLds d imm s
  | .policySts a imm => Sys2Proof.Machine.execPolicySts a imm s
  | .policyBltn a b imm => Sys2Proof.Machine.execPolicyBltn a b imm s
  | .policyBeq a b imm => Sys2Proof.Machine.execPolicyBeq a b imm s
  | .policyArgmax d imm => Sys2Proof.Machine.execPolicyArgmax d imm s
  | .policyArgmin d imm => Sys2Proof.Machine.execPolicyArgmin d imm s
  -- steps and events
  | .stallExpire => Sys2Proof.Machine.execStallExpire s
  | .fixedLatencyWriteback => Sys2Proof.Machine.execFixedLatencyWriteback s
  | .variableResultLand => Sys2Proof.Machine.execVariableResultLand s
  | .activate => Sys2Proof.Machine.execActivate s
  | .hwdogExpire => Sys2Proof.Machine.execHwdogExpire s
  | .spuriousWake => Sys2Proof.Machine.execSpuriousWake s
  | .memoryIssue => Sys2Proof.Machine.execMemoryIssue s
  | .writeReach => Sys2Proof.Machine.execWriteReach s
  | .writePerform => Sys2Proof.Machine.execWritePerform s
  | .readReturn => Sys2Proof.Machine.execReadReturn s
  | .viewAdd => Sys2Proof.Machine.execViewAdd s
  | .hostCompletion => Sys2Proof.Machine.execHostCompletion s
  | .walkStart => Sys2Proof.Machine.execWalkStart s
  | .walkComplete => Sys2Proof.Machine.execWalkComplete s
  | .outboundDepart => Sys2Proof.Machine.execOutboundDepart s
  | .messageArrive => Sys2Proof.Machine.execMessageArrive s
  | .ejectAccept => Sys2Proof.Machine.execEjectAccept s
  | .antiMessageArrive => Sys2Proof.Machine.execAntiMessageArrive s
  | .gangDecision => Sys2Proof.Machine.execGangDecision s
  | .barrierComplete => Sys2Proof.Machine.execBarrierComplete s
  | .gvtRoundStart => Sys2Proof.Machine.execGvtRoundStart s
  | .gvtPass => Sys2Proof.Machine.execGvtPass s
  | .gvtAdopt => Sys2Proof.Machine.execGvtAdopt s
  | .commit => Sys2Proof.Machine.execCommit s
  | .mapRequest => Sys2Proof.Machine.execMapRequest s
  | .grantRequest => Sys2Proof.Machine.execGrantRequest s
  | .grantComplete => Sys2Proof.Machine.execGrantComplete s
  | .unmapRequest => Sys2Proof.Machine.execUnmapRequest s
  | .shootdownAck => Sys2Proof.Machine.execShootdownAck s
  | .unmapComplete => Sys2Proof.Machine.execUnmapComplete s
  | .reservation => Sys2Proof.Machine.execReservation s
  | .reservationDrop => Sys2Proof.Machine.execReservationDrop s
  | .windowUpdate => Sys2Proof.Machine.execWindowUpdate s
  | .mqQuery => Sys2Proof.Machine.execMqQuery s
  | .mapResult => Sys2Proof.Machine.execMapResult s
  | .contextFree => Sys2Proof.Machine.execContextFree s
  | .harvestSwap => Sys2Proof.Machine.execHarvestSwap s
  | .harvestComplete => Sys2Proof.Machine.execHarvestComplete s
  | .trackEnableComplete => Sys2Proof.Machine.execTrackEnableComplete s
  | .matrixAccept => Sys2Proof.Machine.execMatrixAccept s
  | .mma => Sys2Proof.Machine.execMma s
  | .mmz => Sys2Proof.Machine.execMmz s
  | .kStep => Sys2Proof.Machine.execKStep s
  | .accld => Sys2Proof.Machine.execAccld s
  | .accst => Sys2Proof.Machine.execAccst s
  | .wld => Sys2Proof.Machine.execWld s
  | .fctx => Sys2Proof.Machine.execFctx s
  | .stab => Sys2Proof.Machine.execStab s
  | .atab => Sys2Proof.Machine.execAtab s
  | .msync => Sys2Proof.Machine.execMsync s
  | .stageEmptyWrite => Sys2Proof.Machine.execStageEmptyWrite s
  | .matrixCommandComplete => Sys2Proof.Machine.execMatrixCommandComplete s
  | .mctlResume => Sys2Proof.Machine.execMctlResume s
  | .mctlCancel => Sys2Proof.Machine.execMctlCancel s
  | .cukick => Sys2Proof.Machine.execCukick s
  | .clkick => Sys2Proof.Machine.execClkick s
  | .chainStart => Sys2Proof.Machine.execChainStart s
  | .copy => Sys2Proof.Machine.execCopy s
  | .deal => Sys2Proof.Machine.execDeal s
  | .gath => Sys2Proof.Machine.execGath s
  | .loopEntry => Sys2Proof.Machine.execLoopEntry s
  | .cond => Sys2Proof.Machine.execCond s
  | .jump => Sys2Proof.Machine.execJump s
  | .flag => Sys2Proof.Machine.execFlag s
  | .note => Sys2Proof.Machine.execNote s
  | .stop => Sys2Proof.Machine.execStop s
  | .chainCarryOnStop => Sys2Proof.Machine.execChainCarryOnStop s
  | .collectiveRendezvous => Sys2Proof.Machine.execCollectiveRendezvous s
  | .rendezvousTimeout => Sys2Proof.Machine.execRendezvousTimeout s
  | .allreduce => Sys2Proof.Machine.execAllreduce s
  | .reduceScatter => Sys2Proof.Machine.execReduceScatter s
  | .allgather => Sys2Proof.Machine.execAllgather s
  | .broadcast => Sys2Proof.Machine.execBroadcast s
  | .allToAll => Sys2Proof.Machine.execAllToAll s
  | .collectiveComplete => Sys2Proof.Machine.execCollectiveComplete s
  | .launchAccept => Sys2Proof.Machine.execLaunchAccept s
  | .roomRequest => Sys2Proof.Machine.execRoomRequest s
  | .blockGrant => Sys2Proof.Machine.execBlockGrant s
  | .blockRelease => Sys2Proof.Machine.execBlockRelease s
  | .blockRetire => Sys2Proof.Machine.execBlockRetire s
  | .blockFaultReport => Sys2Proof.Machine.execBlockFaultReport s
  | .gridTrigger => Sys2Proof.Machine.execGridTrigger s
  | .gridComplete => Sys2Proof.Machine.execGridComplete s
  | .gridCancelPoint => Sys2Proof.Machine.execGridCancelPoint s
  | .cancelArrive => Sys2Proof.Machine.execCancelArrive s
  | .cancelAck => Sys2Proof.Machine.execCancelAck s
  | .blockStop => Sys2Proof.Machine.execBlockStop s
  | .graphGridNode => Sys2Proof.Machine.execGraphGridNode s
  | .graphCopyNode => Sys2Proof.Machine.execGraphCopyNode s
  | .graphSignalNode => Sys2Proof.Machine.execGraphSignalNode s
  | .graphConditionalNode => Sys2Proof.Machine.execGraphConditionalNode s
  | .graphLoopNode => Sys2Proof.Machine.execGraphLoopNode s
  | .graphSwitchNode => Sys2Proof.Machine.execGraphSwitchNode s
  | .graphFinish => Sys2Proof.Machine.execGraphFinish s
  | .tailWrite => Sys2Proof.Machine.execTailWrite s
  | .policyPick => Sys2Proof.Machine.execPolicyPick s
  | .nop => Sys2Proof.Machine.execNop s
  | .grid => Sys2Proof.Machine.execGrid s
  | .graph => Sys2Proof.Machine.execGraph s
  | .signal => Sys2Proof.Machine.execSignal s
  | .wait => Sys2Proof.Machine.execWait s
  | .queueRelease => Sys2Proof.Machine.execQueueRelease s
  | .sliceEnd => Sys2Proof.Machine.execSliceEnd s
  | .stAgreement => Sys2Proof.Machine.execStAgreement s
  | .switchPoint => Sys2Proof.Machine.execSwitchPoint s
  | .overrunStop => Sys2Proof.Machine.execOverrunStop s
  | .coreSectionSave => Sys2Proof.Machine.execCoreSectionSave s
  | .switchOutComplete => Sys2Proof.Machine.execSwitchOutComplete s
  | .switchIn => Sys2Proof.Machine.execSwitchIn s
  | .dumpStart => Sys2Proof.Machine.execDumpStart s
  | .dumpComplete => Sys2Proof.Machine.execDumpComplete s
  | .heartbeat => Sys2Proof.Machine.execHeartbeat s
  | .commandProcessorRestart => Sys2Proof.Machine.execCommandProcessorRestart s
  | .garretReload => Sys2Proof.Machine.execGarretReload s
  | .contextPreservingEngineReset => Sys2Proof.Machine.execContextPreservingEngineReset s
  | .dieReset => Sys2Proof.Machine.execDieReset s
  | .packageReset => Sys2Proof.Machine.execPackageReset s
  | .firmwareImageStage => Sys2Proof.Machine.execFirmwareImageStage s
  | .liveUpdate => Sys2Proof.Machine.execLiveUpdate s
  | .liveUpdateRollback => Sys2Proof.Machine.execLiveUpdateRollback s
  | .create => Sys2Proof.Machine.execCreate s
  | .reset => Sys2Proof.Machine.execReset s
  | .reinit => Sys2Proof.Machine.execReinit s
  | .destroy => Sys2Proof.Machine.execDestroy s
  | .freeze => Sys2Proof.Machine.execFreeze s
  | .unfreeze => Sys2Proof.Machine.execUnfreeze s
  | .keyload => Sys2Proof.Machine.execKeyload s
  | .keyclear => Sys2Proof.Machine.execKeyclear s
  | .track => Sys2Proof.Machine.execTrack s
  | .timelineAllocate => Sys2Proof.Machine.execTimelineAllocate s
  | .timelineFree => Sys2Proof.Machine.execTimelineFree s
  | .partition => Sys2Proof.Machine.execPartition s
  | .loft => Sys2Proof.Machine.execLoft s
  | .attic => Sys2Proof.Machine.execAttic s
  | .atticrearm => Sys2Proof.Machine.execAtticrearm s
  | .qcreate => Sys2Proof.Machine.execQcreate s
  | .qdestroy => Sys2Proof.Machine.execQdestroy s
  | .policy => Sys2Proof.Machine.execPolicy s
  | .timeoff => Sys2Proof.Machine.execTimeoff s
  | .sample => Sys2Proof.Machine.execSample s
  | .sampleLatch => Sys2Proof.Machine.execSampleLatch s
  | .dbgHalt => Sys2Proof.Machine.execDbgHalt s
  | .dbgResume => Sys2Proof.Machine.execDbgResume s
  | .dbgStep => Sys2Proof.Machine.execDbgStep s
  | .dbgBrken => Sys2Proof.Machine.execDbgBrken s
  | .dbgTrace => Sys2Proof.Machine.execDbgTrace s
  | .unlock => Sys2Proof.Machine.execUnlock s
  | .spacereq => Sys2Proof.Machine.execSpacereq s
  | .noderead => Sys2Proof.Machine.execNoderead s
  | .htwrite => Sys2Proof.Machine.execHtwrite s
  | .htwriteBase => Sys2Proof.Machine.execHtwriteBase s
  | .mailboxUnassignedCode => Sys2Proof.Machine.execMailboxUnassignedCode s
  | .pmreq => Sys2Proof.Machine.execPmreq s
  | .pmAnswer => Sys2Proof.Machine.execPmAnswer s
  | .halfReadLatch => Sys2Proof.Machine.execHalfReadLatch s
  | .controlRegisterWrite => Sys2Proof.Machine.execControlRegisterWrite s
  | .hostPostedWrite => Sys2Proof.Machine.execHostPostedWrite s
  | .hostRead => Sys2Proof.Machine.execHostRead s
  | .getVersion => Sys2Proof.Machine.execGetVersion s
  | .getCapabilities => Sys2Proof.Machine.execGetCapabilities s
  | .negotiateAlgorithms => Sys2Proof.Machine.execNegotiateAlgorithms s
  | .getDigests => Sys2Proof.Machine.execGetDigests s
  | .getCertificate => Sys2Proof.Machine.execGetCertificate s
  | .challenge => Sys2Proof.Machine.execChallenge s
  | .getMeasurements => Sys2Proof.Machine.execGetMeasurements s
  | .clusterResetRelease => Sys2Proof.Machine.execClusterResetRelease s
  | .matrixRampStep => Sys2Proof.Machine.execMatrixRampStep s
  | .matrixIdleTimeout => Sys2Proof.Machine.execMatrixIdleTimeout s
  | .thermalThrottleStep => Sys2Proof.Machine.execThermalThrottleStep s
  | .thermalFatal => Sys2Proof.Machine.execThermalFatal s
  | .pcieLinkReset => Sys2Proof.Machine.execPcieLinkReset s
  | .reservationAnswer => Sys2Proof.Machine.execReservationAnswer s
  | .reservationRelease => Sys2Proof.Machine.execReservationRelease s

end Sys2Proof.Machine
end

