-- ==== Sys2Proof/Machine/Issue.lean ====
section
/-! DEFINITION. Issuing a bundle (09 R212 to R221; 06 R148, R156): which slot issues, the fetch, the interlocks and short
stalls, both slots of the bundle as one unit, gangs, and what moves on afterwards. -/

namespace Sys2Proof.Machine

/-! Choosing the slot (06 R148). -/

/-- A slot that may issue: READY, not a follower, past the STALL count of its last bundle (09 R217), and not passed over by its own
`yield`. -/
def Core.issuable (c : Core) (clock i : Nat) : Bool :=
  let x := c.slot i
  x.st == .ready && decide (x.stallTo ≤ clock) && !(x.yielded.any (fun j => (c.slot j).st == .ready))

/-- The slot of a core that issues next, of those that may: from the one after the last, in ascending order modulo 4. -/
def Core.pick (c : Core) (clock : Nat) (held : Nat → Bool) : Option Nat :=
  ([1, 2, 3, 4].map (fun k => (c.last + k) % 4)).find? (fun i => c.issuable clock i && !held i)

/-- A slot held by a halt of its core (15 R387). -/
def SlotSt.isHalted : SlotSt → Bool
  | .halted _ => true
  | .empty => false
  | .ready => false
  | .stalled _ => false
  | .parked _ => false
  | .follower _ => false
  | .stopped _ => false

/-- A gang's leader held for a cycle: while a follower's core is halted (15 R387), and in every fourth one, which a follower's core
keeps for a READY slot of its own (06 R148; log 72). -/
def State.gangWaits (s : State) (core slot : Nat) : Bool :=
  match (s.slotAt core slot).gang with
  | some r => ((gangCores r).filter (fun c => c != core)).any (fun c =>
      (s.slotAt c slot).st.isHalted || (s.clock % 4 == 0 && (s.core c).slots.toList.any (fun x => x.st == .ready)))
  | none => false

/-- The core and slot that issue next; the core is a free choice (log 21). -/
def State.pick (s : State) : Option (SlotRef × State) :=
  let l := s.cores.entries.filterMap (fun e => (e.2.pick s.clock (s.gangWaits e.1)).map (fun i => (e.1, i)))
  if l.isEmpty then none
  else
    let (n, s) := s.choose l.length
    let (core, i) := (l.drop n).headD (0, 0)
    some (⟨core, i⟩, s)

/-- The state with a slot chosen: the rotation moves on, on the cores of its followers too (06 R156), and the others' `yield` no
longer waits for it. -/
def State.choosing (s : State) (r : SlotRef) : State :=
  let s := match (s.slotAt r.core r.slot).gang with
    | some g => (gangCores g).foldl (fun (s : State) c => s.modCore c (fun k => { k with last := r.slot })) s
    | none => s
  let s := s.modCore r.core (fun c =>
    { c with last := r.slot, slots := c.slots.map (fun x => { x with yielded := x.yielded.filter (fun j => j != r.slot) }) })
  { (s.modSlotAt r.core r.slot (fun x => { x with yielded := [], npc := x.pc + 8 })) with cur := r, performed := true }

/-! Fetch (01 R15, R26; 04 R102). -/

/-- The bytes of a bundle: every write that was in the slot's view as its activation began is seen, a later one may be (04
R102). -/
def State.fetchBytes (s : State) (a keyid : Nat) : List Byte × State :=
  if s.eager then s.readKey a 8 keyid
  else
    let (u, _, s) := s.readUnder s.myAgent s.me.fetchView ⟨a, 8, [], none, 0, keyid⟩
    (u.bytes, s)

/-- The bundle at the running slot's pc, or the state of the fetch's trap, walk or memory error. A fetch uses no capability
register, so the CAP of its XVAL2 is free (01 R27; log 31). -/
def State.fetch (s : State) : Except State (Nat × State) :=
  let x := s.me
  match s.access x.code (Config.freeBits 4 s.free).toNat .fetch x.pc 8 8 with
  | .error e => .error { e with free := e.free + 1 }
  | .ok (.mem a k _) =>
    (match (linesOf a 8).find? s.poison.contains with
     | some l => .error (s.memoryError (64 * l))
     | none =>
       let (bs, s) := s.fetchBytes a k
       .ok (leNat bs, s))
  | .ok (.host a _) =>
    (match s.hostBytes a 8 with
     | .error e => .error e
     | .ok (bs, s) => .ok (leNat bs, s.hostDone))
  | .ok (.ctrl _) => .ok (0, s)
  | .ok (.qwin _) => .ok (0, s)

/-! Hazards (09 R217 to R220). -/

/-- The fixed latency of an A instruction's result (09 R218). -/
def latency (i : Instr) : Nat :=
  match i with
  | .fadd _ _ _ _ _ => 4
  | .fsub _ _ _ _ _ => 4
  | .fmul _ _ _ _ _ => 4
  | .ffma _ _ _ _ _ _ => 4
  | .fmin _ _ _ _ => 4
  | .fmax _ _ _ _ => 4
  | .fsgn _ _ _ _ _ => 4
  | .fcmp _ _ _ _ _ => 4
  | .fclass _ _ _ => 4
  | .fcvt _ _ _ _ _ _ => 4
  | .vadd _ _ _ _ ty _ _ => if tyFloat ty then 6 else 1
  | .vsub _ _ _ _ ty _ _ => if tyFloat ty then 6 else 1
  | .vmul _ _ _ _ ty _ _ => if tyFloat ty then 6 else 1
  | .vfma _ _ _ _ ty _ _ => if tyFloat ty then 6 else 1
  | .vmin _ _ _ _ ty _ => if tyFloat ty then 6 else 1
  | .vmax _ _ _ _ ty _ => if tyFloat ty then 6 else 1
  | .vabs _ _ _ ty _ _ => if tyFloat ty then 6 else 1
  | .vneg _ _ _ ty _ _ => if tyFloat ty then 6 else 1
  | .vclamp _ _ _ _ ty _ => if tyFloat ty then 6 else 1
  | .vcmp _ _ _ _ ty _ => if tyFloat ty then 6 else 1
  | .vcvt _ _ _ _ _ _ => 6
  | .vcvtSat _ _ _ _ _ _ => 6
  | .vred _ _ _ _ _ _ => 8
  | .vdot _ _ _ _ _ _ => 8
  | .vsfu _ _ _ _ _ _ => 12
  | _ => 1

/-- The file code and index of a register in the XVAL of STALLSHORT (09 R220). -/
def regCode : RegName → Nat
  | .g i => i.toNat
  | .v i => 32 + i.toNat
  | .k i => 64 + i.toNat
  | .c4 i => 96 + i.toNat

/-- The producers of a slot whose latency has not elapsed. -/
def Slot.short (x : Slot) (r : RegName) : Option Pend := x.pend.find? (fun p => p.reg == r && decide (x.dist - p.at_ < p.lat))

/-- The registers that an instruction of a slot reads: `sendt` reads g1 in a timed activation alone (07 R173). -/
def Slot.reads (x : Slot) (i : Instr) : List RegName :=
  match i with
  | .sendt _ _ _ _ => if x.timed then i.sources else i.sources.dropLast
  | _ => i.sources

/-- The sources of a bundle of a slot, the C slot's first (09 R220). -/
def Slot.sourcesOf (x : Slot) (b : Bundle) : List RegName := x.reads b.c ++ x.reads b.a

/-- The destinations of a bundle. -/
def bundleDests (b : Bundle) : List RegName := b.c.dests ++ b.a.dests

/-- A bundle is held by the scoreboard (09 R219): for a register that it reads or writes by a variable-latency write still under
way, for one that it writes by a fixed-latency one too. -/
def Slot.interlocked (x : Slot) (b : Bundle) (clock : Nat) : Bool :=
  (x.sourcesOf b ++ bundleDests b).any x.board.contains ||
    (bundleDests b).any (fun r => x.pend.any (fun p => p.reg == r && decide (clock < p.lands)))

/-- The slot as a bundle reads it with SCHK = 0: each short source is the old value or the new one, as chosen (09 R220);
the registers so replaced are returned with their values. -/
def State.shortReads (s : State) : List RegName → State × List (RegName × RegVal)
  | [] => (s, [])
  | r :: t =>
    let (s, l) := State.shortReads s t
    match s.me.short r with
    | none => (s, l)
    | some p =>
      let (n, s) := s.choose 2
      if n = 1 || l.any (fun e => e.1 == r) then (s, l) else ((s.modMe (fun x => x.wr r p.old)), (r, s.me.rd r) :: l)

/-! Both slots as one unit (09 R213). -/

/-- Operations that leave the core, which a gang's leader alone performs (06 R156). -/
def leaderOnly (i : Instr) : Bool :=
  match i with
  | .send _ _ _ => true
  | .sendt _ _ _ _ => true
  | .ctrarm _ _ _ => true
  | .map _ _ _ _ _ => true
  | .grant _ _ _ _ _ => true
  | .unmap _ _ _ _ => true
  | .rwin _ _ _ _ => true
  | .mq _ _ _ _ => true
  | .dharv _ _ _ _ => true
  | .copygo _ _ => true
  | .clgo _ _ => true
  | .skeep _ => true
  | .sksum _ _ => true
  | .glaunch _ _ => true
  | .gtrig => true
  | .gexit _ => true
  | .gcancel _ => true
  | .done => true
  | .yield => true
  | .idle => true
  | .gang _ _ => true
  | .disband => true
  | .xchg _ _ _ => true
  | .bar _ => true
  | .trap _ => true
  | .xret => true
  | .brk _ => true
  | _ => false

/-- An instruction that is a release of the running slot's accesses (05 R126), or acts outside its core: in the mode that runs
the reference machine it waits until they are in order (log 20). -/
def releases (i : Instr) : Bool :=
  leaderOnly i && (match i with
    | .yield => false
    | .idle => false
    | .xchg _ _ _ => false
    | .disband => false
    | .trap _ => false
    | .xret => false
    | .brk _ => false
    | .done => false
    | _ => true)

/-- The C instruction of a bundle run by the running slot, a follower's part of it in a gang. -/
def State.runC (s : State) (i : Instr) : Out := if s.me.gangRole = 2 && leaderOnly i then .next s else exec i s

/-- An instruction writes SRNG itself (08 R203; 12 R340). -/
def writesSrng (i : Instr) : Bool :=
  match i with
  | .csrw _ _ n => n == 0x15
  | .csrs _ _ n => n == 0x15
  | .csrc _ _ n => n == 0x15
  | _ => false

/-- The A instruction's results merged into the state that the C instruction left (09 R213): a write to a register takes the place
of an earlier result still to land there (R219), and `xret` lands its own bundle's (R221). Where the C instruction writes SRNG and
the A instruction draws from it, the written value stands (log 96). -/
def State.merge (s0 s1 s2 : State) (b : Bundle) : State :=
  let x0 := s0.me
  let y := s2.me
  let dests := b.a.dests
  let lat := match b.c with
    | .xret => 1
    | _ => latency b.a
  let s := s1.modSlotAt s0.cur.core s0.cur.slot (fun x =>
    let x := dests.foldl (fun (x : Slot) r => x.wr r (y.rd r)) x
    let old := x.pend.filter (fun p => !(b.c.dests ++ dests).contains p.reg)
    if lat = 1 then { x with pend := old }
    else { x with pend := old ++ dests.map (fun r => ⟨r, x0.rd r, lat, x0.dist, s0.clock + lat⟩) })
  let s := if !writesSrng b.c then s.modCore s0.cur.core (fun c => { c with srng := s2.srng }) else s
  { s with free := s2.free }

/-- Both instructions of a bundle run by the running slot. -/
def State.runBundle (s : State) (b : Bundle) : Out :=
  match s.runC b.c with
  | .next s1 =>
    if !s1.performed then .next s1
    else
      match exec b.a { s with free := s1.free } with
      | .next s2 => .next (State.merge s s1 s2 b)
      | .fault f => .fault f
      | .refused r => .refused r
  | .fault f => .fault f
  | .refused r => .refused r

/-! Short reads (09 R220). -/

/-- The registers replaced by short reads put back, save those that the bundle has written (09 R220, R221). -/
def State.putBack (s : State) (r : SlotRef) (l : List (RegName × RegVal)) (b : Bundle) : State :=
  s.modSlotAt r.core r.slot (fun x =>
    l.foldl (fun (x : Slot) e => if s.performed && (bundleDests b).contains e.1 then x else x.wr e.1 e.2) x)

/-- A bundle run by the running slot once nothing holds it: a short source traps under SCHK = 1, and else is read as it was or as
it will be. -/
def State.runOne (s : State) (b : Bundle) : Out :=
  let x := s.me
  match (if x.schk then (x.sourcesOf b).find? (fun q => (x.short q).isSome) else none) with
  | some q =>
    let p := (x.short q).getD ⟨q, .word 0, 0, 0, 0⟩
    .next (s.raise .stallshort (BitVec.ofNat 64 (regCode q)) (BitVec.ofNat 64 (p.lat - (x.dist - p.at_))))
  | none =>
    let (t, l) := s.shortReads (x.sourcesOf b)
    match t.runBundle b with
    | .next u => .next (u.putBack s.cur l b)
    | o => o

/-! Gangs (06 R156, R157). -/

/-- The state as a member of the running gang sees it: its own registers at the leader's bundle. -/
def State.asMember (s : State) (core : Nat) : State :=
  let pc := s.me.pc
  let t := if core = s.cur.core then s else s.modSlotAt core s.cur.slot (fun x => { x with pc := pc, npc := pc + 8 })
  { t with cur := ⟨core, s.cur.slot⟩, performed := true }

/-- The first member, the leader before the others in ascending order, in which the bundle does not perform: the state that the
gang is left in. -/
def State.gangHeld (s : State) (b : Bundle) : List Nat → Option Out
  | [] => none
  | c :: t =>
    match (s.asMember c).runOne b with
    | .next s1 =>
      if s1.performed then State.gangHeld { s with free := s1.free } b t
      else
        match (s1.slotAt c s.cur.slot).st, decide (c = s.cur.core) with
        | .stopped code, false =>
          if 256 ≤ code then some (.next (s.raise .gangfault (BitVec.ofNat 64 (c % (s.me.gang.getD ⟨0, 1⟩).size))
            (BitVec.ofNat 64 (code - 256))))
          else some (.next { s1 with cur := s.cur })
        | _, _ => some (.next { s1 with cur := s.cur })
    | o => some o

/-- A member's vector registers after its bundle: what the leader's exchange has put into one stands (10 R270). -/
def Slot.keepExchange (x : Slot) (b : Bundle) (now : Vector VWord 32) : Slot :=
  match b.c with
  | .xchg vd _ _ => x.wrV vd (now.get (Fin.ofNat 32 vd.toNat))
  | _ => x

/-- The bundle performed by every member in turn, each reading its registers as they stood at issue (09 R213; 10 R270); one that
the leader's instruction has disbanded performs no more. -/
def State.gangAll (s : State) (b : Bundle) (leader : SlotRef) (pc npc : Int) : List Nat → State → Out
  | [], t => .next { t with cur := leader, performed := true }
  | c :: l, t =>
    let now := t.slotAt c leader.slot
    if c ≠ leader.core ∧ now.gang = none then State.gangAll s b leader pc npc l t
    else
      let u := { t.modSlotAt c leader.slot (fun x =>
          if c = leader.core then x else { x with pc := pc, npc := npc, v := (s.slotAt c leader.slot).v }) with
        cur := ⟨c, leader.slot⟩, performed := true }
      match u.runOne b with
      | .next v =>
        State.gangAll s b leader pc npc l
          (if c = leader.core then v else v.modSlotAt c leader.slot (fun x => x.keepExchange b now.v))
      | o => o

/-- A bundle of a gang: checked in every member before it performs in any. -/
def State.runGang (s : State) (b : Bundle) (r : GangRef) : Out :=
  let cores := s.cur.core :: (gangCores r).filter (fun c => c != s.cur.core)
  match s.gangHeld b cores with
  | some o => o
  | none => s.gangAll b s.cur s.me.pc (s.me.pc + 8) cores s

/-! The bundle. -/

/-- The slot moved on after its bundle, whether it performed, trapped or was held, and the slots of the followers that performed it
with it; no bundle follows before its STALL count, whatever the slot waits for meanwhile (09 R217). -/
def State.advance (s : State) (r : SlotRef) (members : List Nat) (b : Bundle) : State :=
  let until_ := s.clock + 1 + b.stall.toNat
  let s := s.modSlotAt r.core r.slot (fun x =>
    let x := { x with pc := x.npc }
    if !s.performed then x
    else
      { x with dist := x.dist + 1 + b.stall.toNat, walkFault := none,
               st := if x.st = .ready ∧ b.stall ≠ 0 then .stalled until_ else x.st,
               stallTo := if b.stall = 0 then x.stallTo else until_ })
  if !s.performed then s
  else
    let s := (members.filter (fun c => c != r.core)).foldl (fun (s : State) c => s.modSlotAt c r.slot (fun x =>
      { x with dist := x.dist + 1 + b.stall.toNat, walkFault := none })) s
    s.modCtx (s.core r.core).ctx (fun c => { c with counts := c.counts.set 1 (c.counts.get 1 + 1) })

/-- The decoded bundle issued by the running slot: the interlocks and the order of accesses of every member, then both
instructions. -/
def State.issueBundle (s : State) (b : Bundle) : Out :=
  let r := s.cur
  let members := s.memberCores
  if members.any (fun c => (s.slotAt c r.slot).interlocked b s.clock) then .next s.stall
  else if releases b.c && !s.allSettled then .next (s.park .order)
  else
    match (match s.me.gang with
      | some g => s.runGang b g
      | none => s.runOne b) with
    | .next u => .next (u.advance r members b)
    | o => o

/-- The state after a fetch or decoding that took a trap: the slot goes on at its npc. -/
def State.leave (s : State) (r : SlotRef) : State := s.modSlotAt r.core r.slot (fun x => { x with pc := x.npc })

/-- The next bundle of the chosen slot (09 R213, R214). -/
def State.issue (s : State) (r : SlotRef) : Out :=
  let s := s.choosing r
  match s.fetch with
  | .error e => .next (e.leave r)
  | .ok (w, s) =>
    let s := { s with bundle := BitVec.ofNat 64 w }
    match decodeBundle w with
    | .error t =>
      .next ((s.raise (if t.isIllegal then .illegal else .resfield) (BitVec.ofNat 64 w) (BitVec.ofNat 64 t.xval2)).leave r)
    | .ok b => s.issueBundle b

/-! Time (log 3). -/

/-- ELAPSED of a slot in microseconds (14 R365). -/
def Slot.elapsed (x : Slot) (clock : Nat) : Nat := (clock - x.began) / Config.cyclesPerMicro

/-- A slot whose watchdog counts (14 R365; 15 R387). -/
def Slot.watched (x : Slot) : Bool :=
  match x.st with
  | .ready => true
  | .stalled _ => true
  | .parked _ => true
  | .empty => false
  | .follower _ => false
  | .halted _ => false
  | .stopped _ => false

/-- The steps of a core that its clock makes due. -/
def Core.timers (c : Core) (core clock : Nat) : List Due :=
  (List.range 4).flatMap (fun i =>
    let x := c.slot i
    (match x.st with
     | .stalled t => if t ≤ clock then [⟨.stallExpire, [core, i]⟩] else []
     | _ => []) ++
    (if x.watched && decide (c.hwLimit.toNat ≤ x.elapsed clock) then [⟨.hwdogExpire, [core, i]⟩] else []))

/-- The steps of a context that the clock makes due (07 R189; 13 R350; 14 R366). -/
def State.ctxTimers (s : State) (i : Nat) (c : Ctx) : List Due :=
  if c.st ≠ .running then []
  else
    (match c.round with
     | some r =>
       if r.open_ then (if r.next ≤ s.clock then [⟨.gvtPass, [i]⟩] else [])
       else if r.start + c.page.gvtctl.toNat % 64 * Config.cyclesPerMicro ≤ s.clock then [⟨.gvtRoundStart, [i]⟩] else []
     | none => []) ++
    (match c.sw with
     | .none_ => (match c.sliceEnd with
       | some t => if t ≤ s.clock then [⟨.sliceEnd, [i]⟩] else []
       | none => [])
     | .agreed st => if st ≤ s.now then [⟨.switchPoint, [i]⟩] else []
     | .window st _ =>
       (if s.canSwitchOut i then [⟨.switchOutComplete, [i]⟩] else []) ++
       (if st + 2000000 ≤ s.now then
          (s.clustersOf i).flatMap (fun k => ((s.cluster k).chains.filter (fun x => x.ctx == i && !x.stopped)).map
            (fun x => ⟨.chainCarryOnStop, [k, x.id]⟩))
        else []))

/-- Cycles from one read of a WAIT entry's dword to the next (log 35). -/
def waitCycles : Nat := 64

/-- The steps of a package that the clock makes due (13 R347, R357, R358; 15 R386). -/
def State.pkgTimers (s : State) (i : Nat) (p : Package) : List Due :=
  (if p.fw.beats s.clock && !p.halted then [⟨.heartbeat, [i]⟩] else []) ++
  (match p.fw.update with
   | .handed t => if t + 5000 * Config.cyclesPerMicro ≤ s.clock then [⟨.liveUpdateRollback, [i]⟩] else []
   | .none_ => []
   | .quiescing => []) ++
  (if p.samples.any (fun m => decide (m.time ≤ s.now)) then [⟨.sampleLatch, [i]⟩] else []) ++
  (if s.clock % waitCycles = 1 then (p.queues.entries.filter (fun e => e.2.waits)).map (fun e => ⟨.wait, [i * 4096 + e.1]⟩) else [])

/-- The steps of a die that the clock makes due (13 R355). -/
def State.dieTimers (s : State) (d : Die) : List Due :=
  d.coll.filterMap (fun c => if !c.started && !c.ended && decide (c.since + 100000 * Config.cyclesPerMicro ≤ s.clock)
    then some ⟨.rendezvousTimeout, [c.ctx, bitsOf (c.desc.get 0).toNat 32 32]⟩ else none)

/-- Core cycles for which an engine holds a ramp step at the least: 2 µs (15 R391). -/
def rampCycles : Nat := 7200

/-- The steps of a cluster's engine that the clock makes due: it ramps while it is in use, up to its die's step, and begins again once
it has begun no K-step for 100 µs (15 R391, R392; log 87). -/
def State.engineTimers (s : State) (i : Nat) (e : Engine) : List Due :=
  let idle := decide (e.lastStep + 100 * Config.cyclesPerMicro ≤ s.clock)
  (if !idle && decide (e.ramp < min 4 (s.die (i / 256)).throttle) && (e.rampAt == 0 || decide (e.rampAt + rampCycles ≤ s.clock))
    then [⟨.matrixRampStep, [i]⟩] else []) ++
  (if idle && decide (1 < e.ramp) then [⟨.matrixIdleTimeout, [i]⟩] else [])

/-- Every step that the clock makes due, or that a switch window lets happen (14 R366). -/
def State.timers (s : State) : List Due :=
  s.cores.entries.flatMap (fun e => e.2.timers e.1 s.clock ++
    (if e.2.window && s.canSave e.1 then [⟨.coreSectionSave, [e.1]⟩] else [])) ++ s.ctxs.entries.flatMap (fun e => s.ctxTimers e.1 e.2) ++
    s.pkgs.entries.flatMap (fun e => s.pkgTimers e.1 e.2) ++ s.dies.entries.flatMap (fun e => s.dieTimers e.2) ++
    s.clusters.entries.flatMap (fun e => s.engineTimers e.1 e.2.engine)

/-- A step of a policy program's run: its next word acts, and the run ends with a result, or in a fault at 512 steps or off the
program (13 R353, R354). -/
def State.policyStep (s : State) (r : PolRun) : Out :=
  match ((s.ctx r.ctx).policy[r.pc]?).bind (fun w => decodePolicy w.toNat) with
  | none => .next (s.polEnd r none)
  | some i =>
    match exec i s with
    | .next t =>
      (match t.polRun with
       | none => .next t
       | some r =>
         if 512 ≤ r.steps then .next (t.polEnd r none)
         else match r.result with
           | some v => .next (t.polEnd r (some v))
           | none => .next t)
    | o => o

/-- A step that completes a store or a load of the control page or the command window, before any other of its slot (01 R16); a
deferred kick that waits for room is none (12 R323). -/
def Due.prompt (d : Due) : Bool :=
  match d.step with
  | .controlRegisterWrite => true
  | .halfReadLatch => true
  | .pmreq => true
  | .mctlResume => true
  | .mctlCancel => true
  | .cukick => d.args.getD 3 0 == 0
  | .clkick => d.args.getD 3 0 == 0
  | _ => false

/-- Steps that one agent takes in the order in which they reached it: the requests of the host that a service core serves, and what
a register write of one has started there, a TAIL or a RESET (05 R133, R134; 15 R383); the broadcasts of a timeline's GVT that
reach a cluster (07 R189). -/
def Due.lane (d : Due) : Option (Nat × Nat) :=
  let x (i : Nat) : Nat := d.args.getD i 0
  match d.step with
  | .hostPostedWrite => some (serviceAgent (x 0) (hostUnit (x 1) (x 2)), 0)
  | .hostRead => some (serviceAgent (x 0) (hostUnit (x 1) (x 2)), 0)
  | .tailWrite => some (serviceAgent (x 0 / 4096) 0, 0)
  | .reset => some (serviceAgent (x 0) 0, 0)
  | .gvtAdopt => some (x 0, 1 + x 1)
  | _ => none

/-- The places on the agenda of the steps that may come next: the first of each lane, and every one that has none. -/
def eligibleDues (l : List Due) : List Nat :=
  (List.range l.length).filter (fun i => match (l[i]?).bind Due.lane with
    | some u => !(l.take i).any (fun d => d.lane == some u)
    | none => true)

/-- The step that is due next, the others left on the agenda: one that completes a slot's access to the control page first; then
the oldest, in every other cycle, so that steps that follow each other without end hold up no slot; or in the mode that runs the
reference machine one freely chosen, or none yet (logs 1, 20). -/
def State.nextDue (s : State) : Option Due × State :=
  match s.agenda.findIdx? Due.prompt with
  | some i => (s.agenda[i]?, { s with agenda := s.agenda.eraseIdx i })
  | none =>
    match s.agenda with
    | [] => (none, s)
    | d :: rest =>
      if s.eager then
        if s.clock % 2 = 0 then (some d, { s with agenda := rest }) else (none, s)
      else
        let l := eligibleDues s.agenda
        let (n, t) := s.choose (l.length + 1)
        match l[n]? with
        | some i => (s.agenda[i]?, { t with agenda := s.agenda.eraseIdx i })
        | none => (none, t)

/-- A step that is due runs; where a page that it reaches has missed, and no walk for it has granted that page, nothing of it
happens yet: it waits on the die's walker, and runs again when the walk completes (03 R70, R85; log 54). -/
def State.runDue (s : State) (d : Due) : Out :=
  match exec d.step { s with args := d.args, missed := [] } with
  | .next t =>
    (match t.missed.find? (fun m => !s.granted.contains (d, m)) with
     | some m => .next (s.askWalk m.core m.ctx m.space m.vpn [] [(d, m)])
     | none => .next { t with missed := [], granted := t.granted.filter (fun e => e.1 != d) })
  | o => o

/-- The steps that the clock makes due and that the agenda does not hold yet. -/
def State.newTimers (s : State) : List Due := s.timers.filter (fun d => !s.agenda.contains d)

/-- The bundle of a slot has issued: it was not held, parked or sent to walk before it performed. -/
def State.hasIssued (s : State) (r : SlotRef) : Bool :=
  s.performed || (match (s.slotAt r.core r.slot).st with
    | .stalled _ => false
    | .parked _ => false
    | .empty => true
    | .ready => true
    | .follower _ => true
    | .halted _ => true
    | .stopped _ => true)

/-- The next bundle of a chosen slot; a core under a debug step halts again after one that issues (15 R387). -/
def State.runSlot (s : State) (r : SlotRef) : Out :=
  let stepping := (s.core r.core).dbg.stepping
  match s.issue r with
  | .next t => .next (if stepping && t.hasIssued r then t.haltCore r.core else t)
  | o => o

/-- Cores of a context with a READY slot (15 R384 event 0). -/
def State.readyCores (s : State) (ctx : Nat) : Nat :=
  (s.cores.entries.filter (fun e => e.2.ctx == ctx && e.2.slots.toList.any (fun x => x.st == .ready))).length

/-- A core whose slots no longer wait, after their `yield`, for one that has left READY (06 R148). -/
def Core.yieldsKept (c : Core) : Core :=
  { c with slots := c.slots.map (fun x => { x with yielded := x.yielded.filter (fun j => (c.slot j).st == .ready) }) }

/-- One cycle later (log 3). -/
def State.tick (s : State) : State :=
  { s with clock := s.clock + 1, cores := s.cores.mapVal (fun _ c => c.yieldsKept), ctxs := s.ctxs.mapVal (fun i c =>
      if c.st = .running then { c with counts := c.counts.set 0 (c.counts.get 0 + BitVec.ofNat 64 (s.readyCores i)) } else c) }

/-- The outcome one cycle later. -/
def ticked (o : Out) : Out :=
  match o with
  | .next s => .next s.tick
  | .fault f => .fault f
  | .refused r => .refused r

end Sys2Proof.Machine
end

