-- ==== Sys2Proof/Machine/Step.lean ====
section
/-! DEFINITION. The step of the pod: a word of a policy program that runs, else a step that is due, else the next bundle of
a slot, else one cycle (logs 1, 2, 3). -/

namespace Sys2Proof.Machine

/-- One step of the machine. -/
def step (s : State) : Host.Outcome State Fault Refusal :=
  match s.polRun with
  | some r => ticked (s.policyStep r)
  | none =>
    match s.nextDue with
    | (some d, s) => ticked (s.runDue d)
    | (none, s) =>
      match s.newTimers with
      | [] =>
        (match s.pick with
         | some (r, s) => ticked (s.runSlot r)
         | none => .next s.tick)
      | t :: ts => .next { s with agenda := s.agenda ++ t :: ts }

/-- The address that the state with a fetch word holds its bundle at. -/
def fetchAt : Nat := 0

/-- The context of core 0 with its policy program replaced by one word, and that program about to run. -/
def State.withPolicyWord (s : State) (w : Nat) : State :=
  let ctx := (s.core 0).ctx
  { s.modCtx ctx (fun c => { c with policy := [BitVec.ofNat 32 w] }) with
    agenda := [], polRun := some ⟨ctx, 0, [], [], Vector.replicate 8 0, 0, 0, none, false⟩ }

/-- Slot 0 of core 0 about to fetch a bundle that stands at address 0: a READY slot, a code capability over the first
64 KiB of GLOBAL, and the translation entry that maps its page (log 6). -/
def State.withBundle (s : State) (b : Nat) : State :=
  let ctx := (s.core 0).ctx
  let e : TlbEntry := ⟨ctx, 0, 0, 1, 0, 0x7F, 0, 0, 0, 0, false⟩
  let s := s.modCore 0 (fun c =>
    { (c.setSlot 0 { c.slot 0 with st := .ready, pc := 0, npc := 0, code := Cap.make true 0 4 0xFFF 0 4 0, yielded := [],
                                   gang := none, board := [], stallTo := 0 }) with
      pageTlb := [e], rangeTlb := [], last := 3 })
  { s with cores := ⟨[(0, s.core 0)]⟩, mem := s.mem.write fetchAt (leBytes 8 b), agenda := [], polRun := none, poison := [],
           writes := s.writes.filter (fun _ w => !w.meets fetchAt 8) }

/-- The state whose next step fetches and runs the instruction of a table word (log 6). -/
def State.withFetchWord (s : State) (_nbits w : Nat) : State :=
  match tableForm w with
  | some (.cWord b) => s.withBundle (encodeBundle b)
  | some (.aWord b) => s.withBundle (encodeBundle b)
  | some (.policyWord _) => s.withPolicyWord w
  | none => s.withBundle (bitsOf w 0 32)

end Sys2Proof.Machine
end

