-- ==== Sys2Proof/Safety.lean ====
section
/-! DEFINITION. What counts as a safe step, in the terms that the statements use: an answer with a next state, the frame of an
instruction that works on registers, the draws of a vector instruction, and the invariant of memory. -/

namespace Sys2Proof.Machine

/-- An outcome is a next state that has a property: neither a fault nor a refusal. -/
def Answers (o : Out) (p : State → Prop) : Prop := ∃ t, o = .next t ∧ p t

/-- The running slot with its registers replaced by another's. -/
def Slot.withRegs (x y : Slot) : Slot := { x with g := y.g, c := y.c, v := y.v, k := y.k }

/-- The frame of an instruction that works on registers: nothing of `t` differs from `s` but the listed registers of the
running slot, the core's rounding generator, and the counter of free values. -/
structure OnlyRegs (s t : State) (l : List RegName) : Prop where
  /-- Every register that is not listed reads as before. -/
  regs : ∀ r, r ∉ l → t.me.rd r = s.me.rd r
  /-- The running slot's status, trap banks and other fields are as before. -/
  slot : t.me = s.me.withRegs t.me
  /-- The core's registers other than its slots and its generator are as before. -/
  core : t.myCore = { s.myCore with slots := t.myCore.slots, srng := t.myCore.srng }
  /-- The core's other slots are as before. -/
  slots : ∀ i : Fin 4, i ≠ Fin.ofNat 4 s.cur.slot → t.myCore.slots.get i = s.myCore.slots.get i
  /-- Every other core is as before. -/
  others : ∀ i, i ≠ s.cur.core → t.core i = s.core i
  /-- Everything else, all of memory with it, is as before. -/
  rest : t = { s with cores := t.cores, free := t.free }

/-- The n-th value, from 0, that a generator draws from a state (08 R203). -/
def drawNo (x : BitVec 32) : Nat → Nat
  | 0 => (srngDraw x).1
  | n + 1 => drawNo (srngDraw x).2 n

/-- The generator after n draws (08 R203). -/
def srngAfter (x : BitVec 32) : Nat → BitVec 32
  | 0 => x
  | n + 1 => srngAfter (srngDraw x).2 n

/-- Active elements below an element: the draws made before its own (08 R203). -/
def activeBelow (k : Word) (i : Nat) : Nat := ((List.range i).filter (predBit k)).length

/-- Bytes of memory away from a range read as before. -/
def State.sameOutside (s t : State) (a n : Nat) : Prop := ∀ b, (b < a ∨ a + n ≤ b) → t.mem.byte b = s.mem.byte b

/-- The invariant of memory: its canonical form, addresses strictly rising and no cell at what an unlisted address reads. -/
def State.inv (s : State) : Prop := s.mem.wf = true

end Sys2Proof.Machine
end

