-- ==== Sys2Proof/Certificates/Slice0/Obligations.lean ====
section
/-! DEFINITION. The statements for the provers: what the rules of the spec say that an instruction, a step or the machine does. A step that
no bundle runs takes its arguments from the agenda, which is the form the model gives to what the spec leaves to time (log 1, 4). -/

open Sys2Proof Sys2Proof.Machine

/-! Encoding. -/

/-- Every bundle that the decoder can give decodes from its own words, each operand at each value (09 R212 to R230). -/
def everyBundleRoundTrips : Prop :=
  ∀ b : Bundle, b.wf = true → comboBad b.c b.a = false → decodeBundle (encodeBundle b) = .ok b

/-- A dword that decodes to a bundle is the encoding of that bundle, and the bundle is well formed: no bit of a bundle is
ignored (09 R212, R214, R215). -/
def Obligations.DecodedBundleReencodes : Prop :=
  ∀ (w : Nat) (b : Bundle), w < 2 ^ 64 → decodeBundle w = .ok b →
    encodeBundle b = w ∧ b.wf = true ∧ comboBad b.c b.a = false

/-- Each word of a policy program round-trips both ways (13 R353, R354). -/
def policyWordsRoundTrip : Prop :=
  (∀ i : Instr, i.isPolicy = true → encodePolicy i < 2 ^ 32 ∧ decodePolicy (encodePolicy i) = some i) ∧
  (∀ (w : Nat) (i : Instr), w < 2 ^ 32 → decodePolicy w = some i → i.isPolicy = true ∧ encodePolicy i = w)

/-- Decoding what the encoder writes gives back every well-formed bundle and every policy word (09 R222 to R228; 13 R353), with every
operand at every value that its field admits. -/
def Obligations.EveryInstructionRoundTrips : Prop := everyBundleRoundTrips ∧ policyWordsRoundTrip

/-- Words that the spec writes out, or that are written bit by bit from its encoding rows, one or more of each family. -/
def Obligations.SpecWordsDecode : Prop :=
  -- R242: `li g9, 3` is the word 0x0192_0003; R263: `bcc.lt g4, g6` back one bundle is 0x0091_0DFF
  decodeBundle 0x01920003 = .ok ⟨false, 0, .li 9 3 none, .anop⟩ ∧
  decodeBundle 0x00910DFF = .ok ⟨false, 0, .bcc 2 4 6 (-1) none, .anop⟩ ∧
  decodeBundle 0x00914DFD = .ok ⟨false, 0, .bcc 2 5 6 (-3) none, .anop⟩ ∧
  -- R245: `fcvt.b8p4.f32.rne g5, g6` is 0x48A6_A240; R246: `vadd.f32.rne.k1 v3, v4, v5` is 0x6064_2990
  decodeBundle (0x48A6A240 * 2 ^ 32) = .ok ⟨false, 0, .cnop, .fcvt 5 6 0x14 9 0 0⟩ ∧
  decodeBundle (0x60642990 * 2 ^ 32) = .ok ⟨false, 0, .cnop, .vadd 3 4 5 1 9 0 0⟩ ∧
  -- R273 example: `xchg.32 v6, v2` is 0x0B8C_2800; R338: `trap 5` is 0x0D00_1400 and `xret` 0x0D00_0001
  decodeBundle 0x0B8C2800 = .ok ⟨false, 0, .xchg 6 2 2, .anop⟩ ∧
  decodeBundle 0x0D001400 = .ok ⟨false, 0, .trap 5, .anop⟩ ∧
  decodeBundle 0x0D000001 = .ok ⟨false, 0, .xret, .anop⟩ ∧
  -- R240, R259, R276, R353 rows: `add g1, g2, g3`, `kand k1, k2, k3`, `ld.64 g5, [c3 + g4<<3]`, policy `add p1, p2, p3`
  decodeBundle ((1 * 2 ^ 26 + 1 * 2 ^ 21 + 2 * 2 ^ 16 + 3 * 2 ^ 11) * 2 ^ 32) = .ok ⟨false, 0, .cnop, .add 1 2 3⟩ ∧
  decodeBundle ((0x30 * 2 ^ 26 + 1 * 2 ^ 23 + 2 * 2 ^ 20 + 3 * 2 ^ 17) * 2 ^ 32) = .ok ⟨false, 0, .cnop, .kand 1 2 3⟩ ∧
  decodeBundle (0x0E * 2 ^ 22 + 5 * 2 ^ 17 + 3 * 2 ^ 13 + 4 * 2 ^ 8 + 3 * 2 ^ 6) = .ok ⟨false, 0, .ld64 5 3 4 3 0 none, .anop⟩ ∧
  decodePolicy (2 * 2 ^ 26 + 1 * 2 ^ 23 + 2 * 2 ^ 20 + 3 * 2 ^ 17) = some (.policyAdd 1 2 3)

/-! The step. -/

/-- The bundle of a slot run whole: both instructions, their results merged, the slot moved on (09 R213, R217). -/
def runsBoth (u : State) (b : Bundle) : Out :=
  match exec b.c u with
  | .next s1 =>
    if s1.performed then
      match exec b.a { u with free := s1.free } with
      | .next s2 => .next (((State.merge u s1 s2 b).putBack u.cur [] b).advance u.cur [u.cur.core] b)
      | .fault f => .fault f
      | .refused q => .refused q
    else .next ((s1.putBack u.cur [] b).advance u.cur [u.cur.core] b)
  | .fault f => .fault f
  | .refused q => .refused q

/-- A step runs what is decoded or due: the bundle at the chosen slot's pc, both of its instructions by `exec`, then the
slot's advance and one cycle; a due step with its arguments, which waits with nothing done for a page that has missed (log 54); the
word of a policy run. The order among due steps and bundles is the model's choice (log 1). -/
def Obligations.StepRunsDecodedInstruction : Prop :=
  (∀ (s s1 s2 u : State) (r : SlotRef) (w : Nat) (b : Bundle),
    s.polRun = none →
    (s.agenda = [] ∨ s.eager = true ∧ s.clock % 2 = 1 ∧ ∀ x ∈ s.agenda, x.prompt = false) → s.newTimers = [] →
    s.pick = some (r, s1) → (s1.core r.core).dbg.stepping = false →
    (s1.choosing r).fetch = .ok (w, s2) → decodeBundle w = .ok b → u = { s2 with bundle := BitVec.ofNat 64 w } →
    u.me.interlocked b u.clock = false → (releases b.c = true → u.settled u.me u.myAgent = true) →
    (∀ q ∈ u.me.sourcesOf b, u.me.short q = none) → u.me.gang = none → u.me.gangRole ≠ 2 →
    step s = ticked (runsBoth u b)) ∧
  (∀ (s : State) (d : Due) (rest : List Due), s.polRun = none → s.agenda = d :: rest →
    (d.prompt = true ∨ s.eager = true ∧ s.clock % 2 = 0 ∧ d.prompt = false ∧ ∀ x ∈ rest, x.prompt = false) →
    let s0 := { s with agenda := rest }
    ∀ t, exec d.step { s0 with args := d.args, missed := [] } = .next t →
      ((∀ m ∈ t.missed, (d, m) ∈ s.granted) →
        step s = .next { t with missed := [], granted := t.granted.filter (fun e => e.1 ≠ d) }.tick) ∧
      (∀ m, t.missed.find? (fun m => !s.granted.contains (d, m)) = some m →
        step s = .next (s0.askWalk m.core m.ctx m.space m.vpn [] [(d, m)]).tick)) ∧
  (∀ (s : State) (r : PolRun) (w : BitVec 32) (i : Instr), s.polRun = some r → (s.ctx r.ctx).policy[r.pc]? = some w →
    decodePolicy w.toNat = some i → ∀ t, exec i s = .next t → ∀ r', t.polRun = some r' → r'.steps < 512 → r'.result = none →
    step s = .next t.tick)

/-- A dword that is no bundle traps ILLEGAL or RESFIELD with XVAL the bundle and XVAL2 the word at fault, precise at the
bundle, and nothing of it performs (09 R214). -/
def Obligations.EncodingTrapsAtTheBundle : Prop :=
  ∀ (s s2 : State) (r : SlotRef) (w : Nat) (e : EncTrap),
    (s.choosing r).fetch = .ok (w, s2) → decodeBundle w = .error e → s2.cur = r →
    s2.me.spec = false → s2.me.gang = none → s2.me.gangRole ≠ 2 → s2.me.tl = 0 → s2.myCore.xtvec1.getLsbD 0 = true →
    Answers (s.issue r) (fun t =>
      (t.slotAt r.core r.slot).bank1 = { s2.me.bank1 with
        xpc := wordOfInt s2.me.pc, xcause := if e.isIllegal then 0x01 else 0x02, xval := BitVec.ofNat 64 w,
        xval2 := BitVec.ofNat 64 e.xval2 } ∧
      (t.slotAt r.core r.slot).tl = 1 ∧ (t.slotAt r.core r.slot).ptl = 0 ∧
      (t.slotAt r.core r.slot).pc = (s2.myCore.xtvec1.toNat / 8 % 2 ^ 54 * 8 : Nat) ∧
      (∀ q, (t.slotAt r.core r.slot).rd q = s2.me.rd q))

/-! Traps. -/

/-- Taking a trap below TL2 (14 R361): the bank of the level entered receives pc, cause and values and keeps XSCRATCH; PTL and
TL are set and no other field of XSTAT; the slot goes on at the vector, or is stopped by a trap that enters TL2. -/
def Obligations.TrapEntrySavesAndVectors : Prop :=
  ∀ (s : State) (cause : Cause) (xval xval2 : Word) (pc : Int),
    s.me.gang = none → s.me.gangRole ≠ 2 → s.me.tl ≠ 2 →
    let t := s.takeTrap cause xval xval2 pc
    let x := t.slotAt s.cur.core s.cur.slot
    let one := s.me.tl = 0 ∧ s.myCore.xtvec1.getLsbD 0 = true
    x.xstat = setField (setField s.me.xstat 0 2 (if one then 1 else 2)) 2 2 s.me.tl ∧
    (one → x.bank1 = ⟨wordOfInt pc, BitVec.ofNat 64 cause.code, xval, xval2, s.me.bank1.xscratch⟩ ∧ x.bank2 = s.me.bank2 ∧
      x.st = .ready ∧ x.npc = (s.myCore.xtvec1.toNat / 8 % 2 ^ 54 * 8 : Nat)) ∧
    (¬one → x.bank2 = ⟨wordOfInt pc, BitVec.ofNat 64 cause.code, xval, xval2, s.me.bank2.xscratch⟩ ∧ x.bank1 = s.me.bank1 ∧
      x.st = .stopped 1) ∧
    (∀ q, x.rd q = s.me.rd q) ∧ t.performed = false

/-- `xret` (12 R338): TL becomes PTL, PTL 0, the other fields of XSTAT as they stand, and the slot goes on at XPC; at TL0 it
takes XRETCTX, and with a nonzero upper part or a PTL not below TL it takes BADSTAT with XVAL the status. -/
def xretReturnsToTheSavedLevel : Prop :=
  ∀ (s : State),
    (s.me.tl ≠ 0 → s.me.xstat.toNat / 2 ^ 16 = 0 → s.me.ptl < s.me.tl →
      Answers (exec .xret s) (fun t =>
        t.me.xstat = setField (setField s.me.xstat 0 2 s.me.ptl) 2 2 0 ∧ t.me.tl = s.me.ptl ∧ t.me.ptl = 0 ∧
        t.me.npc = ((s.me.bank s.me.tl).xpc.toNat : Int) ∧ t.me.bank1 = s.me.bank1 ∧ t.me.bank2 = s.me.bank2 ∧
        (∀ q, t.me.rd q = s.me.rd q) ∧ t.mem = s.mem ∧ t.performed = s.performed)) ∧
    (s.me.tl = 0 → exec .xret s = .next (s.raise .xretctx 0 0)) ∧
    (s.me.tl ≠ 0 → (s.me.xstat.toNat / 2 ^ 16 ≠ 0 ∨ s.me.tl ≤ s.me.ptl) → exec .xret s = .next (s.raise .badstat s.me.xstat 0))

/-! The A slot. -/

/-- Whatever its operands, an A instruction completes, and it writes its destinations alone: every other register, the status,
the core, the other cores and all of memory stay (10 R236, 09 R216). -/
def Obligations.AInstructionsWriteOnlyTheirDestinations : Prop :=
  ∀ (i : Instr) (s : State), i.isA = true → i.wf = true → Answers (exec i s) (fun t => OnlyRegs s t i.dests)

/-- The register forms of the integer instructions (10 R240; 08 R201): g(D) receives the result of the table, modulo 2^64. -/
def integerRegisterResults : Prop :=
  ∀ (s : State) (d a b : BitVec 5),
    let x := s.rdG a
    let y := s.rdG b
    let n := y.toNat % 64
    exec (.add d a b) s = .next (s.wrG d (BitVec.ofNat 64 (x.toNat + y.toNat))) ∧
    exec (.sub d a b) s = .next (s.wrG d (BitVec.ofInt 64 ((x.toNat : Int) - y.toNat))) ∧
    exec (.and d a b) s = .next (s.wrG d (x &&& y)) ∧
    exec (.or d a b) s = .next (s.wrG d (x ||| y)) ∧
    exec (.xor d a b) s = .next (s.wrG d (x ^^^ y)) ∧
    exec (.shl d a b) s = .next (s.wrG d (BitVec.ofNat 64 (x.toNat * 2 ^ n))) ∧
    exec (.shr d a b) s = .next (s.wrG d (BitVec.ofNat 64 (x.toNat / 2 ^ n))) ∧
    exec (.sra d a b) s = .next (s.wrG d (BitVec.ofInt 64 (x.toInt / (2 ^ n : Nat)))) ∧
    exec (.slt d a b) s = .next (s.wrG d (if x.toInt < y.toInt then 1 else 0)) ∧
    exec (.sltn d a b) s = .next (s.wrG d (if x.toNat < y.toNat then 1 else 0)) ∧
    exec (.min d a b) s = .next (s.wrG d (BitVec.ofInt 64 (min x.toInt y.toInt))) ∧
    exec (.max d a b) s = .next (s.wrG d (BitVec.ofInt 64 (max x.toInt y.toInt))) ∧
    exec (.minn d a b) s = .next (s.wrG d (BitVec.ofNat 64 (min x.toNat y.toNat))) ∧
    exec (.maxn d a b) s = .next (s.wrG d (BitVec.ofNat 64 (max x.toNat y.toNat))) ∧
    exec (.mul d a b) s = .next (s.wrG d (BitVec.ofInt 64 (x.toInt * y.toInt))) ∧
    exec (.mulh d a b) s = .next (s.wrG d (BitVec.ofInt 64 (x.toInt * y.toInt / (2 ^ 64 : Nat)))) ∧
    exec (.mulhn d a b) s = .next (s.wrG d (BitVec.ofNat 64 (x.toNat * y.toNat / 2 ^ 64)))

/-- Division (10 R240; 08 R201): truncation towards zero, a remainder with the dividend's sign; by zero the quotient is all
ones and the remainder the dividend; −2^63 by −1 gives −2^63 and remainder 0. -/
def divisionResults : Prop :=
  ∀ (s : State) (d a b : BitVec 5),
    let x := s.rdG a
    let y := s.rdG b
    (y ≠ 0 →
      exec (.div d a b) s = .next (s.wrG d (BitVec.ofInt 64 (x.toInt.tdiv y.toInt))) ∧
      exec (.divn d a b) s = .next (s.wrG d (BitVec.ofNat 64 (x.toNat / y.toNat))) ∧
      exec (.rem d a b) s = .next (s.wrG d (BitVec.ofInt 64 (x.toInt - y.toInt * x.toInt.tdiv y.toInt))) ∧
      exec (.remn d a b) s = .next (s.wrG d (BitVec.ofNat 64 (x.toNat - y.toNat * (x.toNat / y.toNat))))) ∧
    (y = 0 →
      exec (.div d a b) s = .next (s.wrG d (BitVec.ofInt 64 (-1))) ∧
      exec (.divn d a b) s = .next (s.wrG d (BitVec.ofNat 64 (2 ^ 64 - 1))) ∧
      exec (.rem d a b) s = .next (s.wrG d x) ∧ exec (.remn d a b) s = .next (s.wrG d x)) ∧
    (x = BitVec.ofInt 64 (-(2 ^ 63 : Nat)) → y = BitVec.ofInt 64 (-1) →
      exec (.div d a b) s = .next (s.wrG d x) ∧ exec (.rem d a b) s = .next (s.wrG d 0))

/-- Bit counts (10 R240, R260): `clz` and `ctz` count the zero bits above the highest and below the lowest one bit, 64 for
zero; `popc` and `kpop` count the one bits. -/
def bitCounts : Prop :=
  ∀ (s : State) (d a : BitVec 5) (k : BitVec 3),
    let x := s.rdG a
    (∃ n, n ≤ 64 ∧ exec (.clz d a) s = .next (s.wrG d (BitVec.ofNat 64 n)) ∧
      (∀ i, 64 - n ≤ i → x.getLsbD i = false) ∧ (n < 64 → x.getLsbD (63 - n) = true)) ∧
    (∃ n, n ≤ 64 ∧ exec (.ctz d a) s = .next (s.wrG d (BitVec.ofNat 64 n)) ∧
      (∀ i, i < n → x.getLsbD i = false) ∧ (n < 64 → x.getLsbD n = true)) ∧
    exec (.popc d a) s = .next (s.wrG d (BitVec.ofNat 64 ((List.range 64).filter x.getLsbD).length)) ∧
    exec (.kpop d k) s = .next (s.wrG d (BitVec.ofNat 64 ((List.range 64).filter (s.rdK k).getLsbD).length))

/-- The immediate forms (10 R241): `addi`, `andi` and `slti` extend the immediate by its sign, `ori` and `xori` with zeros, the
shifts take its low six bits. -/
def integerImmediateResults : Prop :=
  ∀ (s : State) (d a : BitVec 5) (imm : BitVec 16) (sh : BitVec 6),
    let x := s.rdG a
    exec (.addi d a imm) s = .next (s.wrG d (BitVec.ofInt 64 (x.toInt + imm.toInt))) ∧
    exec (.andi d a imm) s = .next (s.wrG d (x &&& BitVec.ofInt 64 imm.toInt)) ∧
    exec (.ori d a imm) s = .next (s.wrG d (x ||| BitVec.ofNat 64 imm.toNat)) ∧
    exec (.xori d a imm) s = .next (s.wrG d (x ^^^ BitVec.ofNat 64 imm.toNat)) ∧
    exec (.shli d a sh) s = .next (s.wrG d (BitVec.ofNat 64 (x.toNat * 2 ^ sh.toNat))) ∧
    exec (.shri d a sh) s = .next (s.wrG d (BitVec.ofNat 64 (x.toNat / 2 ^ sh.toNat))) ∧
    exec (.srai d a sh) s = .next (s.wrG d (BitVec.ofInt 64 (x.toInt / (2 ^ sh.toNat : Nat)))) ∧
    exec (.slti d a imm) s = .next (s.wrG d (if x.toInt < imm.toInt then 1 else 0)) ∧
    exec .anop s = .next s

/-- Integer A instructions (10 R240, R241; 08 R201): on registers, arithmetic, comparisons, shifts, selects, and division with its
corners; with an immediate; and the bit counts. -/
def Obligations.IntegerResults : Prop := integerRegisterResults ∧ divisionResults ∧ integerImmediateResults ∧ bitCounts

/-- Rounding to the grid of a target (08 R202, R203): a magnitude m × 2^e becomes q units of 2^u, where u leaves p digits and is not
below the least unit u0; q is the neighbour that the mode names, and under `rst` the one farther from zero exactly where
floor(t × 65,536) is above the draw. -/
def Obligations.RoundingChoosesTheNeighbour : Prop :=
  ∀ (mode : RMode) (neg : Bool) (p : Nat) (u0 : Int) (m : Nat) (e : Int) (d : Nat),
    let r := roundMag mode neg p u0 m e d
    let k := (r.2 - e).toNat
    (∀ b : Nat, 0 < m → 2 ^ b ≤ m → m < 2 ^ (b + 1) → r.2 = max u0 (e + (b + 1) - p)) ∧
    (r.2 ≤ e → r.1 = m * 2 ^ (e - r.2).toNat) ∧
    (e < r.2 →
      (r.1 * 2 ^ k < m + 2 ^ k ∧ m < (r.1 + 1) * 2 ^ k) ∧
      (mode = .rne → 2 * r.1 * 2 ^ k ≤ 2 * m + 2 ^ k ∧ 2 * m ≤ 2 * r.1 * 2 ^ k + 2 ^ k ∧
        (2 * r.1 * 2 ^ k = 2 * m + 2 ^ k ∨ 2 * m = 2 * r.1 * 2 ^ k + 2 ^ k → r.1 % 2 = 0)) ∧
      (mode = .rtz ∨ (mode = .rup ∧ neg = true) ∨ (mode = .rdn ∧ neg = false) → r.1 * 2 ^ k ≤ m) ∧
      ((mode = .rup ∧ neg = false) ∨ (mode = .rdn ∧ neg = true) → m ≤ r.1 * 2 ^ k) ∧
      (mode = .rst → r.1 = m / 2 ^ k + (if d < m % 2 ^ k * 65536 / 2 ^ k then 1 else 0)))

/-- The exact value of a scalar float operand: the low bits of a general register (10 R239). -/
def scalarOperand (s : State) (fm : Fmt) (a : BitVec 5) : Exact := decodeNum fm false ((s.rdG a).toNat % 2 ^ fm.width)

/-- A float result in g(D), rounded once under a mode with at most one draw, zero-extended (10 R239, R243). -/
def floatResult (s : State) (d : BitVec 5) (fm : Fmt) (m : RMode) (x : Exact) (t : State) : Prop :=
  t.rdG d = (if d = 0 then 0
    else BitVec.ofNat 64 (toFloat x fm m false s.me.infm (if m = .rst then drawNo s.srng 0 else 0))) ∧
  t.srng = (if m = .rst then srngAfter s.srng 1 else s.srng)

/-- `fadd`, `fsub`, `fmul` and `ffma` (10 R243): the exact result rounded once into the type under RND, with sat = 0. -/
def scalarFloatRoundsOnce : Prop :=
  ∀ (s : State) (d a b c : BitVec 5) (rnd : BitVec 3) (ty : BitVec 1), rndOk rnd = true →
    let fm := if ty = 1 then Fmt.bf16 else Fmt.f32
    let m := RMode.ofField rnd.toNat (bitsOf s.me.xstat.toNat 6 3)
    let x := scalarOperand s fm a
    let y := scalarOperand s fm b
    let z := scalarOperand s fm c
    Answers (exec (.fadd d a b rnd ty) s) (floatResult s d fm m (addExact m x y)) ∧
    Answers (exec (.fsub d a b rnd ty) s) (floatResult s d fm m (addExact m x y.negate)) ∧
    Answers (exec (.fmul d a b rnd ty) s) (floatResult s d fm m (mulExact x y)) ∧
    Answers (exec (.ffma d a b c rnd ty) s) (floatResult s d fm m (addExact m (mulExact x y) z))

/-- `fmin`, `fmax`, `fsgn`, `fcmp` and `fclass` (10 R244; 08 R206): NaN operands, the order of zeros, the sign rules, the
relations, and the one bit of the class. -/
def scalarFloatSelectsAndCompares : Prop :=
  ∀ (s : State) (d a b : BitVec 5) (sk : BitVec 3) (ty : BitVec 1), d ≠ 0 →
    let fm := if ty = 1 then Fmt.bf16 else Fmt.f32
    let x := scalarOperand s fm a
    let y := scalarOperand s fm b
    let ca := (s.rdG a).toNat % 2 ^ fm.width
    let cb := (s.rdG b).toNat % 2 ^ fm.width
    let top := 2 ^ (fm.width - 1)
    Answers (exec (.fmin d a b ty) s) (fun t => (t.rdG d).toNat =
      if x = .nan ∧ y = .nan then nanCode fm else if x = .nan then cb else if y = .nan then ca
      else if exactLt y x = true ∨ (x.isZero = true ∧ y.isZero = true ∧ y.neg = true ∧ x.neg = false) then cb else ca) ∧
    Answers (exec (.fmax d a b ty) s) (fun t => (t.rdG d).toNat =
      if x = .nan ∧ y = .nan then nanCode fm else if x = .nan then cb else if y = .nan then ca
      else if exactLt x y = true ∨ (x.isZero = true ∧ y.isZero = true ∧ x.neg = true ∧ y.neg = false) then cb else ca) ∧
    (sk.toNat < 3 → Answers (exec (.fsgn d a b sk ty) s) (fun t => (t.rdG d).toNat =
      if x = .nan then nanCode fm
      else ca % top + (if sk = 0 then cb / top else if sk = 1 then 1 - cb / top else (ca / top + cb / top) % 2) * top)) ∧
    (sk.toNat < 7 → Answers (exec (.fcmp d a b sk ty) s) (fun t => t.rdG d =
      if x = .nan ∨ y = .nan then (if sk = 1 ∨ sk = 6 then 1 else 0)
      else match sk.toNat with
        | 0 => if !exactLt x y && !exactLt y x then 1 else 0
        | 1 => if exactLt x y || exactLt y x then 1 else 0
        | 2 => if exactLt x y then 1 else 0
        | 3 => if !exactLt y x || exactLt x y then 1 else 0
        | 4 => if exactLt y x && !exactLt x y then 1 else 0
        | 5 => if !exactLt x y then 1 else 0
        | _ => 0)) ∧
    Answers (exec (.fclass d a ty) s) (fun t => t.rdG d = BitVec.ofNat 64 (2 ^
      match x with
      | .nan => 8
      | .inf n => if n then 0 else 7
      | .fin n m _ => if m = 0 then (if n then 3 else 4)
        else if m < 2 ^ fm.frac then (if n then 2 else 5) else (if n then 1 else 6)))

/-- Scalar floats (10 R243, R244): sums, differences, products and fused products rounded once; selects, signs, comparisons, classes. -/
def Obligations.ScalarFloatResults : Prop := scalarFloatRoundsOnce ∧ scalarFloatSelectsAndCompares

/-- `fcvt` (10 R245; 08 R200, R204, R205): a float result under R204, an infinity kept where the conversion is one of the exact ones of
R200 (log 64), an integer result under R205 extended by the signedness of TO; a `bf16` or `f32` kept in its own format is copied, a
NaN made canonical; a binary8 value kept in its own format is converted like any other (log 7). -/
def Obligations.ScalarConversion : Prop :=
  ∀ (s : State) (d a tof frf : BitVec 5) (rnd : BitVec 3) (sat : BitVec 1) (t f : Fmt), rndOk rnd = true →
    Fmt.ofCode tof.toNat = some t → Fmt.ofCode frf.toNat = some f → d ≠ 0 →
    let m := if t.isFloat || f.isFloat then RMode.ofField rnd.toNat (bitsOf s.me.xstat.toNat 6 3) else .rne
    let code := (s.rdG a).toNat % 2 ^ f.width
    let x := decodeNum f s.me.infm code
    let dr := if m = .rst then drawNo s.srng 0 else 0
    Answers (exec (.fcvt d a tof frf rnd sat) s) (fun u =>
      u.srng = (if m = .rst then srngAfter s.srng 1 else s.srng) ∧
      u.rdG d = match t with
        | .int w true => BitVec.ofInt 64 (sxNat (toInt x w true m (sat = 1) dr) w)
        | .int w false => BitVec.ofNat 64 (toInt x w false m (sat = 1) dr)
        | .bin8 p n => BitVec.ofNat 64 (toFloat x (.bin8 p n) m (sat = 1) s.me.infm dr)
        | .bf16 => if f = .bf16 then BitVec.ofNat 64 (if x = .nan then 0x7FC0 else code)
          else BitVec.ofNat 64 (toFloat x .bf16 m (sat = 1 ∧ f.isBin8 = false) s.me.infm dr)
        | .f32 => if f = .f32 then BitVec.ofNat 64 (if x = .nan then 0x7FC00000 else code)
          else BitVec.ofNat 64 (toFloat x .f32 m (sat = 1 ∧ f ≠ .bf16 ∧ f.isBin8 = false) s.me.infm dr))

/-- The predicate instructions and the moves between predicate and general registers (10 R259, R260; 09 R216): writes to k0 are
discarded, k0 reads all ones, and the words of R259 that are reserved trap. -/
def Obligations.PredicateResults : Prop :=
  ∀ (s : State) (d a b : BitVec 3) (g : BitVec 5),
    let put (i : Instr) (y : Word) : Prop :=
      Answers (exec i s) (fun t => t.rdK d = (if d = 0 then BitVec.ofNat 64 (2 ^ 64 - 1) else y))
    put (.kand d a b) (s.rdK a &&& s.rdK b) ∧ put (.kor d a b) (s.rdK a ||| s.rdK b) ∧
    put (.kxor d a b) (s.rdK a ^^^ s.rdK b) ∧ put (.knot d a) (~~~ s.rdK a) ∧ put (.kmovK d a) (s.rdK a) ∧
    put (.kmovKg g d) (s.rdG g) ∧
    Answers (exec (.kmovGk g a) s) (fun t => t.rdG g = (if g = 0 then 0 else s.rdK a)) ∧
    s.rdK 0 = BitVec.ofNat 64 (2 ^ 64 - 1) ∧ s.rdG 0 = 0 ∧
    -- KO words: the function field chooses the instruction, 5 to 7 are ILLEGAL, and KB is RES0 for 3 and 4
    (∀ w, bitsOf w 26 6 = 0x30 →
      let ka : BitVec 3 := fld w 20 3
      let kb : BitVec 3 := fld w 17 3
      let kd : BitVec 3 := fld w 23 3
      (5 ≤ w % 8 → decodeA w = .error .illegalA) ∧
      (w % 8 = 3 ∨ w % 8 = 4 → bitsOf w 17 3 ≠ 0 → decodeA w = .error .resA) ∧
      (bitsOf w 3 14 = 0 →
        (w % 8 = 0 → decodeA w = .ok (.kand kd ka kb)) ∧ (w % 8 = 1 → decodeA w = .ok (.kor kd ka kb)) ∧
        (w % 8 = 2 → decodeA w = .ok (.kxor kd ka kb)) ∧ (bitsOf w 17 3 = 0 → w % 8 = 3 → decodeA w = .ok (.knot kd ka)) ∧
        (bitsOf w 17 3 = 0 → w % 8 = 4 → decodeA w = .ok (.kmovK kd ka))))

/-- The elements of a destination: active ones as computed, inactive ones as before (10 R237). -/
def lanesAre (s t : State) (d : BitVec 5) (w : Nat) (k : BitVec 3) (f : Nat → Nat) : Prop :=
  ∀ i, i < 512 / w → elem (t.rdV d) w i = if predBit (s.rdK k) i then f i % 2 ^ w else elem (s.rdV d) w i

/-- The draw of an active element: the active elements below it have drawn before (08 R203). -/
def laneDraw (s : State) (m : RMode) (k : BitVec 3) (i : Nat) : Nat :=
  if m = .rst then drawNo s.srng (activeBelow (s.rdK k) i) else 0

/-- An element result: the exact integer wrapped or clamped, or the exact value rounded once (10 R246). -/
def elemResult (fm : Fmt) (m : RMode) (sat : Bool) (dr : Nat) (fi : Int) (ff : Exact) : Nat :=
  match fm with
  | .int w signed => fitInt fi w signed sat
  | .bin8 p n => toFloat ff (.bin8 p n) m sat false dr
  | .bf16 => toFloat ff .bf16 m sat false dr
  | .f32 => toFloat ff .f32 m sat false dr

/-- `vadd`, `vsub`, `vmul` and `vfma` (10 R237, R246; 08 R201, R203, R206): every active element is the exact result wrapped,
clamped or rounded once, with its own draw under `rst`; inactive elements stay. -/
def vectorArithmeticByElement : Prop :=
  ∀ (s : State) (d a b : BitVec 5) (k : BitVec 3) (ty : BitVec 4) (sat : BitVec 1) (rnd : BitVec 3) (fm : Fmt),
    rndOk rnd = true → vecFmt ty = some fm →
    let m := RMode.ofField rnd.toNat (bitsOf s.me.xstat.toNat 6 3)
    let w := fm.width
    let iv (v : BitVec 5) (i : Nat) : Int := match fm with
      | .int _ true => sxNat (elem (s.rdV v) w i) w
      | _ => elem (s.rdV v) w i
    let fv (v : BitVec 5) (i : Nat) : Exact := decodeNum fm false (elem (s.rdV v) w i)
    let st (t : State) : Prop :=
      t.srng = if fm.isFloat = true ∧ m = .rst then srngAfter s.srng (activeBelow (s.rdK k) (512 / w)) else s.srng
    let r (i : Nat) := elemResult fm m (sat = 1) (laneDraw s m k i)
    Answers (exec (.vadd d a b k ty sat rnd) s) (fun t => st t ∧
      lanesAre s t d w k (fun i => r i (iv a i + iv b i) (addExact m (fv a i) (fv b i)))) ∧
    Answers (exec (.vsub d a b k ty sat rnd) s) (fun t => st t ∧
      lanesAre s t d w k (fun i => r i (iv a i - iv b i) (addExact m (fv a i) (fv b i).negate))) ∧
    Answers (exec (.vmul d a b k ty sat rnd) s) (fun t => st t ∧
      lanesAre s t d w k (fun i => r i (iv a i * iv b i) (mulExact (fv a i) (fv b i)))) ∧
    Answers (exec (.vfma d a b k ty sat rnd) s) (fun t => st t ∧
      lanesAre s t d w k (fun i => r i (iv a i * iv b i + iv d i) (addExact m (mulExact (fv a i) (fv b i)) (fv d i))))

/-- Integer elements of `vmin`, `vmax`, `vclamp`, `vabs`, `vneg` and the shifts (10 R246, R248, R249). -/
def vectorIntegerElements : Prop :=
  ∀ (s : State) (d a b : BitVec 5) (k : BitVec 3) (ty : BitVec 4) (sat : BitVec 1) (rnd : BitVec 3) (w : Nat) (sg : Bool),
    rndOk rnd = true → vecFmt ty = some (.int w sg) →
    let u (v : BitVec 5) (i : Nat) : Nat := elem (s.rdV v) w i
    let iv (v : BitVec 5) (i : Nat) : Int := if sg then sxNat (u v i) w else u v i
    let bits (x : Int) : Nat := (x % (2 ^ w : Nat)).toNat
    Answers (exec (.vmin d a b k ty rnd) s) (fun t => lanesAre s t d w k (fun i => bits (min (iv a i) (iv b i)))) ∧
    Answers (exec (.vmax d a b k ty rnd) s) (fun t => lanesAre s t d w k (fun i => bits (max (iv a i) (iv b i)))) ∧
    Answers (exec (.vclamp d a b k ty rnd) s) (fun t =>
      lanesAre s t d w k (fun i => bits (min (max (iv d i) (iv a i)) (iv b i)))) ∧
    Answers (exec (.vabs d a k ty sat rnd) s) (fun t => lanesAre s t d w k (fun i =>
      if sat = 1 ∧ iv a i = -(2 ^ (w - 1) : Nat) then 2 ^ (w - 1) - 1 else bits (iv a i).natAbs)) ∧
    Answers (exec (.vneg d a k ty sat rnd) s) (fun t => lanesAre s t d w k (fun i =>
      if sat = 1 then (if sg then bits (min (-(iv a i)) ((2 ^ (w - 1) : Nat) - 1)) else 0) else bits (-(iv a i)))) ∧
    Answers (exec (.vshl d a b k ty) s) (fun t => lanesAre s t d w k (fun i => u a i * 2 ^ (u b i % w))) ∧
    Answers (exec (.vshr d a b k ty) s) (fun t => lanesAre s t d w k (fun i => u a i / 2 ^ (u b i % w))) ∧
    Answers (exec (.vsra d a b k ty) s) (fun t =>
      lanesAre s t d w k (fun i => bits (sxNat (u a i) w / (2 ^ (u b i % w) : Nat))))

/-- Vector arithmetic by element, inactive elements kept (10 R246): integers and the bitwise forms. -/
def Obligations.VectorIntegerByElement : Prop := vectorArithmeticByElement ∧ vectorIntegerElements

/-- Float elements of `vmin`, `vmax`, `vclamp`, `vabs` and `vneg` (10 R246, R249; 08 R206): the lesser or greater under R206, the
sign cleared or flipped, a NaN made canonical. -/
def Obligations.VectorFloatElements : Prop :=
  ∀ (s : State) (d a b : BitVec 5) (k : BitVec 3) (ty : BitVec 4) (rnd : BitVec 3) (fm : Fmt),
    rndOk rnd = true → vecFmt ty = some fm → fm.isFloat = true →
    let w := fm.width
    let u (v : BitVec 5) (i : Nat) : Nat := elem (s.rdV v) w i
    Answers (exec (.vmin d a b k ty rnd) s) (fun t => lanesAre s t d w k (fun i => minMaxCode fm false (u a i) (u b i))) ∧
    Answers (exec (.vmax d a b k ty rnd) s) (fun t => lanesAre s t d w k (fun i => minMaxCode fm true (u a i) (u b i))) ∧
    Answers (exec (.vclamp d a b k ty rnd) s) (fun t =>
      lanesAre s t d w k (fun i => minMaxCode fm false (minMaxCode fm true (u d i) (u a i)) (u b i))) ∧
    Answers (exec (.vabs d a k ty 0 rnd) s) (fun t => lanesAre s t d w k (fun i =>
      if decodeNum fm false (u a i) = .nan then nanCode fm else u a i % 2 ^ (w - 1))) ∧
    Answers (exec (.vneg d a k ty 0 rnd) s) (fun t => lanesAre s t d w k (fun i =>
      if decodeNum fm false (u a i) = .nan then nanCode fm else (u a i + 2 ^ (w - 1)) % 2 ^ w))

/-- Bitwise operations govern 32-bit lanes; `vsel` writes every element; `vperm` takes 0 past the last element; `vsplat` and
`vmovl` take the low bits of a general register, and `vmovg` extends one element by its type (10 R247, R251, R256 to R258). -/
def vectorMovesByElement : Prop :=
  ∀ (s : State) (d a b : BitVec 5) (k : BitVec 3) (ty : BitVec 4) (rnd : BitVec 3) (idx : BitVec 6) (fm : Fmt),
    rndOk rnd = true → vecFmt ty = some fm →
    let w := fm.width
    let u (v : BitVec 5) (i : Nat) : Nat := elem (s.rdV v) w i
    Answers (exec (.vand d a b k) s) (fun t => lanesAre s t d 32 k (fun i => elem (s.rdV a &&& s.rdV b) 32 i)) ∧
    Answers (exec (.vor d a b k) s) (fun t => lanesAre s t d 32 k (fun i => elem (s.rdV a ||| s.rdV b) 32 i)) ∧
    Answers (exec (.vxor d a b k) s) (fun t => lanesAre s t d 32 k (fun i => elem (s.rdV a ^^^ s.rdV b) 32 i)) ∧
    Answers (exec (.vsel d a b k ty rnd) s) (fun t =>
      ∀ i, i < 512 / w → elem (t.rdV d) w i = if predBit (s.rdK k) i then u a i else u b i) ∧
    Answers (exec (.vperm d a b k ty rnd) s) (fun t =>
      lanesAre s t d w k (fun i => if u b i < 512 / w then u a (u b i) else 0)) ∧
    Answers (exec (.vsplat d a k ty rnd) s) (fun t => lanesAre s t d w k (fun _ => (s.rdG a).toNat)) ∧
    (idx.toNat < 512 / w → Answers (exec (.vmovg d a idx ty) s) (fun t => t.rdG d =
      if d = 0 then 0
      else match fm with
        | .int _ true => BitVec.ofInt 64 (sxNat (u a idx.toNat) w)
        | _ => BitVec.ofNat 64 (u a idx.toNat))) ∧
    (idx.toNat < 512 / w → Answers (exec (.vmovl d a idx ty) s) (fun t =>
      ∀ i, i < 512 / w → elem (t.rdV d) w i = if i = idx.toNat then (s.rdG a).toNat % 2 ^ w else u d i))

/-- `vcmp` writes the predicate whole: bit i where element i is active and the relation holds, every other bit 0 (10 R250). -/
def vectorCompareWritesThePredicateWhole : Prop :=
  ∀ (s : State) (kd : BitVec 3) (a b : BitVec 5) (k : BitVec 3) (ty : BitVec 4) (cnd : BitVec 3) (fm : Fmt),
    vecFmt ty = some fm → cnd.toNat < 7 → kd ≠ 0 →
    let w := fm.width
    Answers (exec (.vcmp kd a b k ty cnd) s) (fun t =>
      (∀ i, i < 512 / w → (t.rdK kd).getLsbD i =
        (predBit (s.rdK k) i && relHolds cnd.toNat (cmpCode fm (elem (s.rdV a) w i) (elem (s.rdV b) w i)))) ∧
      (∀ i, 512 / w ≤ i → (t.rdK kd).getLsbD i = false))

/-- Vector moves by element and comparisons into a predicate (10 R247 to R251). -/
def Obligations.VectorMovesAndCompares : Prop := vectorMovesByElement ∧ vectorCompareWritesThePredicateWhole

/-- `vcvt` (10 R252): the low n elements under the predicate, the elements above them 0, whatever the predicate holds; SAT = 1 in
the saturating form. -/
def Obligations.VectorConversionByElement : Prop :=
  ∀ (s : State) (d a tof : BitVec 5) (k : BitVec 3) (frf : BitVec 5) (rnd : BitVec 3) (t f : Fmt),
    rndOk rnd = true → vfmtOk tof = true → vfmtOk frf = true →
    Fmt.ofCode tof.toNat = some t → Fmt.ofCode frf.toNat = some f →
    let m := if t.isFloat || f.isFloat then RMode.ofField rnd.toNat (bitsOf s.me.xstat.toNat 6 3) else .rne
    let n := 512 / max t.width f.width
    let res (sat : Bool) (u : State) : Prop := ∀ i, i < 512 / t.width → elem (u.rdV d) t.width i =
      if n ≤ i then 0
      else if predBit (s.rdK k) i then
        convert t f s.me.infm m sat (laneDraw s m k i) (elem (s.rdV a) f.width i) % 2 ^ t.width
      else elem (s.rdV d) t.width i
    Answers (exec (.vcvt d a tof k frf rnd) s) (res false) ∧ Answers (exec (.vcvtSat d a tof k frf rnd) s) (res true)

/-- The real number that a finite exact value stands for (08 R204). -/
noncomputable def realOf : Exact → ℝ
  | .fin n m e => (if n then -1 else 1) * (m : ℝ) * (2 : ℝ) ^ e
  | _ => 0

/-- A code is the `f32` value that a real number rounds to once under `rne` (08 R202, R204, R210): of the finite values one of the
nearest, the one with the even last digit where two are, and an infinity from half a unit above the largest on. -/
def roundsTo (r : ℝ) (y : Nat) : Prop :=
  let top : ℝ := (2 ^ 25 - 1) * 2 ^ 103
  match decodeNum .f32 false y with
  | .nan => False
  | .inf n => if n then r ≤ -top else top ≤ r
  | .fin n m e => -top < r ∧ r < top ∧ ∀ z n' m' e', decodeNum .f32 false z = .fin n' m' e' →
      |r - realOf (.fin n m e)| ≤ |r - realOf (.fin n' m' e')| ∧
      (|r - realOf (.fin n m e)| = |r - realOf (.fin n' m' e')| → realOf (.fin n' m' e') = realOf (.fin n m e) ∨ y % 2 = 0)

/-- A special function of elements (10 R253; 08 R210): an active `f32` element receives the function's code, an active `bf16` element
the code of the widened input rounded under RND, and inactive elements stay. The codes have R210's special values, and the exact
results of `rcp` and `rsqrt` are rounded once. The lanes are silent on an element that the model's enclosure leaves open (log 21). -/
def Obligations.SpecialFunctionsByElement : Prop :=
  (∀ (s : State) (d a fn : BitVec 5) (k : BitVec 3) (rnd : BitVec 3), rndOk rnd = true → fn.toNat < 8 →
    let m := RMode.ofField rnd.toNat (bitsOf s.me.xstat.toNat 6 3)
    Answers (exec (.vsfu d a fn k 9 rnd) s) (fun t => t.srng = s.srng ∧ ∀ i, i < 16 →
      (predBit (s.rdK k) i = false → elem (t.rdV d) 32 i = elem (s.rdV d) 32 i) ∧
      (predBit (s.rdK k) i = true → ∀ y, sfuCode fn.toNat (elem (s.rdV a) 32 i) = some y → elem (t.rdV d) 32 i = y % 2 ^ 32)) ∧
    Answers (exec (.vsfu d a fn k 8 rnd) s) (fun t =>
      t.srng = (if m = .rst then srngAfter s.srng (activeBelow (s.rdK k) 32) else s.srng) ∧ ∀ i, i < 32 →
      (predBit (s.rdK k) i = false → elem (t.rdV d) 16 i = elem (s.rdV d) 16 i) ∧
      (predBit (s.rdK k) i = true → ∀ y, sfuCode fn.toNat (elem (s.rdV a) 16 i * 2 ^ 16) = some y → elem (t.rdV d) 16 i =
        (if decodeNum .f32 false y = .nan then 0x7FC0
         else toFloat (decodeNum .f32 false y) .bf16 m false false (laneDraw s m k i)) % 2 ^ 16))) ∧
  (∀ (c : Nat) (fn : Nat), fn < 8 → decodeNum .f32 false c = .nan → sfuCode fn c = some 0x7FC00000) ∧
  -- +∞, −∞, +0 and −0 of exp2, log2, rcp, rsqrt, sin, cos, tanh and sigm
  (List.range 8).map (fun fn => sfuCode fn 0x7F800000) = ([0x7F800000, 0x7F800000, 0, 0, 0x7FC00000, 0x7FC00000, 0x3F800000,
    0x3F800000] : List Nat).map some ∧
  (List.range 8).map (fun fn => sfuCode fn 0xFF800000) = ([0, 0x7FC00000, 0x80000000, 0x7FC00000, 0x7FC00000, 0x7FC00000,
    0xBF800000, 0] : List Nat).map some ∧
  (List.range 8).map (fun fn => sfuCode fn 0) = ([0x3F800000, 0xFF800000, 0x7F800000, 0x7F800000, 0, 0x3F800000, 0,
    0x3F000000] : List Nat).map some ∧
  (List.range 8).map (fun fn => sfuCode fn 0x80000000) = ([0x3F800000, 0xFF800000, 0xFF800000, 0xFF800000, 0x80000000, 0x3F800000,
    0x80000000, 0x3F000000] : List Nat).map some ∧
  sfuCode 1 0x3F800000 = some 0 ∧
  (∀ c m e, decodeNum .f32 false c = .fin true m e → m ≠ 0 → sfuCode 1 c = some 0x7FC00000 ∧ sfuCode 3 c = some 0x7FC00000) ∧
  (∀ c n m e, decodeNum .f32 false c = .fin n m e → (2 : ℝ) ^ 16 < |realOf (.fin n m e)| →
    sfuCode 4 c = some 0x7FC00000 ∧ sfuCode 5 c = some 0x7FC00000) ∧
  (∀ c n m e, decodeNum .f32 false c = .fin n m e → m ≠ 0 →
    (∃ y, sfuCode 2 c = some y ∧ roundsTo (1 / realOf (.fin n m e)) y) ∧
    (n = false → ∃ y, sfuCode 3 c = some y ∧ roundsTo (1 / √(realOf (.fin n m e))) y))

/-- The functions of 08 R210 whose results are no algebraic numbers: 0 exp2, 1 log2, 4 sin, 5 cos, 6 tanh, 7 sigm. -/
noncomputable def specialFn (fn : Nat) (x : ℝ) : ℝ :=
  match fn with
  | 0 => (2 : ℝ) ^ x
  | 1 => Real.logb 2 x
  | 4 => Real.sin x
  | 5 => Real.cos x
  | 6 => Real.tanh x
  | _ => 1 / (1 + Real.exp (-x))

/-- The code that the model answers for a special function of a finite operand in its domain is the exact value rounded once (08
R210); for exp2 of any operand of 2^9 or more in magnitude it answers one. -/
def Obligations.SpecialFunctionsRoundOnce : Prop :=
  ∀ (fn c y : Nat) (n : Bool) (m : Nat) (e : Int), fn = 0 ∨ fn = 1 ∨ (4 ≤ fn ∧ fn < 8) →
    decodeNum .f32 false c = .fin n m e → (fn = 1 → n = false ∧ m ≠ 0) → (fn = 4 ∨ fn = 5 → |realOf (.fin n m e)| ≤ (2 : ℝ) ^ 16) →
    ((2 : ℝ) ^ 9 ≤ |realOf (.fin n m e)| → ∃ y, sfuCode 0 c = some y) ∧
    (sfuCode fn c = some y → roundsTo (specialFn fn (realOf (.fin n m e))) y)

/-- The sum of sixteen lanes in the tree of 08 R207: lane i adds lane i + 8, then + 4, + 2, + 1. -/
def treeOf {α : Type} (op : α → α → α) (x : Nat → α) : α :=
  let l1 (i : Nat) := op (x i) (x (i + 8))
  let l2 (i : Nat) := op (l1 i) (l1 (i + 4))
  let l3 (i : Nat) := op (l2 i) (l2 (i + 2))
  op (l3 0) (l3 1)

/-- `vred` and `vdot` (10 R254, R255; 08 R207): the tree of sixteen lanes in element 0 and 0 in the others, inactive lanes
entering as +0 or as the identity; a float add of the tree rounds into `f32` under RND, here any mode but `rst`. -/
def Obligations.ReductionsFollowTheTree : Prop :=
  ∀ (s : State) (d a b : BitVec 5) (k : BitVec 3) (rnd : BitVec 3) (ty : BitVec 4), rndOk rnd = true →
    let m := RMode.ofField rnd.toNat (bitsOf s.me.xstat.toNat 6 3)
    let act (i : Nat) : Bool := predBit (s.rdK k) i
    let u (v : BitVec 5) (i : Nat) : Nat := elem (s.rdV v) 32 i
    let put (i : Instr) (y : Nat) : Prop := Answers (exec i s) (fun t =>
      elem (t.rdV d) 32 0 = y % 2 ^ 32 ∧ ∀ j, 1 ≤ j → j < 16 → elem (t.rdV d) 32 j = 0)
    let fadd (x y : Exact) : Exact := decodeNum .f32 false (toFloat (addExact m x y) .f32 m false false 0)
    let code (x : Exact) : Nat := toFloat x .f32 .rne false false 0
    let val (fm : Fmt) (v : BitVec 5) (i : Nat) : Exact := decodeNum fm false (elem (s.rdV v) fm.width i)
    (ty = 2 ∨ ty = 6 → put (.vred d a 0 k ty rnd) (treeOf (fun x y => x + y) (fun i => if act i then u a i else 0))) ∧
    put (.vred d a 1 k 2 rnd) (treeOf (fun x y => if sxNat y 32 < sxNat x 32 then y else x)
      (fun i => if act i then u a i else 0x7FFFFFFF)) ∧
    put (.vred d a 2 k 6 rnd) (treeOf max (fun i => if act i then u a i else 0)) ∧
    put (.vred d a 1 k 9 rnd) (treeOf (minMaxCode .f32 false) (fun i => if act i then u a i else 0x7F800000)) ∧
    put (.vred d a 2 k 9 rnd) (treeOf (minMaxCode .f32 true) (fun i => if act i then u a i else 0xFF800000)) ∧
    (m ≠ .rst →
      put (.vred d a 0 k 9 rnd) (code (treeOf fadd (fun i => if act i then val .f32 a i else .fin false 0 0))) ∧
      put (.vdot d a b k 9 rnd) (code (treeOf fadd (fun i =>
        if act i then mulExact (val .f32 a i) (val .f32 b i) else .fin false 0 0))) ∧
      put (.vdot d a b k 8 rnd) (code (treeOf fadd (fun i => if act i then
        addExact m (mulExact (val .bf16 a (2 * i)) (val .bf16 b (2 * i)))
          (mulExact (val .bf16 a (2 * i + 1)) (val .bf16 b (2 * i + 1))) else .fin false 0 0))))

/-! Control and constants. -/

/-- The running slot goes on at a target, with a trace record in its buffer where its core traces (15 R387). -/
def goesTo (s : State) (o : Out) (target : Int) : Prop :=
  Answers o (fun t => t.me = { s.me with npc := target } ∧
    (s.myCore.dbg.trace = false → t = s.setMe { s.me with npc := target }) ∧
    (s.inv → s.keyed (s.myCore.dbg.buffer + s.myCore.dbg.fill) 16 0 = true →
      s.sameOutside t (s.myCore.dbg.buffer + s.myCore.dbg.fill) 16))

/-- Branches, loops and constants (10 R242, R261 to R266): the target counts in bundles from this one; `bcc` compares as read at
issue; `jal` and `jalr` leave pc + 8; `loop` branches until its count is 0; without a branch nothing else changes. A traced core
adds its record at a place that is the model's (log 41). -/
def Obligations.ControlGoesToItsTarget : Prop :=
  ∀ (s : State) (d a b : BitVec 5) (o9 : BitVec 9) (o12 : BitVec 12) (o17 : BitVec 17) (o22 : BitVec 22) (e : BitVec 32)
    (cnd : BitVec 3) (imm : BitVec 16),
    let pc := s.me.pc
    let link := s.wrG d (wordOfInt (pc + 8))
    let count := s.wrG d (s.rdG d - 1)
    let x := s.rdG a
    let y := s.rdG b
    let holds : Bool := match cnd.toNat with
      | 0 => x == y
      | 1 => x != y
      | 2 => decide (x.toInt < y.toInt)
      | 3 => decide (y.toInt ≤ x.toInt)
      | 4 => decide (x.toNat < y.toNat)
      | _ => decide (y.toNat ≤ x.toNat)
    goesTo s (exec (.br o22 none) s) (pc + o22.toInt * 8) ∧ goesTo s (exec (.br o22 (some e)) s) (pc + e.toInt * 8) ∧
    (cnd.toNat < 6 → holds = true → goesTo s (exec (.bcc cnd a b o9 none) s) (pc + o9.toInt * 8) ∧
      goesTo s (exec (.bcc cnd a b o9 (some e)) s) (pc + e.toInt * 8)) ∧
    (cnd.toNat < 6 → holds = false → ∀ x, exec (.bcc cnd a b o9 x) s = .next s) ∧
    goesTo link (exec (.jal d o17 none) s) (pc + o17.toInt * 8) ∧ goesTo link (exec (.jal d o17 (some e)) s) (pc + e.toInt * 8) ∧
    goesTo link (exec (.jalr d a o12) s) (x.toNat + o12.toInt * 8) ∧
    (d ≠ 0 → s.rdG d ≠ 1 → goesTo count (exec (.loop d o17 none) s) (pc + o17.toInt * 8) ∧
      goesTo count (exec (.loop d o17 (some e)) s) (pc + e.toInt * 8)) ∧
    (d ≠ 0 → s.rdG d = 1 → ∀ x, exec (.loop d o17 x) s = .next (s.wrG d 0)) ∧
    exec (.li d imm none) s = .next (s.wrG d (BitVec.ofInt 64 imm.toInt)) ∧
    exec (.li d imm (some e)) s = .next (s.wrG d (BitVec.ofInt 64 e.toInt)) ∧
    exec (.liHi d e) s = .next (s.wrG d (BitVec.ofNat 64 (e.toNat * 2 ^ 32 + (s.rdG d).toNat % 2 ^ 32))) ∧
    exec .cnop s = .next s

/-! Capabilities. -/

/-- Deriving capabilities (01 R29 to R31; 11 R284, R285): `cmov` copies; `cbnd` and `cprm` narrow a tagged capability alone and trap
TAG or BOUNDS; `cspc` keeps the tag for a PEER range in the core's own slice alone; `cget` reads a field, `ctag` clears the tag. -/
def Obligations.CapabilityDerivation : Prop :=
  ∀ (s : State) (d cs : BitVec 4) (g : BitVec 5) (imm : BitVec 7) (spc : BitVec 3) (fld : BitVec 4),
    let c := s.rdC cs
    let l := (s.rdG g).toNat + imm.toNat
    let keeps (t : State) : Prop := OnlyRegs s t [.c4 d]
    exec (.cmov d cs) s = .next (s.wrC d c) ∧
    (c.tag = false → exec (.cbnd d cs g imm) s = .next (s.raise .tag (BitVec.ofNat 64 cs.toNat) 0) ∧
      exec (.cprm d cs imm) s = .next (s.raise .tag (BitVec.ofNat 64 cs.toNat) 0)) ∧
    (c.tag = true → l = 0 → exec (.cbnd d cs g imm) s = .next (s.raise .bounds (wordOfInt c.cursor) 0)) ∧
    (c.tag = true → l ≠ 0 → 0 ≤ c.cursor → c.cursor < (2 ^ 57 : Nat) → c.base ≤ c.cursor →
      c.cursor + roundedLen l ≤ (c.base + c.len : Nat) →
      Answers (exec (.cbnd d cs g imm) s) (fun t => keeps t ∧ (t.rdC d).tag = true ∧ ((t.rdC d).base : Int) = c.cursor ∧
        (t.rdC d).off = 0 ∧ (t.rdC d).len = roundedLen l ∧ (t.rdC d).len ≤ l ∧ (t.rdC d).perm = c.perm ∧
        (t.rdC d).space = c.space)) ∧
    (c.tag = true → l ≠ 0 → (c.cursor < 0 ∨ (2 ^ 57 : Nat) ≤ c.cursor ∨ c.cursor < c.base ∨
      (c.base + c.len : Nat) < c.cursor + roundedLen l) →
      exec (.cbnd d cs g imm) s = .next (s.raise .bounds (wordOfInt c.cursor) (BitVec.ofNat 64 (roundedLen l)))) ∧
    (c.tag = true → Answers (exec (.cprm d cs imm) s) (fun t => keeps t ∧ (t.rdC d).perm = c.perm &&& imm ∧
      (t.rdC d).tag = true ∧ (t.rdC d).base = c.base ∧ (t.rdC d).off = c.off ∧ (t.rdC d).len = c.len ∧
      (t.rdC d).space = c.space)) ∧
    (spc.toNat < 6 → c.tag = true → Answers (exec (.cspc d cs spc) s) (fun t => keeps t ∧
      (spc.toNat = c.space → t.rdC d = c) ∧
      (spc.toNat ≠ c.space → (t.rdC d).space = spc.toNat ∧ (t.rdC d).off = c.off ∧ (t.rdC d).len = c.len ∧
        (t.rdC d).perm = c.perm ∧
        if c.space = 2 ∧ spc = 1 ∧ s.cur.core % 2 ^ 20 * 65536 ≤ c.base ∧ c.base + c.len ≤ (s.cur.core % 2 ^ 20 + 1) * 65536 then
          (t.rdC d).tag = true ∧ (t.rdC d).base = c.base % 65536
        else (t.rdC d).tag = false ∧ (t.rdC d).base = c.base))) ∧
    (spc.toNat < 6 → c.tag = false → exec (.cspc d cs spc) s = .next (s.raise .tag (BitVec.ofNat 64 cs.toNat) 0)) ∧
    Answers (exec (.ctag d cs) s) (fun t => keeps t ∧ (t.rdC d).tag = false ∧ (t.rdC d).lo = c.lo ∧ (t.rdC d).hi = c.hi) ∧
    (fld.toNat < 11 → exec (.cget g cs fld) s = .next (s.wrG g (match fld.toNat with
      | 0 => BitVec.ofNat 64 c.base
      | 1 => BitVec.ofInt 64 c.off
      | 2 => BitVec.ofNat 64 c.len
      | 3 => BitVec.ofNat 64 c.perm.toNat
      | 4 => BitVec.ofNat 64 c.space
      | 5 => if c.tag then 1 else 0
      | 6 => BitVec.ofInt 64 (c.base + c.off)
      | 7 => c.lo
      | 8 => c.hi
      | 9 => BitVec.ofNat 64 c.le
      | _ => BitVec.ofNat 64 c.lm)))

/-! Control registers. -/

/-- The control registers (12 R339, R340; 14 R359, R360): which trap level reads and writes each, what a write leaves, that the
destination receives the old value, and that anything else takes ILLEGAL with the register's number. -/
def Obligations.ControlRegistersByLevel : Prop :=
  ∀ (s : State) (d r : BitVec 5) (csr : BitVec 10), csrOk csr = true →
    let n := csr.toNat
    let tl := s.me.tl
    let readable : Prop := tl ≠ 0 ∨ n = 0 ∨ n = 0x14 ∨ 0x15 ≤ n
    let writable : Prop := n = 0 ∨ n = 0x15 ∨ n = 0x16 ∨ (tl ≠ 0 ∧ n ≤ 6) ∨
      (tl ≠ 0 ∧ 0x10 ≤ n ∧ n ≤ 0x13 ∧ s.me.timed = false) ∨ (tl ≠ 0 ∧ n = 0x14) ∨ (tl = 2 ∧ n = 0x20)
    let deny := Host.Outcome.next (s.raise .illegal (BitVec.ofNat 64 n) 0)
    (readable → exec (.csrr d csr) s = .next (s.wrG d (s.csr n))) ∧
    (¬readable → exec (.csrr d csr) s = deny) ∧
    (writable → exec (.csrw d r csr) s = .next ((s.csrSet n (s.rdG r)).wrG d (s.csr n)) ∧
      exec (.csrs d r csr) s = .next ((s.csrSet n (s.csr n ||| s.rdG r)).wrG d (s.csr n)) ∧
      exec (.csrc d r csr) s = .next ((s.csrSet n (s.csr n &&& ~~~ s.rdG r)).wrG d (s.csr n))) ∧
    (¬writable → exec (.csrw d r csr) s = deny ∧ exec (.csrs d r csr) s = deny ∧ exec (.csrc d r csr) s = deny) ∧
    ∀ v : Word,
      (∀ q, (s.csrSet n v).me.rd q = s.me.rd q) ∧ (s.csrSet n v).mem = s.mem ∧
      (let m : Word := if tl = 0 then 0xFFFFFFFFFFFF81E0 else 0xFFFFFFFFFFFF81FC;
        (s.csrSet 0 v).csr 0 = (s.csr 0 &&& ~~~ m) ||| (v &&& m)) ∧
      (n = 1 ∨ n = 3 ∨ n = 4 ∨ n = 6 ∨ n = 0x16 → (s.csrSet n v).csr n = v ∧ (s.csrSet n v).me.xstat = s.me.xstat) ∧
      ((s.csrSet 2 v).csr 2 = v &&& 0xFF) ∧ ((s.csrSet 5 v).csr 5 = v &&& 0x01FFFFFFFFFFFFF9) ∧
      ((s.csrSet 0x15 v).csr 0x15 = if v.toNat % 2 ^ 32 = 0 then 1 else BitVec.ofNat 64 (v.toNat % 2 ^ 32))

/-! Memory. -/

/-- What an access of the running slot leaves as it was: every other register, every status and trap register, and the other
cores; a store wakes monitors and marks translations, a load uses up host answers, and HBM bytes are counted. -/
structure AccessFrame (s t : State) (l : List RegName) : Prop where
  /-- Every register that is not listed reads as before. -/
  regs : ∀ r, r ∉ l → t.me.rd r = s.me.rd r
  /-- The running slot's other fields are as before, but for what a write to its own monitored line does. -/
  slot : t.me = { s.me.withRegs t.me with st := t.me.st, monitor := t.me.monitor }
  /-- The other slots are as before, but for monitors woken. -/
  slots : ∀ c i, (c ≠ s.cur.core ∨ i % 4 ≠ s.cur.slot % 4) →
    t.slotAt c i = { s.slotAt c i with st := (t.slotAt c i).st, monitor := (t.slotAt c i).monitor }
  /-- The registers of every core are as before. -/
  cores : ∀ c, t.core c = { s.core c with slots := (t.core c).slots, pageTlb := (t.core c).pageTlb }
  /-- The bundle has performed as far as it had. -/
  done : t.performed = s.performed

/-- Bytes outside a range, and outside the dirty-tracking dword of a tracked page (03 R82), read as before. -/
def storeOutside (s t : State) (page : Option (Nat × Nat)) (a n : Nat) : Prop :=
  ∀ b, (b < a ∨ a + n ≤ b) →
    (∀ sp vpn addr j, page = some (sp, vpn) → s.tracked s.myCtxId sp vpn = some (addr, j) → (b < addr ∨ addr + 8 ≤ b)) →
    t.mem.byte b = s.mem.byte b

/-- A page that is tracked has its dword under KEYID 0. -/
def trackPlain (s : State) (page : Option (Nat × Nat)) : Prop :=
  ∀ sp vpn addr j, page = some (sp, vpn) → s.tracked s.myCtxId sp vpn = some (addr, j) → s.keyed addr 8 0 = true

/-- A state in which accesses perform at once and the running slot's activation, if any, is untimed (log 20). -/
def plainSlot (s : State) : Prop := s.inv ∧ s.eager = true ∧ s.me.actKey = none

/-- The first check of 01 R26 that an access fails traps with its cause, the address in XVAL and the access in XVAL2 (R27): n bytes at
`ea` under a capability, which need permissions and a space that admits the kind; so does a fault of the translation. -/
def checksTrap (s : State) (i : Instr) (cap : BitVec 4) (kind : AccKind) (code : Nat) (need : BitVec 7) (adm : Nat → Bool) (ea : Int)
    (n : Nat) : Prop :=
  let c := s.rdC cap
  let last := ea + n - 1
  let trap (f : Cause) : Prop :=
    exec i s = .next (s.raise f (wordOfInt ea) (BitVec.ofNat 64 (n * 256 + code * 16 + cap.toNat)))
  let checks : List (Bool × Cause) := [(!c.tag, .tag), (decide (5 < c.space) || !adm c.space, .space), (need &&& ~~~c.perm != 0, .perm),
    (decide (ea < 0) || decide ((2 ^ 64 : Nat) ≤ last), .bounds), (decide (ea < c.base) || decide ((c.base + c.len : Nat) ≤ last), .bounds),
    (decide (ea < extent c.space) && decide ((extent c.space : Int) ≤ last), .bounds), (decide ((2 ^ 57 : Nat) ≤ ea), .noncanon),
    (decide (ea % n ≠ 0), .align)]
  (∀ j x, checks[j]? = some x → x.1 = true → (∀ y ∈ checks.take j, y.1 = false) → trap x.2) ∧
  ((∀ y ∈ checks, y.1 = false) → ∀ f, s.xlat c.space ea.toNat n kind = .fault f → trap f)

/-- The granules of some bytes are untagged (01 R20). -/
def untagged (s : State) (a n : Nat) : Prop := ∀ g, a < 16 * (g + 1) → 16 * g < a + n → g ∉ s.tags

/-- The word scalar loads write: n bytes extended by their sign or with zeros. -/
def loaded (s : State) (a n : Nat) (signed : Bool) : Word :=
  let x := leNat (s.mem.read a n)
  if signed then BitVec.ofInt 64 (sxNat x (8 * n)) else BitVec.ofNat 64 x

/-- Scalar loads (11 R276, R277; 01 R25 to R27): the register receives the bytes at the effective address, extended; the first failed
check traps with the address and the description of R27. Accesses perform at once here (log 20). -/
def Obligations.ScalarLoadsReadMemory : Prop :=
  ∀ (s : State) (g : BitVec 5) (cap : BitVec 4) (idx : BitVec 5) (sh : BitVec 2) (disp : BitVec 6) (scope : BitVec 3)
    (ext : Option (BitVec 32)), plainSlot s →
    let c := s.rdC cap
    let row (i : Instr) (n : Nat) (signed : Bool) (ea : Int) : Prop :=
      checksTrap s i cap .load 0 1 (fun sp => decide (sp < 4) || decide (4 ≤ n)) ea n ∧
      (∀ a k lc, s.access c cap.toNat .load ea n n = .ok (.mem a k lc) → s.keyed a n k = true →
        (linesOf a n).any s.poison.contains = false →
        Answers (exec i s) (fun t => t.rdG g = (if g = 0 then 0 else loaded s a n signed) ∧ AccessFrame s t [.g g] ∧ t.mem = s.mem)) ∧
      (∀ e, s.access c cap.toNat .load ea n n = .error e → exec i s = .next e)
    let ea (n : Nat) := c.cursor + (s.rdG idx).toInt * (2 ^ sh.toNat : Nat) + dispOf disp.toInt n ext
    let eaX (n : Nat) := c.cursor + (s.rdG idx).toInt * (n : Nat) + dispX ext
    row (.ldI8 g cap idx sh disp ext) 1 true (ea 1) ∧ row (.ldN8 g cap idx sh disp ext) 1 false (ea 1) ∧
    row (.ldI16 g cap idx sh disp ext) 2 true (ea 2) ∧ row (.ldN16 g cap idx sh disp ext) 2 false (ea 2) ∧
    row (.ldI32 g cap idx sh disp ext) 4 true (ea 4) ∧ row (.ldN32 g cap idx sh disp ext) 4 false (ea 4) ∧
    row (.ld64 g cap idx sh disp ext) 8 false (ea 8) ∧
    row (.ldacq g cap idx scope 2 ext) 4 false (eaX 4) ∧ row (.ldacq g cap idx scope 3 ext) 8 false (eaX 8)

/-- Scalar stores (11 R276, R277, R299; 01 R20): the bytes at the effective address read as the register's low bytes, their granules
are untagged, and every byte outside them reads as before; no register of any core changes; the first failed check traps as R27
says. Accesses perform at once here (log 20). -/
def Obligations.ScalarStoresWriteMemory : Prop :=
  ∀ (s : State) (g : BitVec 5) (cap : BitVec 4) (idx : BitVec 5) (sh : BitVec 2) (disp : BitVec 6) (scope : BitVec 3)
    (ext : Option (BitVec 32)), plainSlot s →
    let c := s.rdC cap
    let row (i : Instr) (n : Nat) (ea : Int) : Prop :=
      checksTrap s i cap .store 1 2 (fun sp => decide (sp < 4) || decide (4 ≤ n)) ea n ∧
      (∀ a k lc, s.access c cap.toNat .store ea n n = .ok (.mem a k lc) → s.keyed a n k = true →
        trackPlain s (pageOf c.space ea) →
        Answers (exec i s) (fun t => t.mem.read a n = leBytes n (s.rdG g).toNat ∧ storeOutside s t (pageOf c.space ea) a n ∧
          AccessFrame s t [] ∧ untagged t a n ∧ t.inv)) ∧
      (∀ e, s.access c cap.toNat .store ea n n = .error e → exec i s = .next e)
    let ea (n : Nat) := c.cursor + (s.rdG idx).toInt * (2 ^ sh.toNat : Nat) + dispOf disp.toInt n ext
    let eaX (n : Nat) := c.cursor + (s.rdG idx).toInt * (n : Nat) + dispX ext
    row (.st8 g cap idx sh disp ext) 1 (ea 1) ∧ row (.st16 g cap idx sh disp ext) 2 (ea 2) ∧
    row (.st32 g cap idx sh disp ext) 4 (ea 4) ∧ row (.st64 g cap idx sh disp ext) 8 (ea 8) ∧
    row (.strel g cap idx scope 2 ext) 4 (eaX 4) ∧ row (.strel g cap idx scope 3 ext) 8 (eaX 8) ∧
    (c.tag = true → (c.space = 1 ∨ c.space = 5) → exec (.stdef g cap idx sh disp ext) s =
      .next (s.raise .space (wordOfInt (ea 8)) (descr .store 8 cap.toNat))) ∧
    (c.space ≠ 1 →
      ∀ a k lc, s.access c cap.toNat .store (ea 8) 8 8 = .ok (.mem a k lc) → s.keyed a 8 k = true →
        trackPlain s (pageOf c.space (ea 8)) →
        Answers (exec (.stdef g cap idx sh disp ext) s) (fun t => t.mem.read a 8 = leBytes 8 (s.rdG g).toNat ∧
          storeOutside s t (pageOf c.space (ea 8)) a 8 ∧ AccessFrame s t [] ∧ untagged t a 8))

/-- The places of a vector access are memory, each under its own key. -/
def plainPlaces (s : State) (n : Nat) (ps : List (Nat × Int × Place)) : Prop :=
  ∀ p ∈ ps, ∃ a k lc, p.2.2 = .mem a k lc ∧ s.keyed a n k = true ∧ (linesOf a n).any s.poison.contains = false

/-- Vector loads (11 R279, R280): an element whose predicate bit is set receives the bytes at its address, any other stays.
Accesses perform at once here (log 20). -/
def Obligations.VectorLoadsReadByElement : Prop :=
  ∀ (s : State) (v : BitVec 5) (cap : BitVec 4) (idx : BitVec 5) (disp : BitVec 5) (k : BitVec 3) (sz : BitVec 2) (x : BitVec 5)
    (ext : Option (BitVec 32)), plainSlot s →
    let c := s.rdC cap
    let row (i : Instr) (sh : Shape) (w align : Nat) (al : Int → Int) (ea : Nat → Int) : Prop :=
      let es := ((List.range (512 / w)).filter (predBit (s.rdK k))).map (fun j => (j, ea j))
      (∀ ps, s.accessVec c .load sh (w / 8) align al es = .ok ps → plainPlaces s (w / 8) ps →
        Answers (exec i s) (fun t => AccessFrame s t [.v v] ∧ t.mem = s.mem ∧
          ∀ j, j < 512 / w → elem (t.rdV v) w j = match ps.find? (fun p => p.1 == j) with
            | some p => leNat (s.mem.read p.2.2.addr (w / 8))
            | none => elem (s.rdV v) w j)) ∧
      (∀ e, s.accessVec c .load sh (w / 8) align al es = .error e → exec i s = .next e)
    let base := c.cursor + (s.rdG idx).toInt * 64 + dispOf disp.toInt 64 ext
    let w := 8 * 2 ^ sz.toNat
    let stepped := c.cursor + dispX ext
    row (.vld v cap k idx disp ext) .contig 32 64 (fun _ => base) (fun j => base + 4 * j) ∧
    (sz ≠ 3 → row (.vlds v cap x k sz ext) .element w (w / 8) id (fun j => stepped + j * (s.rdG x).toInt) ∧
      row (.vldx v cap x k sz ext) .element w (w / 8) id (fun j => stepped + (elem (s.rdV x) w j * (w / 8) : Nat)))

/-- Vector stores (11 R279, R280; 01 R20): each active element's bytes are written at its address in ascending order, so that the
highest element stays where two meet, their granules are untagged, and every other byte reads as before. Accesses perform at once
here (log 20). -/
def Obligations.VectorStoresWriteByElement : Prop :=
  ∀ (s : State) (v : BitVec 5) (cap : BitVec 4) (idx : BitVec 5) (disp : BitVec 5) (k : BitVec 3) (sz : BitVec 2) (x : BitVec 5)
    (ext : Option (BitVec 32)), plainSlot s →
    let c := s.rdC cap
    let row (i : Instr) (sh : Shape) (w align : Nat) (al : Int → Int) (ea : Nat → Int) : Prop :=
      let n := w / 8
      let es := ((List.range (512 / w)).filter (predBit (s.rdK k))).map (fun j => (j, ea j))
      (∀ ps, s.accessVec c .store sh n align al es = .ok ps → plainPlaces s n ps →
        (∀ p ∈ ps, ∀ sp vpn, pageOf c.space p.2.1 = some (sp, vpn) → s.tracked s.myCtxId sp vpn = none) →
        Answers (exec i s) (fun t => AccessFrame s t [] ∧ (∀ p ∈ ps, untagged t p.2.2.addr n) ∧
          t.mem = ps.foldl (fun m p => m.write p.2.2.addr (leBytes n (elem (s.rdV v) w p.1))) s.mem)) ∧
      (∀ e, s.accessVec c .store sh n align al es = .error e → exec i s = .next e)
    let base := c.cursor + (s.rdG idx).toInt * 64 + dispOf disp.toInt 64 ext
    let w := 8 * 2 ^ sz.toNat
    (c.space ≠ 5 → row (.vst v cap k idx disp ext) .contig 32 64 (fun _ => base) (fun j => base + 4 * j)) ∧
    (sz ≠ 3 → row (.vstx v cap x k sz ext) .element w (w / 8) id
      (fun j => c.cursor + dispX ext + (elem (s.rdV x) w j * (w / 8) : Nat)))

/-- `cadd` (01 R29; 11 R284): OFF moves by the register's value, read unsigned (log 16), and the signed immediate; the tag stays while 44
bits hold the new OFF, which keeps its low 44 bits. -/
def caddMovesTheOffset : Prop :=
  ∀ (s : State) (d cs : BitVec 4) (g : BitVec 5) (imm : BitVec 7),
    let c := s.rdC cs
    let v := (s.rdG g).toNat + imm.toInt
    let keeps (t : State) : Prop := OnlyRegs s t [.c4 d]
    Answers (exec (.cadd d cs g imm) s) (fun t => keeps t ∧ (t.rdC d).base = c.base ∧ (t.rdC d).len = c.len ∧
      (t.rdC d).perm = c.perm ∧ (t.rdC d).space = c.space ∧ ((t.rdC d).off - (c.off + v)) % (2 ^ 44 : Nat) = 0 ∧
      (t.rdC d).tag = (c.tag && decide (-(2 ^ 43 : Nat) ≤ c.off + v) && decide (c.off + v < (2 ^ 43 : Nat))))

/-- Capability loads and stores (11 R281; 01 R20, R21, R26, R27): sixteen bytes and the tag of their granule, which a page without LC
does not give; what a store writes and its register's tag read back; the first failed check traps as R27 says. Accesses perform at
once here (log 20). -/
def capabilityAccesses : Prop :=
  ∀ (s : State) (d : BitVec 4) (cap : BitVec 4) (r : BitVec 5) (ext : Option (BitVec 32)), plainSlot s →
    let c := s.rdC cap
    let ea := c.cursor + (s.rdG r).toInt * 16 + dispX ext
    (∀ a k lc, s.access c cap.toNat .ldc ea 16 16 = .ok (.mem a k lc) → s.keyed a 16 k = true →
      (linesOf a 16).any s.poison.contains = false →
      Answers (exec (.ldc d cap r ext) s) (fun t => AccessFrame s t [.c4 d] ∧ t.mem = s.mem ∧
        t.rdC d = ⟨BitVec.ofNat 64 (leNat (s.mem.read a 8)), BitVec.ofNat 64 (leNat (s.mem.read (a + 8) 8)),
          lc && s.tagAt a k⟩)) ∧
    (∀ a k lc, s.access c cap.toNat .stc ea 16 16 = .ok (.mem a k lc) → a % 16 = 0 → s.keyed a 16 k = true →
      trackPlain s (pageOf c.space ea) →
      Answers (exec (.stc d cap r ext) s) (fun t => AccessFrame s t [] ∧ storeOutside s t (pageOf c.space ea) a 16 ∧
        t.mem.read a 16 = leBytes 8 (s.rdC d).lo.toNat ++ leBytes 8 (s.rdC d).hi.toNat ∧
        t.tags.contains (a / 16) = (s.rdC d).tag)) ∧
    checksTrap s (.ldc d cap r ext) cap .ldc 2 9 (fun sp => decide (sp < 3)) ea 16 ∧
    checksTrap s (.stc d cap r ext) cap .stc 3 18 (fun sp => decide (sp < 3)) ea 16 ∧
    (∀ (e : State) (acc : AccKind) (i : Instr), (acc = .ldc ∧ i = .ldc d cap r ext ∨ acc = .stc ∧ i = .stc d cap r ext) →
      s.access c cap.toNat acc ea 16 16 = .error e → exec i s = .next e)

/-- `cadd` moves the offset of a capability (01 R29; log 16), and `ldc` and `stc` move sixteen bytes and a tag (11 R281). -/
def Obligations.CapabilitiesMoveLoadAndStore : Prop := caddMovesTheOffset ∧ capabilityAccesses

/-- Atomics, `waita` and fences (11 R278, R282, R283; 01 R26, R27): the old value goes to the destination and the new one to memory,
and the first failed check traps as R27 says; `waita` goes on where the value differs, parks with its monitor where it does not; a fence changes nothing here (log 20). -/
def Obligations.AtomicsWaitsAndFences : Prop :=
  ∀ (s : State) (d : BitVec 5) (cap : BitVec 4) (r : BitVec 5) (op : BitVec 4) (w : BitVec 1) (ord : BitVec 2) (sz : BitVec 2)
    (kind : BitVec 2) (scope : BitVec 3) (ext : Option (BitVec 32)), plainSlot s →
    let c := s.rdC cap
    let n := if w = 1 then 8 else 4
    let ea := c.cursor + dispAmo ext
    (op.toNat < 10 → checksTrap s (.amo d cap r op w ord ext) cap .amo 4 35 (fun sp => decide (sp < 3)) ea n) ∧
    (op.toNat < 10 → ∀ a k lc, s.access c cap.toNat .amo ea n n = .ok (.mem a k lc) → s.keyed a n k = true →
      (linesOf a n).any s.poison.contains = false → trackPlain s (pageOf c.space ea) →
      let old := leNat (s.mem.read a n)
      let x := (s.rdG r).toNat % 2 ^ (8 * n)
      let sx (y : Nat) : Int := sxNat y (8 * n)
      Answers (exec (.amo d cap r op w ord ext) s) (fun t => AccessFrame s t [.g d] ∧
        t.rdG d = (if d = 0 then 0 else BitVec.ofNat 64 old) ∧ storeOutside s t (pageOf c.space ea) a n ∧
        t.mem.read a n = match op.toNat with
          | 0 => leBytes n (old + x)
          | 1 => leBytes n x
          | 2 => if old = (s.rdG d).toNat % 2 ^ (8 * n) then leBytes n x else s.mem.read a n
          | 3 => leBytes n (old &&& x)
          | 4 => leBytes n (old ||| x)
          | 5 => leBytes n (old ^^^ x)
          | 6 => leBytes n (if sx old ≤ sx x then old else x)
          | 7 => leBytes n (if sx old ≤ sx x then x else old)
          | 8 => leBytes n (min old x)
          | _ => leBytes n (max old x))) ∧
    (sz = 2 ∨ sz = 3 →
      let m := 2 ^ sz.toNat
      let at_ := c.cursor + (s.rdG r).toInt * (m : Nat) + dispX ext
      checksTrap s (.waita d cap r sz ext) cap .waita 5 1 (fun sp => decide (sp < 2)) at_ m ∧
      ∀ a k lc, s.access c cap.toNat .waita at_ m m = .ok (.mem a k lc) → s.keyed a m k = true →
        (linesOf a m).any s.poison.contains = false → s.me.timed = false →
        (leNat (s.mem.read a m) ≠ (s.rdG d).toNat % 2 ^ (8 * m) →
          Answers (exec (.waita d cap r sz ext) s) (fun t => t.me = s.me ∧ t.mem = s.mem)) ∧
        (leNat (s.mem.read a m) = (s.rdG d).toNat % 2 ^ (8 * m) → s.me.gang = none →
          (c.space = 1 ∨ (s.waitLines (clusterOf s.cur.core)).length < Config.waitLines) →
          Answers (exec (.waita d cap r sz ext) s) (fun t => t.mem = s.mem ∧ t.performed = s.performed ∧
            t.me = { s.me with st := .parked .waita,
                               monitor := some ⟨a / 64, c.space == 1, s.myCtxId, c.space, at_.toNat / 4096, k, s.me.pc⟩ }))) ∧
    (kind ≠ 0 → exec (.fence kind scope) s = .next s)

/-! Messages and activations. -/

/-- What an instruction or a step leaves alone that works beside the registers: the registers but for the listed ones, the
status and trap registers of every slot, the control registers of every core, and memory. -/
structure KeepsSlots (s t : State) (l : List RegName) : Prop where
  /-- Every register of the running slot that is not listed reads as before. -/
  regs : ∀ r, r ∉ l → t.me.rd r = s.me.rd r
  /-- The running slot's status, trap banks, protection keys and place in the program are as before. -/
  stat : t.me.xstat = s.me.xstat ∧ t.me.bank1 = s.me.bank1 ∧ t.me.bank2 = s.me.bank2 ∧ t.me.pkperm = s.me.pkperm ∧
    t.me.pc = s.me.pc ∧ t.me.npc = s.me.npc
  /-- The other slots are as before, but for wakes. -/
  slots : ∀ c i, (c ≠ s.cur.core ∨ i % 4 ≠ s.cur.slot % 4) →
    t.slotAt c i = { s.slotAt c i with st := (t.slotAt c i).st, monitor := (t.slotAt c i).monitor }
  /-- The control registers of every core are as before. -/
  cores : ∀ c, (t.core c).agectl = (s.core c).agectl ∧ (t.core c).lardcfg = (s.core c).lardcfg ∧
    (t.core c).statemap = (s.core c).statemap ∧ (t.core c).tlcfg = (s.core c).tlcfg ∧ (t.core c).hwLimit = (s.core c).hwLimit ∧
    (t.core c).srng = (s.core c).srng ∧ (t.core c).xtvec1 = (s.core c).xtvec1
  /-- All of memory is as before. -/
  mem : t.mem = s.mem

/-- The messages of a queue, oldest or lowest first. -/
def msgsOf (s : State) (core q : Nat) : List Msg := ((s.core core).queue q).map (fun e => e.msg)

/-- A message as its sender's operand describes it (06 R140 to R142; 11 R296). -/
structure BuiltFrom (s : State) (m : Msg) (g : Word) (v : BitVec 5) (un : Nat) : Prop where
  head : m.dest = bitsOf g.toNat 0 20 ∧ m.dq = bitsOf g.toNat 20 3 ∧ m.hidx = bitsOf g.toNat 23 10 ∧
    m.ctr = bitsOf g.toNat 33 10 ∧ m.units = un + 1 ∧ m.sign = false ∧ m.infm = s.me.infm
  from_ : m.src = s.cur.core % 2 ^ 20 ∧ m.seq = s.myCore.seq.toNat ∧ m.ctx = s.myCore.ctx % 2 ^ 20 ∧ m.agent = s.myAgent
  body : ∀ i, i < 4 → (m.pay.get (Fin.ofNat 4 i)).toNat =
    if i < un then (s.rdV (v + BitVec.ofNat 5 i)).toNat
    else if i = un then (s.rdV (v + BitVec.ofNat 5 i)).toNat % 2 ^ 256 else 0

/-- `send` and `sendt` (11 R296; 06 R142; 07 R173, R188): the message built from the operand enters the core's port with the
core's next SEQ; `sendt` gives it a VRT above the activation's own, and counts it; a full port holds the slot. -/
def Obligations.SendsPostOneMessage : Prop :=
  ∀ (s : State) (a v t : BitVec 5) (un : BitVec 2), v.toNat + un.toNat ≤ 31 →
    let g := s.rdG a
    let c := s.myCore
    let posted (u : State) (m : Msg) : Prop := BuiltFrom s m g v un.toNat ∧ u.myCore.port = c.port ++ [m] ∧
      u.myCore.seq = c.seq + 1 ∧ KeepsSlots s u [] ∧ u.agenda = s.agenda ++ [⟨.outboundDepart, [s.cur.core]⟩]
    (bitsOf g.toNat 20 3 < 4 → s.me.spec = false → c.port.length < Config.portDepth →
      Answers (exec (.send a v un) s) (fun u => ∃ m, posted u m ∧ m.vrt = 0 ∧ m.colour = false)) ∧
    (3 < bitsOf g.toNat 20 3 → exec (.send a v un) s = .next (s.raise .illegal g (BitVec.ofNat 64 a.toNat))) ∧
    (bitsOf g.toNat 20 3 < 4 → s.me.spec = false → Config.portDepth ≤ c.port.length → exec (.send a v un) s = .next s.stall) ∧
    (bitsOf g.toNat 20 3 = 4 → bitsOf g.toNat 23 10 ≠ 1023 → bitsOf g.toNat 33 10 = 0 →
      (s.me.timed = true → (s.rdG 1).toNat < 2 ^ 64 - 2) → s.me.spec = false → c.port.length < Config.portDepth →
      Answers (exec (.sendt a v un t) s) (fun u => ∃ m, posted u m ∧ m.colour = c.colour ∧
        (s.me.timed = false → m.vrt.toNat = min (s.rdG t).toNat (2 ^ 64 - 2)) ∧
        (s.me.timed = true → (s.rdG 1).toNat < m.vrt.toNat ∧
          m.vrt.toNat = min (max (s.rdG t).toNat ((s.rdG 1).toNat + 1)) (2 ^ 64 - 2)) ∧
        u.myCore.sent1 = (if c.colour then c.sent1 + 1 else c.sent1) ∧
        u.myCore.sent0 = (if c.colour then c.sent0 else c.sent0 + 1) ∧ u.myCore.minsent = keyMin c.minsent (some m.key))) ∧
    (∀ k, bitsOf g.toNat 20 3 < 4 → s.me.spec = true → s.me.actKey = some k →
      (s.cluster (clusterOf s.cur.core)).commitQ.length < Config.commitEntries →
      Answers (exec (.send a v un) s) (fun u => u.myCore.port = c.port ∧ KeepsSlots s u [] ∧
        ∃ w p, (u.cluster (clusterOf s.cur.core)).commitQ =
          (s.cluster (clusterOf s.cur.core)).commitQ ++ [⟨s.cur.core, s.cur.slot, k, .send w p⟩]))

/-- `ctrarm` (11 R297; 06 R153): a count that is still above zero leaves the counter armed; one at or below zero fires at once, a
synthetic entry at the end of its queue, and disarms. -/
def countersArmAndFire : Prop :=
  ∀ (s : State) (a n g : BitVec 5), s.me.timed = false →
    let x := (s.rdG a).toNat
    let k := (s.rdG n).toNat
    let q := bitsOf x 12 3
    let cl := clusterOf s.cur.core
    let core := cl * 8 + bitsOf x 9 3
    let old := (s.cluster cl).counters.getD (bitsOf x 0 9) Counter.reset
    q < 4 → bitsOf x 15 10 ≠ 1023 → 0 < k → k < 2 ^ 31 →
    let v := min (old.value + k) ((2 ^ 31 : Nat) - 1)
    Answers (exec (.ctrarm a n g) s) (fun t => KeepsSlots s t [] ∧
      let c := (t.cluster cl).counters.getD (bitsOf x 0 9) Counter.reset
      c.value = v ∧
      (0 < v → c.armed = true ∧ c.arg = s.rdG g ∧ c.hidx.toNat = bitsOf x 15 10 ∧ ∀ i j, msgsOf t i j = msgsOf s i j) ∧
      (v ≤ 0 → c.armed = false ∧ ∃ m, m.hidx = bitsOf x 15 10 ∧ msgsOf t core q = msgsOf s core q ++ [m] ∧
        (((t.core core).queue q).getLast?.map (fun e => e.carg)) = some (s.rdG g)))

/-- The end of an activation (11 R298; 05 R128; 06 R147; 07 R175, R185, R192): `done` empties the slot, an untimed one leaving
nothing, a speculative one FINISHED; `abort` withdraws it, its entry held or gone, an anti-message sent for each message. -/
def Obligations.ActivationsEnd : Prop :=
  ∀ (s : State) (m : BitVec 1),
    let core := s.cur.core
    (s.me.tl ≠ 2 → s.accessesDone = true → s.me.gang = none → s.myCore.dbg.trace = false →
      Answers (exec .done s) (fun t => t.me.st = .empty ∧ t.me.actKey = none ∧ (∀ q, t.me.rd q = s.me.rd q) ∧ t.mem = s.mem ∧
        t.performed = s.performed ∧ ⟨.activate, [core, s.cur.slot]⟩ ∈ t.agenda ∧
        (s.me.actKey = none → t.myCore.acts = s.myCore.acts ∧ t.myCore.queues = s.myCore.queues) ∧
        (∀ k, s.me.actKey = some k → s.me.spec = true → (∀ x ∈ t.myCore.acts, x.key = k → x.finished = true ∧ x.slot = none) ∧
          t.myCore.acts.map (fun x => x.key) = s.myCore.acts.map (fun x => x.key)) ∧
        (∀ k, s.me.actKey = some k → s.me.spec = false → t.myCore.acts = s.myCore.acts.filter (fun x => x.key != k) ∧
          t.myCore.queue 4 = (s.myCore.queue 4).filter (fun e => !(e.taken && e.msg.key == k))))) ∧
    (s.me.tl = 2 → exec .done s = .next (s.raise .illegal 0 0)) ∧
    (∀ k, s.me.spec = true → s.me.actKey = some k → Answers (exec (.abort m) s) (fun t =>
      t.performed = false ∧ t.me.st = .empty ∧ (∀ q, t.me.rd q = s.me.rd q) ∧ (∀ x ∈ t.myCore.acts, x.key ≠ k) ∧
      (∀ e ∈ s.myCore.queue 4, e.taken = true → e.msg.key = k → m = 0 →
        { e with taken := false, head := none, hold := .untilGvt } ∈ t.myCore.queue 4) ∧
      (m = 1 → ∀ e ∈ t.myCore.queue 4, ¬(e.taken = true ∧ e.msg.key = k)) ∧
      (∀ x ∈ s.myCore.acts, x.key = k → ∀ y ∈ x.sent, ∃ z ∈ t.myCore.port, z.key = y.key ∧ z.sign = true ∧ z.dest = y.dest))) ∧
    (s.me.spec = false → exec (.abort m) s = .next (s.raise .illegal 0 0)) ∧
    Answers (exec .yield s) (fun t => KeepsSlots s t [] ∧ t.me.st = s.me.st ∧
      (∀ j, j < 4 → j ≠ s.cur.slot → (s.slotAt core j).st = .ready → s.cur.slot < 4 →
        ∀ n, t.myCore.issuable n s.cur.slot = false))

/-- What a core reads of its queues and of virtual time (11 R298; 07 R172, R174): saturating counts, the GVT its cluster holds,
the least VRT that holds its floor down, all ones for infinity. -/
def queueAndTimeReads : Prop :=
  ∀ (s : State) (d : BitVec 5), d ≠ 0 →
    let c := s.myCore
    Answers (exec (.qstat d) s) (fun t => OnlyRegs s t [.g d] ∧
      (∀ q, q < 5 → bitsOf (t.rdG d).toNat (8 * q) 8 = min 255 ((c.queue q).filter (fun e => !e.taken)).length) ∧
      bitsOf (t.rdG d).toNat 40 8 = min 255 (16 * c.force.spillK - c.spilled) ∧ bitsOf (t.rdG d).toNat 48 16 = 0) ∧
    Answers (exec (.gvtrd d) s) (fun t => OnlyRegs s t [.g d] ∧
      (∀ tl k, s.boundTimeline s.cur.core = some tl → s.gvtAt (clusterOf s.cur.core) tl = some k → t.rdG d = BitVec.ofNat 64 k.vrt) ∧
      (s.boundTimeline s.cur.core = none → t.rdG d = BitVec.allOnes 64)) ∧
    Answers (exec (.lvtrd d) s) (fun t => OnlyRegs s t [.g d] ∧
      (c.floorKeys = [] → t.rdG d = BitVec.allOnes 64) ∧
      (c.floorKeys ≠ [] → ∃ k ∈ c.floorKeys, t.rdG d = BitVec.ofNat 64 k.vrt ∧ ∀ k' ∈ c.floorKeys, k.vrt ≤ k'.vrt))

/-- Counters of a cluster (11 R297; 06 R153), and what a core reads of its queues and of time (11 R298; 07 R172, R174). -/
def Obligations.CountersQueuesAndTime : Prop := countersArmAndFire ∧ queueAndTimeReads

/-- A message from port to queue (06 R143, R149, R152; 04 R92; 07 R173, R187): it leaves its port in order, is dropped and counted
outside the partition, is queued in order (QT by key, raised above GVT), waits while its queue is full; an anti-message
takes its twin away. When back-pressure reaches the port is the model's choice (log 75). -/
def Obligations.MessagesTravelInOrder : Prop :=
  ∀ (s : State) (core a q : Nat) (m : Msg) (rest : List Msg),
    (s.args = [core] → (s.core core).port = m :: rest → m.ctx ≠ 0xFFFFF →
      (s.inPartition m.ctx m.dest = true → s.backs m = true → exec .outboundDepart s = .next s) ∧
      (s.inPartition m.ctx m.dest = true → s.backs m = false → Answers (exec .outboundDepart s) (fun t => (t.core core).port = rest ∧
        t.channel m.agent m.dest m.dq = s.channel m.agent m.dest m.dq ++ [m] ∧ t.mem = s.mem)) ∧
      (s.inPartition m.ctx m.dest = false → m.dq ≠ 4 → Answers (exec .outboundDepart s) (fun t =>
        (t.core core).port = rest ∧ t.channels = s.channels ∧ t.mem = s.mem ∧
        (bitsOf (s.ctx m.ctx).page.derr.toNat 0 32 = 0 → (t.ctx m.ctx).page.derr = BitVec.ofNat 64 (2 ^ 32 + 1) ∧
          (t.ctx m.ctx).page.derrdst = m.dw2)))) ∧
    (s.args = [a, core, q] → s.channel a core q = m :: rest → m.sign = false → m.dq = q → m.ctx ≠ 0 → m.ctx ≠ 0xFFFFF →
      m.ctr = 0 → m.hidx ≠ 1023 → (s.ctx m.ctx).st = .running → (s.core core).saved = false →
      (s.core core).eject.any (fun e => e.agent == m.agent && e.dq == q) = false →
      ((s.core core).hasRoom q m.units = true → q < 4 →
        s.blocks.values.any (fun b => b.ctx == m.ctx && b.clusters.contains (clusterOf core)) = true →
        Answers (exec .messageArrive s) (fun t => t.channel a core q = rest ∧ msgsOf t core q = msgsOf s core q ++ [m] ∧
          t.mem = s.mem ∧ ∀ c i r, (t.slotAt c i).rd r = (s.slotAt c i).rd r)) ∧
      ((s.core core).hasRoom q m.units = true → q = 4 → ∀ tl g, s.timelineOf core = some tl →
        s.gvtAt (clusterOf core) tl = some g → Answers (exec .messageArrive s) (fun t => t.channel a core q = rest ∧
          ∃ l r m', msgsOf s core 4 = l ++ r ∧ msgsOf t core 4 = l ++ m' :: r ∧
            m' = { m with vrt := if m.vrt.toNat ≤ g.vrt then BitVec.ofNat 64 (min (g.vrt + 1) (2 ^ 64 - 1)) else m.vrt } ∧
            (∀ x ∈ l, m'.key.lt x.key = false) ∧ (∀ x, r.head? = some x → m'.key.lt x.key = true))) ∧
      ((s.core core).hasRoom q m.units = false → q = 4 ∨ s.blocks.values.any (fun b =>
          b.ctx == m.ctx && b.clusters.contains (clusterOf core)) = true →
        Answers (exec .messageArrive s) (fun t => (t.core core).eject = (s.core core).eject ++ [m] ∧
          ∀ j, msgsOf t core j = msgsOf s core j))) ∧
    (s.args = [core] → (s.core core).eject = m :: rest → (s.core core).hasRoom m.dq m.units = true → m.dq < 4 → m.ctr = 0 → m.hidx ≠ 1023 →
      Answers (exec .ejectAccept s) (fun t => (t.core core).eject = rest ∧ msgsOf t core m.dq = msgsOf s core m.dq ++ [m] ∧
        t.mem = s.mem)) ∧
    (s.args = [a, core] → s.channel a core 4 = m :: rest → m.sign = true → (s.ctx m.ctx).st = .running →
      (s.core core).saved = false → (s.core core).eject.any (twinOf m) = false →
      (((s.core core).queue 4).find? (fun e => twinOf m e.msg)).map (fun e => e.taken) = some false →
      Answers (exec .antiMessageArrive s) (fun t => t.channel a core 4 = rest ∧
        msgsOf t core 4 = (msgsOf s core 4).filter (fun x => !twinOf m x) ∧ t.mem = s.mem))

/-- Activation (06 R146, R149; 07 R175; 01 R24): an EMPTY slot takes the best candidate; its registers hold the message and nothing
of the activation before, its status is that of a new activation, and it starts at the handler's cursor. The read of the entry
needs no LC (log 51); accesses perform at once where a clause says so (log 20). -/
def Obligations.ActivationSetsUpTheSlot : Prop :=
  ∀ (s : State) (core slot q p key : Nat) (lc : Bool) (e : QEntry), s.args = [core, slot] → slot < 4 → s.eager = true →
    let c := s.core core
    let ctx := s.ctx c.ctx
    let gvt := (s.timelineOf core).bind (fun tl => s.gvtAt (clusterOf core) tl)
    let a := ctx.page.htbase.toNat + 32 * e.msg.hidx
    let entry (i : Nat) : Nat := leNat (s.mem.read (p + 8 * i) 8)
    let cap : Cap := ⟨BitVec.ofNat 64 (entry 0), BitVec.ofNat 64 (entry 1), true⟩
    (s.slotAt core slot).st = .empty → (∀ j, j < slot → (s.slotAt core j).st ≠ .empty) → c.window = false → ctx.st = .running → s.best core = some (q, e) →
    (q = 4 ↔ e.msg.dq = 4) → (e.msg.device = true ∨ e.msg.infm = (s.slotAt core slot).infm) →
    s.xlatAgent c.ctx 0 a .load = .ok (.mem p key lc) → s.keyed p 32 key = true → s.poisoned p 32 = false → s.tagAt p key = true → entry 2 = 1 →
    entry 3 = 0 → cap.space = 0 → hasBits cap.perm 4 = true →
    Answers (exec .activate s) (fun t =>
      let x := t.slotAt core slot
      x.st = .ready ∧ x.pc = cap.cursor ∧ x.npc = cap.cursor ∧ x.code = cap ∧ x.pkperm = ctx.page.pkdef ∧ x.began = s.clock ∧
      (∀ i : BitVec 5, x.rdG i = if i = 1 then e.msg.vrt else if i = 2 then e.msg.dw1 else if i = 3 then e.carg else 0) ∧
      (∀ i : BitVec 5, x.rdV i = if i.toNat < 4 then e.msg.pay.get (Fin.ofNat 4 i.toNat) else 0) ∧
      (∀ i : BitVec 3, i ≠ 0 → x.rdK i = 0) ∧ (∀ i : BitVec 4, x.rdC i = if i = 15 then Cap.local15 else Cap.zero) ∧
      x.tl = 0 ∧ x.ptl = 0 ∧ x.timed = decide (q = 4) ∧ x.spec = (decide (q = 4) && !(e.hold != .free && gvt == some e.msg.key)) ∧ x.gangRole = 0 ∧
      x.maint = false ∧ x.rnd = (s.slotAt core slot).rnd ∧ x.actKey = (if q = 4 then some e.msg.key else none) ∧
      (q < 4 → msgsOf t core q = (msgsOf s core q).tail) ∧ (q = 4 → msgsOf t core 4 = msgsOf s core 4))

/-! Jobs and space operations. -/

/-- A job started on the running core (11 R286, R287): the entry it takes is pending with the next generation of its id, which
the destination receives; nothing else of the slots or of memory changes. -/
def jobStarted (s t : State) (j : BitVec 5) (i kind : Nat) (id : BitVec 16) : Prop :=
  id.toNat = ((s.myCore.job i).id.toNat / 256 + 1) % 256 * 256 + i % 256 ∧ KeepsSlots s t [.g j] ∧
  t.rdG j = (if j = 0 then 0 else BitVec.ofNat 64 id.toNat) ∧
  ∃ x, t.myCore.jobOf id = some x ∧ x.st = .pending ∧ x.kind = kind

/-- The space operations, `copygo` and `clgo` (11 R287, R289 to R294; 12 R322, R330): with the capability's checks passed and an
entry of the job table, the request goes to its engine (02 R40, R41), with the fields of the operands, the issuing core and the job,
and the id to the destination. -/
def Obligations.RequestsTakeAJob : Prop :=
  ∀ (s : State) (j : BitVec 5) (cap : BitVec 4) (a b : BitVec 5) (t : BitVec 1) (i ea : Nat),
    s.me.spec = false → s.myCore.jobSlot = some i → i < 256 →
    let c := s.rdC cap
    let x := (s.rdG a).toNat
    let g := (s.rdG b).toNat
    let n := bitsOf g 0 32
    let sp := spBit c.space
    let own := pkgOf (s.cur.core % 2 ^ 20)
    let asked (u : State) (op : Nat) (id : BitVec 16) : Prop := ∃ r,
      let p := s.homeOf (s.myCtxId % 2 ^ 20) sp (ea / 4096 % 2 ^ 45) own
      (u.eng p).queue = (s.eng p).queue ++ [.space r (.job s.cur.core id)] ∧
      uf r 4 40 20 = s.cur.core % 2 ^ 20 ∧ uf r 4 24 16 = id.toNat ∧ uf r 0 4 1 = (if op = 3 then bitsOf g 32 1 else 0) ∧
      uf r 0 0 4 = op ∧ uf r 0 5 1 = sp ∧ uf r 0 32 20 = s.myCtxId % 2 ^ 20 ∧ uf r 1 0 45 = ea / 4096 % 2 ^ 45 ∧ uf r 3 0 32 = n ∧
      (op ≠ 3 → uf r 2 0 45 = bitsOf x 0 45 ∧ uf r 0 6 1 = bitsOf x 45 1 ∧ uf r 3 32 20 = bitsOf g 32 20 ∧ uf r 4 0 7 = bitsOf g 52 7 ∧
        uf r 4 19 5 = bitsOf g 59 5 ∧ uf r 4 7 12 = if op = 1 then bitsOf x 46 12 else 0)
    let space (ins : Instr) (op : Nat) : Prop :=
      (n ≠ 0 → s.accessSpace c cap.toNat false n = .ok ea → Answers (exec ins s) (fun u => ∃ id, jobStarted s u j i op id ∧
        asked u op id ∧ (t = 1 → s.me.timed = false → u.me.st = .parked (.mapResult id)) ∧ (t = 0 → u.me.st = s.me.st))) ∧
      (n = 0 → exec ins s = .next (s.raise .illegal (s.rdG b) (BitVec.ofNat 64 b.toNat))) ∧
      (∀ e, n ≠ 0 → s.accessSpace c cap.toNat false n = .error e → exec ins s = .next e)
    space (.map j cap a b t) 1 ∧ space (.grant j cap a b t) 2 ∧ space (.unmap j cap b t) 3 ∧
    (s.accessSpace c cap.toNat false (max (bitsOf x 0 32) 1) = .ok ea → Answers (exec (.rwin j cap a b) s) (fun u =>
      ∃ id r, let p := (s.ctx (s.myCtxId % 2 ^ 20)).home
        jobStarted s u j i 4 id ∧ (u.eng p).queue = (s.eng p).queue ++ [.window r (.job s.cur.core id)] ∧
        uf r 0 32 20 = s.myCtxId % 2 ^ 20 ∧ uf r 1 45 1 = sp ∧ uf r 4 40 20 = s.cur.core % 2 ^ 20 ∧ uf r 4 24 16 = id.toNat ∧ uf r 1 0 45 = ea / 4096 % 2 ^ 45 ∧ uf r 2 0 43 = x % 2 ^ 43 ∧
        uf r 0 0 4 = bitsOf x 43 4 ∧ uf r 3 0 20 = bitsOf g 0 20)) ∧
    (bitsOf x 0 2 ≠ 3 → s.accessSpace c cap.toNat true 1 = .ok ea → Answers (exec (.mq j cap a b) s) (fun u =>
      u.me.st = .parked .query ∧ KeepsSlots s u [] ∧
      let p := if bitsOf x 0 2 < 2 then s.myCtx.home else ((s.covering s.myCtxId c.space (ea / 4096)).map (fun r => r.1)).getD own
      (u.eng p).queue = (s.eng p).queue ++
        [.query s.cur.core s.cur.slot s.me.began j (bitsOf x 0 2) n s.myCtxId c.space (ea / 4096)])) ∧
    (let target := bitsOf x 0 20
     let addr := ea + 8 * bitsOf g 0 9
     s.me.tl = 2 → s.me.timed = false → target ≠ 0 → s.accessSpace c cap.toNat false 1 = .ok ea → ea < 2 ^ 52 → pkgOfAddr ea = own →
     (s.pkg own).cellar.entries.any (fun e => e.2.parent.isNone && decide (e.2.frame ≤ ea / 4096) &&
       decide (ea / 4096 < e.2.frame + e.2.npages)) = true → ((s.ctx target).groupOf addr).isSome = true →
     Answers (exec (.dharv j cap a b) s) (fun u => ∃ id, jobStarted s u j i 5 id ∧
       (u.ctx target).harvesting = (s.ctx target).harvesting ++ [addr / 8] ∧
       (u.eng own).harvests = (s.eng own).harvests ++ [⟨s.cur.core, id, target, addr, none, []⟩])) ∧
    (s.me.tl ≠ 2 → exec (.dharv j cap a b) s = .next (s.raise .illegal 0 0)) ∧
    (∀ p, s.me.timed = false → check26 c (fun y => y == 1) 1 c.cursor 32 c.cursor 32 = none →
      s.xlat 1 c.cursor.toNat 32 .load = .ok p → (s.cluster (clusterOf s.cur.core)).chainsFull = false →
      Answers (exec (.copygo j cap) s) (fun u => ∃ id y, jobStarted s u j i 6 id ∧
        (u.cluster (clusterOf s.cur.core)).chainQ = (s.cluster (clusterOf s.cur.core)).chainQ ++ [y] ∧ y.head = c.cursor.toNat ∧
        y.owner = .job id ∧ y.core = s.cur.core ∧ y.ctx = s.myCtxId ∧ y.entry = 0 ∧ y.cursor = 0)) ∧
    (∀ r u0, s.me.timed = false → s.record64 cap = .ok (r, u0) → u0.myCore.jobSlot = some i →
      Answers (exec (.clgo j cap) s) (fun u => ∃ (id : BitVec 16) (y : Coll),
        u.rdG j = (if j = 0 then 0 else BitVec.ofNat 64 id.toNat) ∧ (∀ q, q ≠ .g j → u.me.rd q = u0.me.rd q) ∧ u.mem = u0.mem ∧
        y ∈ (u.die (dieOf u0.cur.core)).coll ∧ y.desc = r ∧ y.job = id ∧ y.core = u0.cur.core ∧ y.started = false))

/-- `jobwait`, `jobq`, the protection-key and the scale instructions (11 R288, R295; 12 R319 to R321): a pending job parks the
slot, a completed one gives its result and frees its entry, a stale id gives all ones; a held job traps JOBFAULT. An entry that is FREE is no job, whatever id it still holds (log 77). -/
def Obligations.JobAndKeyInstructions : Prop :=
  ∀ (s : State) (d j a b : BitVec 5) (x : Job),
    let id : BitVec 16 := (s.rdG j).setWidth 16
    (s.me.timed = false → s.myCore.jobOf id = none → exec (.jobwait d j) s = .next (s.wrG d (BitVec.allOnes 64)) ∧
      exec (.jobq d j) s = .next (s.wrG d 2)) ∧
    (s.me.timed = false → s.myCore.jobOf id = some x → x.st = .pending → exec (.jobwait d j) s = .next (s.park (.job id)) ∧
      exec (.jobq d j) s = .next (s.wrG d 0)) ∧
    (s.me.timed = false → s.myCore.jobOf id = some x → x.st ≠ .pending → x.hold = false →
      Answers (exec (.jobwait d j) s) (fun t => KeepsSlots s t [.g d] ∧ t.rdG d = (if d = 0 then 0 else x.res) ∧
        (t.myCore.job (id.toNat % 256)).st = .free ∧
        ∀ i, i ≠ id.toNat % 256 → t.myCore.job i = s.myCore.job i)) ∧
    (s.me.timed = false → s.myCore.jobOf id = some x → x.st ≠ .pending →
      Answers (exec (.jobq d j) s) (fun t => KeepsSlots s t [.g d] ∧ t.rdG d = (if d = 0 then 0 else 1) ∧
        t.myCore.jobs = s.myCore.jobs)) ∧
    (s.me.timed = false → s.myCore.jobOf id = some x → x.st ≠ .pending → x.hold = true →
      exec (.jobwait d j) s = .next (s.raise .jobfault x.res (BitVec.ofNat 64 id.toNat))) ∧
    (s.me.timed = true → exec (.jobwait d j) s = .next (s.raise .illegal 0 0) ∧ exec (.jobq d j) s = .next (s.raise .illegal 0 0)) ∧
    exec (.pkset a) s = .next (s.setMe { s.me with pkperm := s.rdG a }) ∧
    Answers (exec (.pksetKey j a) s) (fun t => (∀ q, t.me.rd q = s.me.rd q) ∧ t.mem = s.mem ∧
      ∀ n, n < 64 → t.me.pkperm.getLsbD n =
        if n / 2 = j.toNat then (s.rdG a).getLsbD (n % 2) else s.me.pkperm.getLsbD n) ∧
    (let cl := clusterOf s.cur.core
     (s.me.timed = false → Answers (exec (.skeep a) s) (fun t => (t.cluster cl).engine.keeper = some s.cur.core ∧
       KeepsSlots s t [.g a] ∧ t.rdG a = if a = 0 then 0 else match (s.cluster cl).engine.keeper with
         | some k => BitVec.ofNat 64 (k % 8)
         | none => BitVec.allOnes 64)) ∧
     (s.me.timed = false → (s.cluster cl).engine.keeper = some s.cur.core → Answers (exec (.sksum a b) s) (fun t =>
       KeepsSlots s t [] ∧ (t.cluster cl).engine.scale.get? ((s.rdG a).toNat % 1024) = some (
         let p := (s.rdG b).toNat % 256
         let q := bitsOf (s.rdG b).toNat 8 8
         if p = 255 ∨ q = 255 then 0x8000 else BitVec.ofNat 16 ((((p : Int) + q - 254) % 512).toNat)))) ∧
     (s.me.timed = false → (s.cluster cl).engine.keeper ≠ some s.cur.core → exec (.sksum a b) s = .next (s.raise .illegal 0 0)))

/-! Gangs and barriers. -/

/-- Gangs and barriers (06 R155 to R157, R160; 10 R267 to R271): forming needs the same slot EMPTY in every other core of the
group; members start from the leader's registers; `xchg` transposes elements; a barrier releases when all have arrived. The
members' indices and the member role are the model's (log 15). -/
def Obligations.GangsAndBarriers : Prop :=
  ∀ (s : State) (d vd vs : BitVec 5) (sz : BitVec 2) (core slot size level ep : Nat) (r : GangRef),
    (sz.toNat < 3 → s.me.timed = false → s.me.tl = 0 → s.me.gang = none → Answers (exec (.gang d sz) s) (fun t =>
      KeepsSlots s t [] ∧ t.me.st = .parked (.gang (2 ^ (sz.toNat + 1)) d) ∧
      (⟨.gangDecision, [s.cur.core, s.cur.slot]⟩ : Due) ∈ t.agenda)) ∧
    (s.args = [core, slot] → (s.slotAt core slot).st = .parked (.gang size d) → 0 < size →
      let group := gangCores ⟨core, size⟩
      let lead := s.slotAt core slot
      ((∀ c ∈ group, c ≠ core → (s.slotAt c slot).st = .empty) → Answers (exec .gangDecision s) (fun t =>
        (t.slotAt core slot).st = .ready ∧ (t.slotAt core slot).gangRole = 1 ∧ (t.slotAt core slot).gang = some ⟨core, size⟩ ∧
        (t.slotAt core slot).rdG d = (if d = 0 then 0 else BitVec.ofNat 64 (core % size)) ∧ t.mem = s.mem ∧
        ∀ c ∈ group, c ≠ core → (t.slotAt c slot).st = .follower core ∧ (t.slotAt c slot).gangRole = 2 ∧
          (t.slotAt c slot).gang = some ⟨core, size⟩ ∧
          ∀ q, (t.slotAt c slot).rd q = if q = .g d then .word (if d = 0 then 0 else BitVec.ofNat 64 (c % size)) else lead.rd q)) ∧
      ((∃ c ∈ group, c ≠ core ∧ (s.slotAt c slot).st ≠ .empty) → Answers (exec .gangDecision s) (fun t =>
        (t.slotAt core slot).st = .ready ∧ (t.slotAt core slot).gang = lead.gang ∧ t.mem = s.mem ∧
        (t.slotAt core slot).rdG d = (if d = 0 then 0 else BitVec.allOnes 64)))) ∧
    (s.me.gangRole = 1 → s.me.gang = some r → r.leader = s.cur.core → Answers (exec .disband s) (fun t =>
      t.me.gang = none ∧ t.me.gangRole = 0 ∧ t.me.gangSz = 0 ∧ (∀ q, t.me.rd q = s.me.rd q) ∧ t.mem = s.mem ∧
      ∀ c ∈ gangCores r, c ≠ r.leader → (t.slotAt c s.cur.slot).st = .empty)) ∧
    (s.me.gangRole ≠ 1 → exec .disband s = .next s) ∧
    (sz.toNat < 3 → s.me.timed = false → s.me.gang = some r → Answers (exec (.xchg vd vs sz) s) (fun t =>
      let w := 8 * 2 ^ sz.toNat
      t.mem = s.mem ∧ (∀ q, q ≠ .v vd → t.me.rd q = s.me.rd q) ∧
      ∀ c ∈ gangCores r, ∀ e, e < 512 / w → elem ((t.slotAt c s.cur.slot).rdV vd) w e =
        elem ((s.slotAt (r.leader / r.size * r.size + e % r.size) s.cur.slot).rdV vs) w (e / r.size * r.size + c % r.size))) ∧
    (sz.toNat < 3 → s.me.gang = none → exec (.xchg vd vs sz) s = .next (s.raise .illegal 0 0)) ∧
    (s.me.timed = false → Answers (exec (.bar 0) s) (fun t => KeepsSlots s t [] ∧ (s.views = .empty → t = s) ∧
      ∀ c ∈ s.memberCores, ∀ c' ∈ s.memberCores, ∀ w ∈ s.view (slotAgent c' s.cur.slot), w ∈ t.view (slotAgent c s.cur.slot))) ∧
    (sz = 1 ∨ sz = 2 → s.me.timed = false → s.me.gang = none → (s.blockOf s.cur.core).isSome = true → Answers (exec (.bar sz) s) (fun t =>
      KeepsSlots s t [] ∧ t.arrivalsAt s.cur.core sz.toNat = s.arrivalsAt s.cur.core sz.toNat + 1 ∧
      t.me.st = .parked (.bar sz.toNat (s.arrivalsAt s.cur.core sz.toNat + 1)) ∧
      (⟨.barrierComplete, [s.cur.core, sz.toNat]⟩ : Due) ∈ t.agenda)) ∧
    (s.args = [core, level] → Answers (exec .barrierComplete s) (fun t => t.mem = s.mem ∧
      (∀ c i q, (t.slotAt c i).rd q = (s.slotAt c i).rd q) ∧
      ∀ c ∈ s.barMembers core level, ∀ i, i < 4 → (s.slotAt c i).st = .parked (.bar level ep) →
        (t.slotAt c i).st = if s.episodeDone core level ep then .ready else .parked (.bar level ep)))

/-! Grids. -/

/-- The grid instructions (12 R319, R333 to R337; 06 R159, R164, R166): `glaunch` hands a checked record over and gives the grid's
id; `gtrig` and `gexit` act for their core, a nonzero status being the block's fault; `gid` reads the place. Accesses perform at once where a clause says so (log 20). -/
def Obligations.GridInstructions : Prop :=
  ∀ (s : State) (j : BitVec 5) (cap : BitVec 4) (sel : BitVec 3) (i : Nat) (b : Block) (r : Vector Word 8) (u : State),
    plainSlot s →
    let ctx := s.myCtxId
    let core := s.cur.core
    let ofBlock (x : Nat) : Word := if (s.blockOf core).isSome then BitVec.ofNat 64 x else BitVec.allOnes 64
    (s.me.spec = false → s.record64 cap = .ok (r, u) →
      (recordFault r ((s.rdC cap).space == 1) = none → Answers (exec (.glaunch j cap) s) (fun t => KeepsSlots s t [.g j] ∧
        t.rdG j = (if j = 0 then 0
          else BitVec.ofNat 64 (((s.ctx ctx).gridCount + (s.ctx ctx).launches.length) % 2 ^ 32)) ∧
        (t.ctx ctx).launches.map (fun l => l.dw) = (s.ctx ctx).launches.map (fun l => l.dw) ++ [r] ∧
        (⟨.launchAccept, [ctx]⟩ : Due) ∈ t.agenda)) ∧
      (∀ f x y, recordFault r ((s.rdC cap).space == 1) = some (f, x, y) →
        exec (.glaunch j cap) s = .next (u.raise f (BitVec.ofNat 64 x) (BitVec.ofNat 64 y)))) ∧
    (s.blockOf core = none → exec .gtrig s = .next (s.raise .illegal 0 0) ∧ exec (.gexit j) s = .next (s.raise .illegal 0 0)) ∧
    (s.blockOf core = some (i, b) → s.me.timed = false → s.me.tl ≠ 2 →
      Answers (exec .gtrig s) (fun t => t.myCore.trigged = true ∧ KeepsSlots s t [] ∧
        ((∀ c ∈ b.cores, c = core ∨ (s.core c).trigged = true ∨ (s.core c).exited = true) →
          ∃ b', t.blocks.get? i = some b' ∧ b'.trigged = true)) ∧
      (s.myCore.heldJob = none → s.accessesDone = true → s.me.gang = none → s.myCore.dbg.trace = false →
        Answers (exec (.gexit j) s) (fun t => t.myCore.exited = true ∧ t.me.st = .empty ∧ (∀ q, t.me.rd q = s.me.rd q) ∧
          t.mem = s.mem ∧ (⟨.blockRetire, [clusterOf core]⟩ : Due) ∈ t.agenda ∧
          (s.rdG j ≠ 0 → b.fault = none → ∃ b', t.blocks.get? i = some b' ∧ b'.stopping = true ∧
            b'.fault = some ⟨b.index, core, 0, s.rdG j, wordOfInt s.me.pc⟩))) ∧
      (∀ x, s.myCore.heldJob = some x → exec (.gexit j) s = .next (s.raise .jobfault x.res (BitVec.ofNat 64 x.id.toNat)))) ∧
    (b = ((s.blockOf core).map (fun x => x.2)).getD b → exec (.gid j sel) s = .next (s.wrG j (match sel.toNat with
      | 0 => ofBlock b.index
      | 1 => ofBlock (b.cores.findIdx (fun c => c == core))
      | 2 => ofBlock (b.rows * 256 + b.cols)
      | 3 => ofBlock (b.grid % 2 ^ 32)
      | 4 => ofBlock (((s.grid b.ctx b.grid).map (fun g => g.nblk)).getD 0)
      | 5 => BitVec.ofNat 64 (core % 2 ^ 20)
      | 6 => BitVec.ofNat 64 (s.place core)
      | _ => BitVec.ofNat 64 ctx))) ∧
    (s.me.timed = false → ∀ g, s.grid ctx (bitsOf (s.rdG j).toNat 0 32) = some g →
      exec (.gcancel j) s = .next (if g.complete then s else s.dueOne .gridCancelPoint [ctx, bitsOf (s.rdG j).toNat 0 32]))

/-- A grid's life (06 R159, R161 to R167; 12 R333, R334; 20 R394 to R396): acceptance, dealing lowest indices first, placing a
block with a start message to each core, retirement and its counts, faults, triggers, cancellation, and the record. When a
launch that fits no die is refused is the model's (log 48); accesses perform at once where a clause says so (log 20). -/
def Obligations.GridsRunToTheirRecord : Prop :=
  ∀ (s : State) (ctx id die cl core p k i : Nat) (l : Launch) (rest : List Launch) (g : Grid) (b : Block) (rect more : List Nat),
    (s.args = [ctx] → (s.ctx ctx).launches = l :: rest → l.queue = none → recIlines l.dw = 0 → Answers (exec .launchAccept s) (fun t =>
      (t.ctx ctx).launches = rest ∧ (t.ctx ctx).gridCount = (s.ctx ctx).gridCount + 1 ∧ t.mem = s.mem ∧
      ∃ x, t.grid ctx (s.ctx ctx).gridCount = some x ∧ x.nblk = recNblk l.dw ∧ x.launch.dw = l.dw ∧
        (l.refused = false → s.fits ctx l.dw = true → x.next = 0 ∧ x.nnever = 0 ∧ x.launch.refused = false) ∧
        (l.refused = true ∨ s.fits ctx l.dw = false → x.nnever = recNblk l.dw ∧ x.launch.refused = true))) ∧
    (s.args = [die] → s.headGrid die = some (ctx, id, g) → (g.next ≠ 0 ∨ s.fits ctx g.launch.dw = true) →
      ((g.ranges.getD die []).isEmpty = false → exec .roomRequest s = .next (s.dueOne .blockRelease [die])) ∧
      ((g.ranges.getD die []).isEmpty = true → (s.findRect die (recCols g.launch.dw) (recRows g.launch.dw) []).isSome = true →
        exec .roomRequest s = .next (s.dueOne .blockGrant [die]))) ∧
    (s.args = [die] → s.headGrid die = some (ctx, id, g) → s.grid ctx id = some g → (s.ctx ctx).dies.contains die = true →
      (s.ctx ctx).dies.contains (die / 2 * 2 + 1 - die % 2) = false → Answers (exec .blockGrant s) (fun t => t.mem = s.mem ∧
        ∃ n x, n = min (s.room die (recCols g.launch.dw) (recRows g.launch.dw) 256 [] - (g.ranges.getD die []).length)
            (g.nblk - g.next) ∧ t.grid ctx id = some x ∧ x.next = g.next + n ∧
          x.ranges.getD die [] = g.ranges.getD die [] ++ (List.range n).map (fun j => g.next + j))) ∧
    (s.args = [die] → s.headGrid die = some (ctx, id, g) → g.ranges.getD die [] = i :: more →
      s.findRect die (recCols g.launch.dw) (recRows g.launch.dw) [] = some rect → recHidx g.launch.dw ≠ 1023 →
      Answers (exec .blockRelease s) (fun t => ∃ y, t.blocks.get? s.nextBlock = some y ∧ y.index = i ∧ y.clusters = rect ∧
        y.grid = id ∧ y.ctx = ctx ∧ t.nextBlock = s.nextBlock + 1 ∧ (∀ c ∈ rect, (t.cluster c).block = some s.nextBlock) ∧
        (∃ x, t.grid ctx id = some x ∧ x.ranges.getD die [] = more) ∧
        ∀ c ∈ y.cores, (t.core c).exited = false ∧ (t.core c).trigged = false ∧
          ∃ m, (m ∈ msgsOf t c 0 ∨ m ∈ (t.core c).eject) ∧ m.hidx = recHidx g.launch.dw ∧ m.seq = i % 2 ^ 32 ∧ m.src = c % 2 ^ 20)) ∧
    (s.args = [cl] → (s.cluster cl).block = some i → s.blocks.get? i = some b → s.grid b.ctx b.grid = some g →
      (∀ c ∈ b.cores, (s.core c).exited = true ∧ (s.core c).working i = false ∧ (s.core c).fatalWaits = false) →
      (b.fault = none ∨ b.reported = true ∧
        (recCanf g.launch.dw = true → g.cancelled = true → g.arrived.contains (b.clusters.headD 0 / 512) = true)) →
      Answers (exec .blockRetire s) (fun t =>
        t.blocks.get? i = none ∧ (∀ c ∈ b.clusters, (t.cluster c).block = none) ∧ t.mem = s.mem ∧
        (∀ c ∈ b.cores, ∀ q, q < 4 → (t.core c).queue q = []) ∧
        ∃ x, t.grid b.ctx b.grid = some x ∧ x.ended = g.ended + 1 ∧
          x.nfault = g.nfault + (if b.fault.isSome then 1 else 0) ∧
          x.nstop = g.nstop + (if b.fault.isNone && b.stopping then 1 else 0) ∧
          x.ndone = g.ndone + (if b.fault.isNone && !b.stopping then 1 else 0))) ∧
    (s.args = [cl] → (s.cluster cl).block = some i → s.blocks.get? i = some b → s.grid b.ctx b.grid = some g →
      ∀ f, b.fault = some f → Answers (exec .blockFaultReport s) (fun t => t.mem = s.mem ∧
        (∃ x h, t.grid b.ctx b.grid = some x ∧ x.fault = some h ∧ h.block ≤ f.block ∧
          (∀ h', g.fault = some h' → h.block = min h'.block f.block) ∧ (g.fault = none → h = f)) ∧
        (recCanf g.launch.dw = true → g.cancelled = false → g.complete = false → g.launch.refused = false →
          (∃ x, t.grid b.ctx b.grid = some x ∧ x.cancelled = true ∧ x.next = g.nblk) ∧
          ∀ d ∈ (s.ctx b.ctx).dies, (⟨.cancelArrive, [b.ctx, b.grid, d / 2]⟩ : Due) ∈ t.agenda))) ∧
    (s.args = [core] → s.blockOf core = some (i, b) → b.stopping = true → (s.core core).exited = false → (s.core core).saved = false →
      (∀ x ∈ (s.core core).slots.toList, x.st = .empty ∨ x.timed = true) → Answers (exec .blockStop s) (fun t =>
        (t.core core).exited = true ∧ t.mem = s.mem ∧ (⟨.blockRetire, [clusterOf core]⟩ : Due) ∈ t.agenda)) ∧
    (s.args = [ctx, id] → s.grid ctx id = some g → g.triggered = false → g.nblk ≤ g.trigBlk → g.cancelled = false →
      s.performedAll g.view = true → recTrig g.launch.dw = 0 → Answers (exec .gridTrigger s) (fun t => t.grid ctx id = some { g with triggered := true } ∧
        t.mem = s.mem ∧ (⟨.gridComplete, [ctx, id]⟩ : Due) ∈ t.agenda)) ∧
    (s.inv → s.args = [ctx, id] → s.grid ctx id = some g → g.complete = false → g.triggered = true → g.nblk ≤ g.ended + g.nnever →
      g.launch.unread = false → recCrec g.launch.dw % 64 = 0 → s.eager = true → s.gridWorks ctx id = false →
      s.engPlaces (s.podEng (gridAgent ctx) ctx) (recCrec g.launch.dw) 0 64 true = .ok [(.mem p k, 64)] →
      Answers (exec .gridComplete s) (fun t => t.grid ctx id = some { g with complete := true } ∧
        leNat (t.mem.read p 8) = (if g.destroyed then 3 else if g.launch.refused then 4 else if 0 < g.nfault then 1
          else if g.cancelled then 2 else 0) ∧
        leNat (t.mem.read (p + 8) 8) = (g.nfault * 2 ^ 32 + g.ndone) % 2 ^ 64 ∧
        leNat (t.mem.read (p + 16) 8) = (g.nnever * 2 ^ 32 + g.nstop) % 2 ^ 64)) ∧
    (s.args = [ctx, id] → s.grid ctx id = some g → g.cancelled = false → g.complete = false → g.launch.refused = false →
      Answers (exec .gridCancelPoint s) (fun t => t.mem = s.mem ∧ t.grid ctx id = some { g with
          cancelled := true, next := g.nblk, nnever := g.nnever + (g.nblk - g.next), trigBlk := g.trigBlk + (g.nblk - g.next) } ∧
        ∀ d ∈ (s.ctx ctx).dies, (⟨.cancelArrive, [ctx, id, d / 2]⟩ : Due) ∈ t.agenda)) ∧
    (s.args = [ctx, id, p] → s.grid ctx id = some g → g.arrived.contains p = false → Answers (exec .cancelArrive s) (fun t =>
      t.mem = s.mem ∧ (∃ x, t.grid ctx id = some x ∧ x.ranges.getD (2 * p) [] = [] ∧ x.ranges.getD (2 * p + 1) [] = [] ∧
        x.nnever = g.nnever + ((g.ranges.getD (2 * p) []).length + (g.ranges.getD (2 * p + 1) []).length) ∧
        x.arrived.contains p = true) ∧
      (∀ n y, s.blocks.get? n = some y → y.ctx = ctx → y.grid = id → (∃ c ∈ y.clusters, c / 512 = p) →
        ∃ y', t.blocks.get? n = some y' ∧ y'.stopping = true) ∧ (⟨.cancelAck, [ctx, id, p]⟩ : Due) ∈ t.agenda)) ∧
    (s.args = [ctx, id, p] → s.grid ctx id = some g → g.arrived.contains p = true → Answers (exec .cancelAck s) (fun t =>
      t.mem = s.mem ∧ (∃ x, t.grid ctx id = some x ∧ x.acked.contains p = true) ∧
      (⟨.gridTrigger, [ctx, id]⟩ : Due) ∈ t.agenda ∧ (⟨.gridComplete, [ctx, id]⟩ : Due) ∈ t.agenda))

/-! The mapping engine. -/

/-- A job of a core that was pending has completed with a result (02 R42; 11 R286). -/
def jobDone (s t : State) (u : Vector Word 5) (o : Origin) (res : Nat) : Prop :=
  ∀ core id x, o = .job core id → (s.core core).ctx = uf u 0 32 20 → (s.core core).jobOf id = some x → x.st = .pending →
    ∃ y, (t.core core).jobOf id = some y ∧ y.st = .done ∧ y.res = BitVec.ofNat 64 res

/-- Memory is as before a request's result but where its context is SAVED: the job entries of its Loft image are memory (14 R371). -/
def sameMem (s t : State) (u : Vector Word 5) : Prop := (s.ctx (uf u 0 32 20)).st ≠ .saved → t.mem = s.mem

/-- The order of an engine after the request whose turn it was has been served (02 R41). -/
def servedQueue (s : State) (pkg : Nat) : List EngReq :=
  if (s.eng pkg).busy = .idle then (s.eng pkg).queue.tail
  else (s.eng pkg).queue.take 1 ++ (s.eng pkg).queue.tail.eraseP (s.passes pkg)

/-- Sharing and giving pages (02 R42, R43, R46 to R48, R53): a request that passes the source's checks asks for a reservation; the
destination reserves or refuses by code; a map makes a child of the source, a grant moves the node; the result follows. -/
def Obligations.MappingSharesPages : Prop :=
  ∀ (s : State) (pkg dest n : Nat) (u : Vector Word 5) (o : Origin) (rest : List EngReq) (src : Nat)
    (unit : Vector Word 5) (e : Nat × Node),
    let cellar := (s.pkg pkg).cellar
    let svpn := uf u 1 0 45
    let rctx := uf unit 3 32 20
    let from_ := uf unit 0 32 20
    let source (i : Instr) (op : Nat) (grant : Bool) : Prop :=
      s.args = [pkg] → (s.eng pkg).queue = .space u o :: rest → (s.eng pkg).busy = .idle → uf u 0 0 4 = op →
        (∀ l, s.sourceChecks pkg u grant = .ok l → Answers (exec i s) (fun t => t.mem = s.mem ∧
          let d := (s.ctx (uf u 3 32 20)).home
          (t.eng pkg).busy = .waiting u o d ∧ (t.eng d).queue = (if d = pkg then .space u o :: .reserve pkg u :: rest
            else (s.eng d).queue ++ [.reserve pkg u]) ∧ (t.pkg pkg).cellar = cellar ∧
          ((d = pkg ∨ (s.eng d).queue = [] ∧ (s.eng d).busy = .idle) → (⟨.reservation, [d]⟩ : Due) ∈ t.agenda))) ∧
        (∀ c k, s.sourceChecks pkg u grant = .error (c, k) → Answers (exec i s) (fun t => sameMem s t u ∧
          (t.eng pkg).queue = rest ∧ (t.pkg pkg).cellar = cellar ∧ jobDone s t u o (k % 2 ^ 32 * 256 + c.num)))
    source (.mapRequest) 1 false ∧ source (.grantRequest) 2 true ∧
    (s.args = [pkg] → s.turn pkg = some (.reserve src unit) → (s.eng src).busy = .waiting u o dest →
      let answers (code k : Nat) : Prop := Answers (exec .reservation s) (fun t => (t.eng pkg).queue = servedQueue s pkg ∧
        t.mem = s.mem ∧ (t.eng src).busy = .answered u o dest code k ∧ (⟨.reservationAnswer, [src]⟩ : Due) ∈ t.agenda)
      let live := (s.ctx rctx).st = .saved ∨ (s.ctx rctx).st = .running
      let taken := s.firstTaken pkg rctx (uf unit 0 6 1) (uf unit 2 0 45) (uf unit 3 0 32)
      let window (i : Nat) := (s.ctx rctx).windows.get (Fin.ofNat 16 i)
      ((s.ctx rctx).frozen = true → answers 5 0) ∧
      ((s.ctx rctx).frozen = false → (rctx = 0 ∨ ¬live) → answers 2 0) ∧
      ((s.ctx rctx).frozen = false → rctx ≠ 0 → live → from_ ≠ 0 → from_ ≠ 0xFFFFF →
        (∀ i, i < 16 → (window i).admits unit = false) → answers 2 0) ∧
      ((s.ctx rctx).frozen = false → rctx ≠ 0 → live → (from_ = 0 ∨ from_ = 0xFFFFF ∨ ∃ i, i < 16 ∧ (window i).admits unit = true) →
        (∀ k, taken = some k → answers 7 k) ∧ (taken = none → answers 0 0))) ∧
    (s.args = [pkg] → (s.eng pkg).busy = .answered u o dest 0 n → uf u 0 0 4 = 1 →
      (s.eng dest).resv.any (fun r => r.isOf u) = true → s.sources pkg u = .ok [e] →
      0 < freeNodes cellar → Answers (exec .reservationAnswer s) (fun t => sameMem s t u ∧ jobDone s t u o 256 ∧
        (∀ id, id ≠ freeNode cellar → (t.pkg pkg).cellar.get? id = cellar.get? id) ∧
        ∃ y, (t.pkg pkg).cellar.get? (freeNode cellar) = some y ∧ y.parent = some e.1 ∧ y.depth = e.2.depth + 1 ∧
          y.ctx = uf u 3 32 20 ∧ y.sp = uf u 0 6 1 ∧ y.perm = BitVec.ofNat 7 (uf u 4 0 7) ∧ y.pkey = uf u 4 19 5 ∧ y.revoked = false ∧
          y.frame = e.2.frame + (max svpn e.2.vpn - e.2.vpn) ∧ y.vpn = uf u 2 0 45 + (max svpn e.2.vpn - svpn) ∧
          y.npages = min (svpn + uf u 3 0 32) (e.2.vpn + e.2.npages) - max svpn e.2.vpn)) ∧
    (s.args = [pkg] → (s.eng pkg).busy = .answered u o dest 0 n → uf u 0 0 4 = 2 → 0 < e.2.npages →
      (s.eng dest).resv.any (fun r => r.isOf u) = true → s.sources pkg u = .ok [e] → cellar.get? e.1 = some e.2 →
      grantCuts cellar svpn (svpn + uf u 3 0 32) [e] = none → e.2.vpn = svpn → e.2.npages = uf u 3 0 32 →
      (∀ k ∈ kids cellar e.1, k.1 ≠ e.1) →
      Answers (exec .reservationAnswer s) (fun t => t.mem = s.mem ∧
        (∃ y, (t.pkg pkg).cellar.get? e.1 = some y ∧ y.ctx = uf u 3 32 20 ∧ y.sp = uf u 0 6 1 ∧ y.vpn = uf u 2 0 45 ∧
          y.frame = e.2.frame ∧ y.npages = e.2.npages ∧ y.perm = BitVec.ofNat 7 (uf u 4 0 7) ∧ y.granted = true ∧ y.depth = e.2.depth) ∧
        ∃ x ∈ (t.eng pkg).shoots, x.grant = true ∧ x.unit = u ∧ x.origin = o ∧ x.count = 0)) ∧
    (s.args = [pkg] → (s.eng pkg).busy = .answered u o dest n 0 → n ≠ 0 → Answers (exec .reservationAnswer s) (fun t =>
      sameMem s t u ∧ (t.pkg pkg).cellar = cellar ∧ (t.eng pkg).busy = .idle ∧ jobDone s t u o n)) ∧
    (∀ drops, s.args = [pkg] → (s.eng pkg).drops = (u, o, dest, n) :: drops → Answers (exec .reservationDrop s) (fun t => sameMem s t u ∧
      (t.eng pkg).drops = drops ∧ (t.eng pkg).resv = (s.eng pkg).resv.filter (fun r => !r.isOf u) ∧
      jobDone s t u o (n % 2 ^ 32 * 256 + dest))) ∧
    (∀ rel, s.args = [pkg] → (s.eng pkg).releases = u :: rel → Answers (exec .reservationRelease s) (fun t => t.mem = s.mem ∧
      (t.eng pkg).releases = rel ∧ (t.eng pkg).resv = (s.eng pkg).resv.filter (fun r => !r.isOf u))) ∧
    (∀ x, s.args = [pkg] → (s.eng pkg).ready true = some x → Answers (exec .grantComplete s) (fun t => sameMem s t x.unit ∧
      (∀ y ∈ (t.eng pkg).shoots, y.id ≠ x.id) ∧ jobDone s t x.unit x.origin (x.count % 2 ^ 32 * 256)))

/-- Withdrawing pages, windows, queries and harvests (02 R44, R57 to R64; 03 R71, R83; 11 R291, R292): the cut revokes every child of
the pages; a die drops the named translations; the nodes are freed; a harvest takes its dword and leaves zero. Accesses perform at once
where a clause says so (log 20). -/
def Obligations.WithdrawalCutsTheSubtree : Prop :=
  ∀ (s : State) (pkg die ctx core slot began mode nodeid sp vpn : Nat) (dest : BitVec 5) (u : Vector Word 5) (o : Origin)
    (rest : List EngReq) (x : Shoot) (h : Harvest) (id : BitVec 16) (j : Job),
    let cellar := (s.pkg pkg).cellar
    let lo := uf u 1 0 45
    let hi := lo + uf u 3 0 32
    let held := meeting cellar (uf u 0 32 20) (uf u 0 5 1) lo hi
    (s.args = [pkg] → (s.eng pkg).queue = .space u o :: rest → (s.eng pkg).busy = .idle → uf u 0 0 4 = 3 → (∃ c i, o = .job c i) →
      s.heldElsewhere pkg (uf u 0 32 20) (uf u 0 5 1) lo hi = [] →
      (held = [] → Answers (exec .unmapRequest s) (fun t => sameMem s t u ∧ (t.eng pkg).queue = rest ∧ jobDone s t u o 1)) ∧
      (held ≠ [] → (∀ e ∈ held, cutBelow cellar 17 e.1 = false) → Answers (exec .unmapRequest s) (fun t =>
        t.mem = s.mem ∧ (t.eng pkg).queue = rest ∧
        (∀ e ∈ held, ∀ c ∈ kids cellar e.1, cellar.get? c.1 = some c.2 →
          c.2.frame < e.2.frame + (min hi (e.2.vpn + e.2.npages) - e.2.vpn) →
          e.2.frame + (max lo e.2.vpn - e.2.vpn) < c.2.frame + c.2.npages →
          ∃ y, (t.pkg pkg).cellar.get? c.1 = some y ∧ y.revoked = true) ∧
        ∃ y ∈ (t.eng pkg).shoots, y.grant = false ∧ y.unit = u ∧ y.origin = o))) ∧
    (s.args = [pkg, die] → (s.eng pkg).shoots.find? (fun y => y.dies.contains die) = some x → s.eager = true →
      (s.die die).walks.any (fun w => (x.ranges.map (fun r => r.1)).contains w.ctx) = false →
      Answers (exec .shootdownAck s) (fun t => t.mem = s.mem ∧
        (∀ c, dieOf c = die → ∀ e ∈ (t.core c).rangeTlb ++ (t.core c).pageTlb, x.ranges.any (fun r => e.within r) = false) ∧
        (∀ c, dieOf (c * 8) = die → ∀ e ∈ (t.cluster c).tlb2, x.ranges.any (fun r => e.within r) = false) ∧
        (∀ y ∈ (t.eng pkg).shoots, y.id = x.id → y.dies = x.dies.filter (fun d => d != die)))) ∧
    (s.args = [pkg] → (s.eng pkg).ready false = some x → Answers (exec .unmapComplete s) (fun t => sameMem s t x.unit ∧
      (∀ i ∈ x.nodes, (t.pkg pkg).cellar.get? i = none) ∧ (∀ y ∈ (t.eng pkg).shoots, y.id ≠ x.id) ∧
      jobDone s t x.unit x.origin (x.count % 2 ^ 32 * 256))) ∧
    (s.args = [pkg] → s.turn pkg = some (.window u o) → Answers (exec .windowUpdate s) (fun t => sameMem s t u ∧
      (t.eng pkg).queue = servedQueue s pkg ∧ jobDone s t u o 0 ∧
      (t.ctx (uf u 0 32 20)).windows.get (Fin.ofNat 16 (uf u 0 0 4)) = ⟨uf u 1 0 45, uf u 2 0 32, uf u 1 45 1, BitVec.ofNat 7 (uf u 2 32 7),
        BitVec.ofNat 2 (uf u 2 39 2), uf u 2 41 1 == 1, uf u 3 0 20, uf u 2 42 1 == 1⟩)) ∧
    (s.args = [pkg] → s.turn pkg = some (.query core slot began dest mode nodeid ctx sp vpn) → (s.slotAt core slot).began = began →
      (s.slotAt core slot).st = .parked .query → (s.queryNext pkg mode ctx sp vpn = none → Answers (exec .mqQuery s) (fun t => t.mem = s.mem ∧
        (t.slotAt core slot).st = .ready ∧ (t.slotAt core slot).rdV dest = s.queryImage pkg mode nodeid ctx sp vpn ∧
        (∀ q, q ≠ .v dest → (t.slotAt core slot).rd q = (s.slotAt core slot).rd q) ∧ (t.eng pkg).queue = servedQueue s pkg)) ∧
      (∀ p, s.queryNext pkg mode ctx sp vpn = some p → Answers (exec .mqQuery s) (fun t => t.mem = s.mem ∧
        (t.slotAt core slot).st = .parked .query ∧ (t.eng pkg).queue = servedQueue s pkg ∧
        (t.eng p).queue = (s.eng p).queue ++ [.query core slot began dest mode nodeid ctx sp vpn]))) ∧
    (s.args = [core, slot] → (s.slotAt core slot).st = .parked (.mapResult id) → (s.core core).jobOf id = some j → j.st ≠ .pending →
      (j.res.toNat % 256 = 0 → Answers (exec .mapResult s) (fun t => t.mem = s.mem ∧ (t.slotAt core slot).st = .ready ∧
        ((t.core core).job (id.toNat % 256)).st = .free ∧ ∀ q, (t.slotAt core slot).rd q = (s.slotAt core slot).rd q)) ∧
      (j.res.toNat % 256 ≠ 0 → (s.slotAt core slot).spec = false → (s.slotAt core slot).gang = none → (s.slotAt core slot).gangRole ≠ 2 →
        (s.slotAt core slot).tl = 0 → (s.core core).xtvec1.getLsbD 0 = true → Answers (exec .mapResult s) (fun t =>
          (t.slotAt core slot).bank1.xcause = 0x15 ∧ (t.slotAt core slot).bank1.xval = j.res ∧
          (t.slotAt core slot).bank1.xval2 = BitVec.ofNat 64 id.toNat ∧
          (t.slotAt core slot).bank1.xpc = wordOfInt ((s.slotAt core slot).pc - 8) ∧ (t.slotAt core slot).tl = 1))) ∧
    (s.args = [ctx] → (s.ctx ctx).st = .retiring → ctx ≠ 0 →
      (∀ e ∈ s.pkgs.entries, ∀ d ∈ e.2.cellar.entries, d.2.ctx ≠ ctx) → Answers (exec .contextFree s) (fun t =>
        t.ctx ctx = Ctx.reset ∧ t.mem = s.mem ∧ ∀ e ∈ t.timelines.entries, e.2 ≠ ctx)) ∧
    (s.inv → s.args = [pkg] → (s.eng pkg).harvests.find? (fun y => y.swapped.isNone) = some h →
      s.poison.contains (h.addr / 64) = false → Answers (exec .harvestSwap s) (fun t =>
      leNat (t.mem.read h.addr 8) = 0 ∧ (⟨.harvestComplete, [pkg]⟩ : Due) ∈ t.agenda ∧
      ∃ y ∈ (t.eng pkg).harvests, y.core = h.core ∧ y.id = h.id ∧ y.swapped = some (BitVec.ofNat 64 (leNat (s.mem.read h.addr 8))))) ∧
    (s.args = [pkg] → s.eager = true → ((s.eng pkg).harvests.filter (fun y => y.swapped.isSome)).find? s.harvested = some h →
      (s.core h.core).jobOf h.id = some j → j.st = .pending → Answers (exec .harvestComplete s) (fun t => t.mem = s.mem ∧
        ((t.ctx h.ctx).harvesting.contains (h.addr / 8) = false) ∧
        ∃ y, (t.core h.core).jobOf h.id = some y ∧ y.st = .done ∧ h.swapped = some y.res))

/-! The copy unit and collectives. -/

/-- A job of a core that was pending has ended with a result, FAULTED where it says so (11 R286). -/
def jobEnded (s t : State) (ctx core : Nat) (id : BitVec 16) (res : Nat) (faulted : Bool) : Prop :=
  ∀ x, (s.core core).ctx = ctx → (s.core core).jobOf id = some x → x.st = .pending →
    ∃ y, (t.core core).jobOf id = some y ∧ y.st = (if faulted then .faulted else .done) ∧ y.res = BitVec.ofNat 64 res

/-- The copy unit (12 R322 to R329; 04 R103 to R106; 14 R369): a chain starts at its head and goes entry by entry; each entry
with clear reserved bits has its effect on memory, and the chain goes on or ends with the result of R327.
A GATH row moves in one step (log 76); accesses perform at once where a clause says so (log 20). -/
def chainsWalkTheirEntries : Prop :=
  ∀ (s u : State) (cl id i : Nat) (c : Chain) (e : List Nat) (rest : List Chain),
    let k := s.cluster cl
    let d (n : Nat) : Nat := e.getD n 0
    let at_ (op : Nat) (away : Bool) : Prop := s.eager = true ∧ (s.ctx c.ctx).st ≠ .saved ∧ s.args = [cl, id] ∧ s.chain cl id = some c ∧ s.chainEntry cl c = .ok (e, u) ∧
      d 0 % 256 = op ∧ c.stopped = false ∧ c.ending = none ∧ (away = true → ∀ st b, (s.ctx c.ctx).sw ≠ .window st b)
    let ends (t : State) (cause : Nat) : Prop := t.chain cl id = none ∧
      ∀ j, c.owner = .job j → jobEnded s t c.ctx c.core j (c.cursor % 2 ^ 40 * 2 ^ 24 + c.entry % 65536 * 256 + cause % 256) (cause != 0)
    -- starting
    (∀ core slot head, s.args = [core, slot, head] → head < 65536 → (s.core core).jobSlot = some i →
      (s.cluster (clusterOf core)).chainsFull = false → Answers (exec .cukick s) (fun t =>
      t.mem = s.mem ∧ ∃ j y, (t.slotAt core slot).kickId = some j ∧ (t.cluster (clusterOf core)).chainQ =
        (s.cluster (clusterOf core)).chainQ ++ [y] ∧ y.head = head ∧ y.owner = .job j ∧ y.core = core ∧ y.entry = 0 ∧ y.cursor = 0)) ∧
    (s.args = [cl] → k.chainQ = c :: rest → k.chains.length < Config.chainsWalked → s.eager = true →
      (s.modCluster cl (fun x => { x with chains := k.chains ++ [c], chainQ := rest })).chainEntry cl c = .ok (e, u) →
      (entryStep (d 0 % 256)).isSome = true → Answers (exec .chainStart s) (fun t => t.mem = u.mem ∧
        (t.cluster cl).chainQ = rest ∧ (t.cluster cl).chains = k.chains ++ [c] ∧
        ∃ x ∈ t.agenda, entryStep (d 0 % 256) = some x.step ∧ x.args = [cl, c.id])) ∧
    (∀ st b, s.args = [cl, id] → s.chain cl id = some c → (s.ctx c.ctx).sw = .window st b → st + 2000000 ≤ s.now →
      Answers (exec .chainCarryOnStop s) (fun t => t.mem = s.mem ∧ ∃ y, t.chain cl id = some y ∧ y.stopped = true ∧ y.entry = c.entry ∧
        y.cursor = c.cursor ∧ ∀ j x, c.owner = .job j → (s.core c.core).jobOf j = some x → x.st = .pending →
          ∃ x', (t.core c.core).jobOf j = some x' ∧ x'.st = .pending ∧
            x'.res = BitVec.ofNat 64 (c.cursor % 2 ^ 40 * 2 ^ 24 + c.entry % 65536 * 256))) ∧
    -- entries without data
    (at_ 0 false → resClear e [0xFF, 0, 0, 0] = true → Answers (exec .stop s) (fun t => t.mem = u.mem ∧ ends t 0)) ∧
    (at_ 0 false → resClear e [0xFF, 0, 0, 0] = false → Answers (exec .stop s) (fun t => t.mem = u.mem ∧ ends t 2)) ∧
    (at_ 6 false → resClear e [0xFFFF00FF, 0, 0, 0] = true → exec .jump s = .next (u.chainGo cl c (bitsOf (d 0) 16 16))) ∧
    (∀ bs v, at_ 5 false → resClear e [0x7FFFF00FF, 2 ^ 64 - 1, 2 ^ 64 - 1, 0] = true → bitsOf (d 0) 32 3 < 4 → d 1 % 8 = 0 →
      (∃ sp, descSpace (d 1) = .ok sp) → u.engRead (c.eng cl) (d 1) 0 8 = .ok (bs, v) →
      exec .cond s = .next (v.chainGo cl c (
        if (match bitsOf (d 0) 32 3 with
          | 0 => leNat bs == d 2
          | 1 => leNat bs != d 2
          | 2 => decide (leNat bs < d 2)
          | _ => decide (d 2 ≤ leNat bs)) then bitsOf (d 0) 16 16 else c.entry + 1))) ∧
    (at_ 4 false → resClear e [0xFFFFFFFFFFFF00FF, 0xFFFF, 2 ^ 64 - 1, 0] = true → d 1 % 65536 = 0xFFFF →
      (c.loops.find? (fun l => l.1 == c.entry) = none → c.loops.length < 4 → 2 ≤ bitsOf (d 0) 32 32 →
        ∃ l, exec .loopEntry s = .next (u.chainGo cl { c with loops := (c.entry, bitsOf (d 0) 32 32 - 2) :: l } (bitsOf (d 0) 16 16))) ∧
      (∀ n, c.loops.find? (fun l => l.1 == c.entry) = some (c.entry, n + 1) →
        ∃ l, exec .loopEntry s = .next (u.chainGo cl { c with loops := (c.entry, n) :: l } (bitsOf (d 0) 16 16))) ∧
      (c.loops.find? (fun l => l.1 == c.entry) = some (c.entry, 0) →
        exec .loopEntry s = .next (u.chainGo cl { c with loops := c.loops.filter (fun l => l.1 != c.entry) } (c.entry + 1)))) ∧
    (at_ 8 false → resClear e [0xFF, 2 ^ 43 - 1, 2 ^ 64 - 1, 2 ^ 64 - 1] = true → bitsOf (d 1) 20 3 < 4 →
      (s.core c.core).port.length < Config.portDepth → Answers (exec .note s) (fun t => (c.inGlobal = false → t.mem = s.mem) ∧
        ∃ m, (t.core c.core).port = (s.core c.core).port ++ [m] ∧ m.dest = bitsOf (d 1) 0 20 ∧ m.dq = bitsOf (d 1) 20 3 ∧
          m.hidx = bitsOf (d 1) 23 10 ∧ m.units = 1 ∧ m.src = c.core % 2 ^ 20 ∧ m.infm = c.infm ∧
          (m.pay.get 0).toNat = d 2 % 2 ^ 64 + d 3 % 2 ^ 64 * 2 ^ 64)) ∧
    -- entries that move bytes
    (∀ v, at_ 7 false → resClear e [0x1FF, 2 ^ 64 - 1, 2 ^ 64 - 1, 0] = true → descSpace (d 1) = .ok 1 →
      let n := if bitsOf (d 0) 8 1 = 1 then 8 else 4
      d 1 % n = 0 → u.engWrite (c.eng cl) (d 1) 0 (leBytes n (d 2)) [(6, u.view (chainAgent cl c.id))] = .ok v →
        exec .flag s = .next (v.chainGo cl c (c.entry + 1)) ∧ (u.inv → u.eager = true → v.mem.read (localAddr (cl * 8 + bitsOf (d 1) 16 3) (d 1 % 65536)) n = leBytes n (d 2))) ∧
    (at_ 2 false → resClear e [0x3FF, 2 ^ 64 - 1, 2 ^ 32 - 1, 0] = true → d 2 ≠ 0 →
      let pat := (c.dpat.get (Fin.ofNat 4 (bitsOf (d 0) 8 2))).toNat
      let cores := (List.range 8).filter (fun j => bitsOf pat (48 + j) 1 == 1)
      let blk := 64 * 2 ^ bitsOf pat 0 4
      let b := c.cursor / blk
      let core := cores.getD (b % cores.length) 0
      let off := bitsOf pat 16 16 + b / cores.length * bitsOf pat 32 16
      let whole := min blk (d 2 - b * blk)
      let off2 := off + c.cursor % blk
      let n := min (whole - c.cursor % blk) (256 - off2 % 256)
      cores ≠ [] → bitsOf pat 0 4 ≤ 6 → bitsOf pat 16 16 % 64 = 0 → bitsOf pat 32 16 % 64 = 0 → (∃ sp, descSpace (d 1) = .ok sp) →
      (∃ p, u.engLocal c.ctx (cl * 8 + core) off whole true = .ok p) →
      ∀ bs v w, u.engRead (c.eng cl) (d 1) c.cursor n = .ok (bs, v) → v.engWrite (c.eng cl) (localDesc core off2) 0 bs = .ok w →
        exec .deal s = .next (if d 2 ≤ c.cursor + n then w.chainGo cl c (c.entry + 1)
          else (w.setChain cl { c with cursor := c.cursor + n }).dueOne .deal [cl, c.id])) ∧
    (at_ 3 true → resClear e [0xFFFFFFFFFFFF00FF, 2 ^ 64 - 1, 2 ^ 64 - 1, 0x1FFFF] = true → bitsOf (d 0) 16 16 ≠ 0 →
      (∃ sp, descSpace (d 1) = .ok sp) → (∃ sp, descSpace (d 2) = .ok sp) → c.cursor < bitsOf (d 0) 32 32 →
      let isz := if bitsOf (d 3) 16 1 = 1 then 4 else 2
      let rowb := bitsOf (d 0) 16 16
      ∀ ib bs v w x, u.engRead (c.eng cl) (localDesc c.core (d 3 % 65536)) (isz * c.cursor) isz = .ok (ib, v) →
        v.engRead (c.eng cl) (d 1) (leNat ib * rowb) rowb = .ok (bs, w) → w.engWrite (c.eng cl) (d 2) (c.cursor * rowb) bs = .ok x →
        exec .gath s = .next (if bitsOf (d 0) 32 32 ≤ c.cursor + 1 then x.chainGo cl c (c.entry + 1)
          else (x.setChain cl { c with cursor := c.cursor + 1 }).dueOne .gath [cl, c.id])) ∧
    (∀ x v, at_ 1 true → resClear e [0xFF, 0xFFFF, 0, 0] = true → d 1 % 32 = 0 → u.layoutAt cl c (d 1) = .ok (x, v) →
      let es := x.burst (x.dstOf (windowAt x.wsz c.cursor) / 256) (256 / 2 ^ x.esz) c.cursor
      (∀ f, es.findSome? (v.elemFault c cl x) = some f → f < 256 → Answers (exec .copy s) (fun t => t.mem = u.mem ∧ ends t f)) ∧
      (∀ a n, es = [(c.cursor, a, some n)] → v.elemFault c cl x (c.cursor, a, some n) = none → ∀ q w,
        v.copyElem c cl x es none (c.cursor, a, some n) = .ok (q, w) →
        exec .copy s = .next (if x.total ≤ c.cursor + 1 then w.chainGo cl c (c.entry + 1)
          else (w.setChain cl { c with cursor := c.cursor + 1 }).dueOne .copy [cl, c.id])))

/-- What an engine's access moves (12 R325, R329; 05 R113): a write checked into one place of memory reads back there, a read of one
place gives its bytes, and an element of a copy lands as its source, or as FILL; a source that the burst has read with its aligned 8
bytes is not read again. -/
def enginesMoveBytes : Prop :=
  ∀ (s : State) (e : Eng) (cl d off n p k : Nat) (bs : List Byte), s.inv → s.eager = true →
    (s.engPlaces e d off bs.length true = .ok [(.mem p k, bs.length)] → ∃ t, s.engWrite e d off bs = .ok t ∧
      t.mem.read p bs.length = bs ∧ t.inv ∧ ∀ c i r, (t.slotAt c i).rd r = (s.slotAt c i).rd r) ∧
    (let v := s.engTouched e d off n false
     s.engPlaces e d off n false = .ok [(.mem p k, n)] → v.keyed p n k = true → (linesOf p n).any v.poison.contains = false →
      ∃ t, s.engRead e d off n = .ok (v.mem.read p n, t) ∧ t.mem = v.mem) ∧
    (∀ (x : Layout) (c : Chain) (el a src : Nat),
      let z := 2 ^ x.esz
      let dst := x.dst - descAddr x.dst
      (s.engPlaces (c.eng cl) dst a z true = .ok [(.mem p k, z)] →
        ∀ es r, ∃ q t, s.copyElem c cl x es r (el, a, some none) = .ok (q, t) ∧ t.mem.read p z = leBytes z (x.fill % 2 ^ (8 * z))) ∧
      (∀ u, s.engRead (c.eng cl) x.src src z = .ok (bs, u) → bs.length = z → u.inv → u.eager = true →
        u.engPlaces (c.eng cl) dst a z true = .ok [(.mem p k, z)] →
        ∃ q t, s.copyElem c cl x [(el, a, some (some src))] none (el, a, some (some src)) = .ok (q, t) ∧ t.mem.read p z = bs) ∧
      (∀ es (r : BurstRead), (r.at_, r.bytes.length) = x.span es src → s.engPlaces (c.eng cl) dst a z true = .ok [(.mem p k, z)] →
        ((r.bytes.drop (src - r.at_)).take z).length = z → ∃ q t,
          s.copyElem c cl x es (some r) (el, a, some (some src)) = .ok (q, t) ∧
          t.mem.read p z = (r.bytes.drop (src - r.at_)).take z) ∧
      ∀ es r, s.copyElem c cl x es r (el, a, none) = .ok (r, s))

/-- The copy unit's chains walk their entries, and what an engine's access moves (12 R322 to R329). -/
def Obligations.ChainsWalkAndMoveBytes : Prop := chainsWalkTheirEntries ∧ enginesMoveBytes

/-- Collectives (12 R330 to R332; 13 R355): equal answers of every rank start it, other values and 100 ms of waiting fail it
with COLLRDV; a burst lands in a participant's destination as its operation says, a reduction in an order that is free (log 21) and
each add rounded or wrapped; a finished one completes its job. The order in which participants begin and move is free or the
model's (log 33), and accesses perform at once where a clause says so (log 20). -/
def Obligations.CollectivesMeetAndComplete : Prop :=
  ∀ (s : State) (die key ctx tag core slot a i d0 d1 : Nat) (c c0 c1 : Coll),
    (s.args = [core, slot, a] → a < 2 ^ 57 → (s.core core).jobSlot = some i → i < 256 → Answers (exec .clkick s) (fun t =>
      t.mem = s.mem ∧ ∃ j x, (t.slotAt core slot).kickId = some j ∧ (t.core core).jobOf j = some x ∧ x.st = .pending ∧ x.kind = 7 ∧
        (⟨.clkick, [core, j.toNat, a, 2]⟩ : Due) ∈ t.agenda)) ∧
    (∀ (id : BitVec 16) x bs u, s.args = [core, id.toNat, a, 2] → a < 2 ^ 57 → (s.core core).jobOf id = some x → x.st = .pending →
      s.engRead { agent := collAgent (dieOf core), ctx := (s.core core).ctx, cluster := clusterOf core, unit := 8 } a 0 64 = .ok (bs, u) →
      Answers (exec .clkick s) (fun t => t.mem = u.mem ∧
        ∃ y ∈ (t.die (dieOf core)).coll, y.job = id ∧ y.core = core ∧ y.desc = recordOf bs)) ∧
    (s.args = [ctx, tag] → (s.ctx ctx).st = .running → (s.collGroup ctx tag).filter (fun e => e.2.waits) = [(d0, c0), (d1, c1)] →
      d0 ≠ d1 → c0.npart = 2 → c1.npart = 2 → c0.rank = 0 → c1.rank = 1 → (∀ x ∈ [c0, c1], x.dieOfRank 0 = d0 ∧ x.dieOfRank 1 = d1) →
      c0 ∈ (s.die d0).coll → c1 ∈ (s.die d1).coll →
      (c0.values = c1.values → Answers (exec .collectiveRendezvous s) (fun t => t.mem = s.mem ∧
        (∃ y ∈ (t.die d0).coll, y.key = c0.key ∧ y.started = true ∧ y.group = [(d0, c0.key), (d1, c1.key)]) ∧
        (∃ y ∈ (t.die d1).coll, y.key = c1.key ∧ y.started = true ∧ y.group = [(d0, c0.key), (d1, c1.key)]))) ∧
      (c0.values ≠ c1.values → Answers (exec .collectiveRendezvous s) (fun t => t.mem = s.mem ∧
        (∃ y ∈ (t.die d0).coll, y.key = c0.key ∧ y.ended = true ∧ y.cause = 0x16) ∧
        (∃ y ∈ (t.die d1).coll, y.key = c1.key ∧ y.ended = true ∧ y.cause = 0x16)))) ∧
    (s.args = [ctx, tag] → (s.collGroup ctx tag).filter (fun e => e.2.waits) = [(d0, c0)] → c0 ∈ (s.die d0).coll →
      c0.since + 100000 * Config.cyclesPerMicro ≤ s.clock → Answers (exec .rendezvousTimeout s) (fun t => t.mem = s.mem ∧
        ∃ y ∈ (t.die d0).coll, y.key = c0.key ∧ y.ended = true ∧ y.cause = 0x16)) ∧
    (let group := s.collPeers c
     let o := c.cursor
     let left := min 256 (c.total - o)
     let n := if c.op = 3 ∨ c.op = 5 then min left (c.block - o % c.block) else left
     let runs (ins : Instr) (op : Nat) : Prop :=
       s.args = [die, key] → s.coll die key = some c → c.started = true → c.ended = false → c.op = op →
       (∀ st b, (s.ctx c.ctx).sw ≠ .window st b) → group.filter (fun e => !e.2.ended) = [(die, c)] →
       ∀ bs u v, s.collData c group o n = .ok (bs, u) → u.engWrite c.eng (c.f 3 0 57) o bs = .ok v →
         Answers (exec ins s) (fun t => t.mem = v.mem ∧
           (c ∈ (v.die die).coll → ∃ y ∈ (t.die die).coll, y.key = c.key ∧ y.cursor = o + n ∧ y.ended = decide (c.total ≤ o + n)))
     runs .allreduce 1 ∧ runs .reduceScatter 2 ∧ runs .allgather 3 ∧ runs .broadcast 4 ∧ runs .allToAll 5 ∧
     (∀ e q off, c.op = 3 ∧ q = o / c.block ∧ off = o % c.block ∨ c.op = 4 ∧ q = c.f 4 32 10 ∧ off = o ∨
         c.op = 5 ∧ q = o / c.block ∧ off = c.rank * c.block + o % c.block →
       group.find? (fun x => x.2.rank == q) = some e →
       s.collData c group o n = s.engRead e.2.eng (e.2.f 2 0 57) off n) ∧
     (∀ (p : Coll → Nat) fm off, s.eager = true → group ≠ [] → c.fmt = some fm → fm = .bf16 ∨ fm = .f32 ∨ fm = .int 32 true ∨ fm = .int 32 false →
       c.op = 1 ∧ off = o ∨ c.op = 2 ∧ off = c.rank * c.block + o →
       (∀ e ∈ group, ∃ k, s.engPlaces e.2.eng (e.2.f 2 0 57) off n false = .ok [(.mem (p e.2) k, n)] ∧
         s.keyed (p e.2) n k = true ∧ (linesOf (p e.2) n).any s.poison.contains = false) →
       let z := fm.width / 8
       let at_ (j : Nat) (e : Nat × Coll) : Nat := leNat (s.mem.read (p e.2 + z * j) z)
       let both (x y : Nat) : Nat :=
         if c.f 0 4 4 = 0 then
           (if fm.isFloat then toFloat (addExact .rne (decodeNum fm false x) (decodeNum fm false y)) fm .rne false false 0 else x + y)
         else minMaxElem fm (c.f 0 4 4 == 1) x y
       ∃ (bs : List Byte) (u : State) (e : Nat × Coll) (l : List (Nat × Coll)), (e :: l).Perm group ∧ s.collData c group o n = .ok (bs, u) ∧
         bs.length = n / z * z ∧ ∀ j, j < n / z →
           leNat ((bs.drop (z * j)).take z) = (l.foldl (fun x y => both x (at_ j y)) (at_ j e)) % 2 ^ (8 * z))) ∧
    (s.args = [die, key] → s.coll die key = some c → c.ended = true → s.eager = true → (s.ctx c.ctx).st ≠ .saved →
      (∀ e ∈ s.collPeers c, e.2.ended = true) →
      Answers (exec .collectiveComplete s) (fun t => t.mem = s.mem ∧ t.coll die key = none ∧
        jobEnded s t c.ctx c.core c.job (c.cursor % 2 ^ 40 * 2 ^ 24 + c.cause % 256) (c.cause != 0)))

/-! The matrix engine. -/

/-- The command that an event of the engine is for: the accepted head of the named core's queue, neither held nor ended, with its
context outside a switch window; one that has not begun passes its checks. -/
structure HeadIs (s : State) (cl core : Nat) (c : MCmd) (ops : List Nat) : Prop where
  args : s.args = [cl, core] ∧ cl = clusterOf core
  head : s.headCmd core = some c
  live : c.seq ≠ 0 ∧ c.held = false ∧ c.ended = false ∧ s.inWindow core = false
  opc : c.opc ∈ ops
  sound : c.begun = true ∨ c.refusal ((s.engine cl).ctxOf core) = none

/-- The command at the head of a core's queue after a step. -/
def headAfter (t : State) (core : Nat) (p : MCmd → Prop) : Prop := ∃ y, t.headCmd core = some y ∧ p y

/-- Matrix commands (12 R300 to R319; 08 R208, R209): a push queues a job, the engine accepts in rotation, a command that fails
a check ends with its cause, each step moves what its opcode says and its cursor, and an access fault holds it with nothing
done. The reading of XSTAT.INFM's check and the whole
K-step of a held command are the model's (log 22, 78); accesses perform at once where a clause says so (log 20). -/
def Obligations.MatrixCommandsRun : Prop :=
  ∀ (s u w : State) (cl core x : Nat) (c : MCmd) (bs : List Byte),
    let f := (s.engine cl).ctxOf core
    let ctx := (s.core core).ctx
    let row (t : State) (r : Nat) (j : Fin 64) : BitVec 32 := ((t.engine cl).accRow r).get j
    let inBlock (r : Nat) (j : Fin 64) : Prop := c.row0 ≤ r ∧ r < c.row0 + c.rows ∧ j.val < c.cols
    let ends (t : State) (cause : Nat) : Prop := headAfter t core (fun y => y.ended = true ∧ y.cause = cause ∧ y.cursor = c.cursor)
    let moves (t : State) (n : Nat) : Prop := headAfter t core (fun y => y.cursor = c.cursor + n ∧ y.held = false ∧ y.begun = true)
    let holds (t : State) : Prop := headAfter t core (fun y => y.held = true ∧ y.cause = x ∧ y.cursor = c.cursor) ∧
      (t.engine cl).acc = (s.engine cl).acc ∧ (t.engine cl).weight = (s.engine cl).weight
    -- pushing and accepting (R301, R302)
    (∀ (v : BitVec 5) (cap : BitVec 4) (idx disp : BitVec 5) (ext : Option (BitVec 32)) (i : Nat),
      let ea := effAddr (s.rdC cap) (s.rdG idx) 6 (dispOf disp.toInt 64 ext)
      (s.rdC cap).tag = true → (s.rdC cap).space = 5 → ea = 0 → s.me.timed = false → s.me.gangRole ≠ 2 → s.myCore.jobSlot = some i →
      ((s.engine (clusterOf s.cur.core)).queue (s.cur.core % 8)).length < 16 →
      (∃ r, s.accessVec (s.rdC cap) .store .contig 4 64 (fun _ => ea) (wordElems (BitVec.allOnes 64) ea) = .ok r) →
      Answers (exec (.vst v cap 0 idx disp ext) s) (fun t => t.mem = s.mem ∧ (∀ r, t.me.rd r = s.me.rd r) ∧ ∃ y j,
        (t.engine (clusterOf s.cur.core)).queue (s.cur.core % 8) = (s.engine (clusterOf s.cur.core)).queue (s.cur.core % 8) ++ [y] ∧
        (∀ k : Fin 8, (y.dw.get k).toNat = elem (s.rdV v) 64 k.val) ∧ y.cursor = 0 ∧ y.seq = 0 ∧ t.me.lastJob = some y.job ∧
        t.myCore.jobOf y.job = some j ∧ j.kind = 8 ∧ j.st = .pending)) ∧
    (s.args = [cl] → ((s.engine cl).order cl).find? (fun k => ((s.engine cl).queue (k % 8)).any (fun d => d.seq == 0)) = some core →
      Answers (exec .matrixAccept s) (fun t => t.mem = s.mem ∧ (t.engine cl).seq = (s.engine cl).seq + 1 ∧
        (t.engine cl).rot = (core + 1) % 8 ∧ (∃ y ∈ (t.engine cl).queue (core % 8), y.seq = (s.engine cl).seq + 1) ∧
        ((t.engine cl).queue (core % 8)).map (fun d => d.job) = ((s.engine cl).queue (core % 8)).map (fun d => d.job))) ∧
    -- the checks (R307)
    (∀ e, s.args = [cl, core] → cl = clusterOf core → s.headCmd core = some c → c.seq ≠ 0 → c.held = false → c.ended = false →
      s.inWindow core = false → c.begun = false → c.refusal f = some e →
      ∀ p ∈ ([(1, .mma), (2, .mmz), (3, .accst), (4, .accld), (5, .wld), (6, .fctx), (7, .stab), (8, .atab)] : List (Nat × Instr)),
        c.opc = p.1 → Answers (exec p.2 s) (fun t => t.mem = s.mem ∧ ends t e.code)) ∧
    -- MMA and MMZ (R310)
    (HeadIs s cl core c [1] → Answers (exec .mma s) (fun t => t.mem = s.mem ∧ moves t 0 ∧ ∀ r j, row t r j = row s r j)) ∧
    (HeadIs s cl core c [2] → c.cursor = 0 → Answers (exec .mmz s) (fun t => t.mem = s.mem ∧ moves t 0 ∧
      ∀ r j, (inBlock r j → row t r j = 0) ∧ (¬inBlock r j → row t r j = row s r j))) ∧
    (HeadIs s cl core c [1, 2] → c.begun = true → c.cursor < c.k →
      let ea := operandBytes (fcA f)
      let n := min 64 (c.k - c.cursor)
      let src := s.readRows core ea (c.fld 1 0 16 + c.cursor * ea) (c.fld 1 16 16) (n * ea) c.rows
      (∀ rows, src = .ok (rows, u) → Answers (exec .kStep s) (fun t => t.mem = u.mem ∧ moves t 64 ∧
        ∀ r j, (¬inBlock r j → row t r j = row s r j) ∧ (inBlock r j →
          let a := rows.getD (r - c.row0) []
          let term (i : Nat) : Exact := operandProduct (fcA f)
            (operandValue (fcA f) (fcInfm f) (leNat ((a.drop (ea * i)).take ea)))
            (operandValue (fcB f) (fcInfm f)
              ((s.engine cl).bCode (c.fld 0 43 2) (c.fld 2 0 13) (operandBytes (fcB f)) (c.cursor + i) j.val))
          let block (b acc : Nat) : Nat := blockAdd acc
            (blockSum ((List.range 32).map (fun i => if 32 * b + i < n then term (32 * b + i) else .fin false 0 0)))
            (if fcScale f then scaleOf ((s.engine cl).scale.getD (c.fld 2 16 10 + c.cursor / 32 + b) 0) else some 0)
          let one := block 0 (row s r j).toNat
          row t r j = BitVec.ofNat 32 (if 32 < n then block 1 one else one)))) ∧
      (src = .error x → x < 256 → Answers (exec .kStep s) holds)) ∧
    -- ACCLD and ACCST (R311 to R313)
    (HeadIs s cl core c [4] → c.cursor < c.rows →
      let src := s.cmdRead core 4 (c.fld 1 0 16 + c.cursor * c.fld 1 16 16) (4 * c.cols)
      (src = .ok (bs, u) → Answers (exec .accld s) (fun t => t.mem = u.mem ∧ moves t 1 ∧ ∀ r j,
        row t r j = if r = c.row0 + c.cursor ∧ j.val < c.cols then BitVec.ofNat 32 (leNat ((bs.drop (4 * j.val)).take 4))
          else row s r j)) ∧
      (src = .error x → x < 256 → Answers (exec .accld s) holds)) ∧
    (∀ (o : Fmt) (bias rq : List Nat) (v : State), HeadIs s cl core c [3] → s.eager = true → c.ofmt = some o → c.cursor < c.rows →
      s.cmdVec core (c.fld 0 49 1 == 1) (c.fld 2 32 16) c.cols = .ok (bias, u) →
      u.cmdVec core (c.fld 0 51 1 == 1) (c.fld 2 48 16) c.cols = .ok (rq, v) →
      let mode := RMode.ofField (fcRnd f) c.rnd.toNat
      let g := (s.engine cl).srng
      let act := (s.engine cl).act.getD (core % 8) ActTable.reset
      let code (j : Nat) : Nat := outputCode c f o mode (if mode = .rst then drawNo g j else 0)
        (epilogue c act bias rq j (((s.engine cl).accRow (c.row0 + c.cursor)).toList.getD j 0).toNat)
      v.engWrite (v.matrixEng core (o.width / 8)) (c.fld 1 0 64) (c.cursor * c.fld 2 0 32)
        ((List.range c.cols).flatMap (fun j => leBytes (o.width / 8) (code j))) = .ok w →
      Answers (exec .accst s) (fun t => t.mem = w.mem ∧ moves t 1 ∧
        (t.engine cl).srng = (if mode = .rst then srngAfter g c.cols else g) ∧
        ∀ r j, row t r j = if c.fld 0 52 1 = 1 ∧ r = c.row0 + c.cursor then 0 else row s r j)) ∧
    -- WLD, FCTX, STAB, ATAB, MSYNC (R314 to R317)
    (HeadIs s cl core c [5] → c.cursor < c.fld 2 16 13 + 1 →
      let src := s.engRead (s.matrixEng core (operandBytes (fcB f))) (c.fld 1 0 64) (64 * c.cursor) 64
      let line := c.fld 2 0 13 + c.cursor
      (src = .ok (bs, u) → Answers (exec .wld s) (fun t => t.mem = u.mem ∧ moves t 1 ∧
        (t.engine cl).weight.get? line = some (vecOfBytes bs) ∧ (t.engine cl).wld.get? line = some ⟨core, c.dw.get 1, c.cursor⟩ ∧
        (∀ k, k ≠ line → (t.engine cl).weight.get? k = (s.engine cl).weight.get? k) ∧ ∀ r j, row t r j = row s r j)) ∧
      (src = .error x → x < 256 → Answers (exec .wld s) holds)) ∧
    (HeadIs s cl core c [6] → Answers (exec .fctx s) (fun t => t.mem = s.mem ∧ ends t 0 ∧ ∀ i : Fin 8,
      (t.engine cl).fmt.get i = if i = Fin.ofNat 8 core then c.dw.get 1 else (s.engine cl).fmt.get i)) ∧
    (HeadIs s cl core c [7] → s.cmdRead core 2 (c.fld 1 0 16) (2 * c.fld 0 26 11) = .ok (bs, u) →
      Answers (exec .stab s) (fun t => t.mem = u.mem ∧ ends t 0 ∧ ∀ k, (t.engine cl).scale.getD k 0 =
        if c.fld 0 16 10 ≤ k ∧ k < c.fld 0 16 10 + c.fld 0 26 11 then
          BitVec.ofNat 16 (leNat ((bs.drop (2 * (k - c.fld 0 16 10))).take 2)) else (s.engine cl).scale.getD k 0)) ∧
    (HeadIs s cl core c [8] → s.cmdRead core 4 (c.fld 1 0 16) 520 = .ok (bs, u) →
      let at_ (i : Nat) : Nat := leNat ((bs.drop (4 * i)).take 4)
      let good : Prop := finiteF32 (at_ 0) = true ∧ finiteF32 (at_ 1) = true ∧
        exactLt (decodeNum .f32 false (at_ 0)) (decodeNum .f32 false (at_ 1)) = true
      (good → Answers (exec .atab s) (fun t => t.mem = u.mem ∧ ends t 0 ∧ ∃ y, (t.engine cl).act.get? (core % 8) = some y ∧
        y.lo = BitVec.ofNat 32 (at_ 0) ∧ y.hi = BitVec.ofNat 32 (at_ 1) ∧ ∀ i : Fin 64,
          y.slope.get i = BitVec.ofNat 32 (at_ (2 + 2 * i.val)) ∧ y.icpt.get i = BitVec.ofNat 32 (at_ (3 + 2 * i.val)))) ∧
      (¬good → Answers (exec .atab s) (fun t => t.mem = u.mem ∧ ends t Cause.resfield.code ∧ (t.engine cl).act = (s.engine cl).act))) ∧
    (HeadIs s cl core c [9] →
      let waits : Prop := c.fld 0 19 1 = 1 ∧ ∃ q, q < 8 ∧ ∃ d ∈ (s.engine cl).queue q, d.seq ≠ 0 ∧ d.seq < c.seq
      (waits → Answers (exec .msync s) (fun t => t.mem = s.mem ∧ headAfter t core (fun y => y.ended = false))) ∧
      (¬waits → Answers (exec .msync s) (fun t => t.mem = s.mem ∧ ends t 0))) ∧
    -- the stage-empty write, completion and held jobs (R306, R318)
    (HeadIs s cl core c [1, 2, 4, 5] → c.begun = true → c.se = true → c.endCursor ≤ c.cursor → s.eager = true →
      (∃ p, s.engLocal ctx (cl * 8 + c.fld 7 16 3) (c.fld 7 0 16) 4 true = .ok p) →
      s.engWrite (s.matrixEng core 4) (localDesc (cl * 8 + c.fld 7 16 3) (c.fld 7 0 16)) 0 (leBytes 4 (c.fld 7 32 32))
        [(c.fld 0 13 3, s.view (matrixAgent cl))] = .ok w →
      Answers (exec .stageEmptyWrite s) (fun t => t.mem = w.mem ∧ ends t 0)) ∧
    (s.args = [cl, core] → s.headCmd core = some c → s.eager = true →
      (c.ended = true → Answers (exec .matrixCommandComplete s) (fun t => t.mem = s.mem ∧
        ((t.engine (clusterOf core)).queue (core % 8)).map (fun d => d.job) =
          ((s.engine (clusterOf core)).queue (core % 8)).tail.map (fun d => d.job) ∧
        jobEnded s t ctx core c.job (c.cursor % 2 ^ 24 * 2 ^ 16 + c.cause % 256) (c.cause != 0))) ∧
      (c.ended = false → c.held = true → (s.core core).exited = false → Answers (exec .matrixCommandComplete s) (fun t =>
        t.mem = s.mem ∧ t.headCmd core = some c ∧
        jobEnded s t ctx core c.job (c.cursor % 2 ^ 24 * 2 ^ 16 + 256 + c.cause % 256) true)) ∧
      (c.ended = false → c.held = true → (s.core core).exited = true → (s.blockOf core).isSome = true →
        (∃ i, i < 4 ∧ (s.slotAt core i).st = .empty) → Answers (exec .matrixCommandComplete s) (fun t => t.mem = s.mem ∧
          jobEnded s t ctx core c.job (c.cursor % 2 ^ 24 * 2 ^ 16 + c.cause % 256) true ∧ ∃ i, i < 4 ∧ (s.slotAt core i).st = .empty ∧
            (t.slotAt core i).st = .stopped 1 ∧ (t.slotAt core i).tl = 2 ∧ (t.slotAt core i).bank2.xcause = 0x13))) ∧
    (∀ job, s.args = [core, job] → s.headCmd core = some c → c.held = true → c.job.toNat = job →
      Answers (exec .mctlResume s) (fun t => t.mem = s.mem ∧ ((t.core core).job (job % 256)).st = .pending ∧
        ((t.core core).job (job % 256)).hold = false ∧ headAfter t core (fun y => y.held = false ∧ y.cursor = c.cursor)) ∧
      Answers (exec .mctlCancel s) (fun t => t.mem = s.mem ∧ ((t.core core).job (job % 256)).st = .faulted ∧
        ((t.core core).job (job % 256)).res = BitVec.ofNat 64 (c.cursor % 2 ^ 24 * 2 ^ 16 + c.cause % 256) ∧
        ((t.engine (clusterOf core)).queue (core % 8)).map (fun d => d.job) =
          ((s.engine (clusterOf core)).queue (core % 8)).tail.map (fun d => d.job)))

/-! Traps by instruction, and the steps of a slot that no bundle takes. -/

/-- A slot of a core is left as it was, but for what another activity wakes in it. -/
def sameSlot (s t : State) (core i : Nat) : Prop :=
  t.slotAt core i = { s.slotAt core i with st := (t.slotAt core i).st, monitor := (t.slotAt core i).monitor }

/-- `trap`, `brk` and `idle` (12 R338; 15 R387): a trap with the immediate in XVAL, precise at the bundle for `brk` and after it
for `trap`; a core that catches breakpoints halts instead; `idle` parks an untimed slot and is over at once in a timed one. -/
def trapsByInstruction : Prop :=
  ∀ (s : State) (imm : BitVec 12),
    let trapped (t : State) (code : Nat) (pc : Int) : Prop :=
      t.me.bank1 = ⟨wordOfInt pc, BitVec.ofNat 64 code, imm.setWidth 64, 0, s.me.bank1.xscratch⟩ ∧ t.me.bank2 = s.me.bank2 ∧
      t.me.tl = 1 ∧ t.me.ptl = 0 ∧ t.me.npc = (s.myCore.xtvec1.toNat / 8 % 2 ^ 54 * 8 : Nat) ∧ (∀ q, t.me.rd q = s.me.rd q) ∧
      t.performed = false ∧ (s.myCore.dbg.trace = false → t.mem = s.mem) ∧
      ∀ c i, (c ≠ s.cur.core ∨ i % 4 ≠ s.cur.slot % 4) → t.slotAt c i = s.slotAt c i
    let atZero : Prop := s.me.spec = false ∧ s.me.gang = none ∧ s.me.gangRole ≠ 2 ∧ s.me.tl = 0 ∧ s.myCore.xtvec1.getLsbD 0 = true
    (atZero → Answers (exec (.trap imm) s) (fun t => trapped t 0x12 (s.me.pc + 8))) ∧
    (atZero → s.myCore.dbg.brken = false → Answers (exec (.brk imm) s) (fun t => trapped t 0x11 s.me.pc)) ∧
    (s.me.spec = true → ∀ k, s.me.actKey = some k → s.myCore.dbg.brken = false →
      exec (.trap imm) s = .next (s.rollback s.cur.core k .untilGvt false) ∧
      exec (.brk imm) s = .next (s.takeTrap .brk (imm.setWidth 64) 0 s.me.pc)) ∧
    (s.myCore.dbg.brken = true → Answers (exec (.brk imm) s) (fun t => t.performed = false ∧ t.mem = s.mem ∧ t.me.npc = s.me.pc ∧
      (∀ i, ∃ w, (t.slotAt s.cur.core i).st = .halted w) ∧ ∀ i r, (t.slotAt s.cur.core i).rd r = (s.slotAt s.cur.core i).rd r)) ∧
    (s.me.timed = true → exec .idle s = .next s) ∧
    (s.me.timed = false → Answers (exec .idle s) (fun t => KeepsSlots s t [] ∧ t.me.st = .parked .idle ∧ t.performed = s.performed))

/-- `trap`, `brk`, `idle` and `xret` (12 R338). -/
def Obligations.TrapsAndReturnsByInstruction : Prop := trapsByInstruction ∧ xretReturnsToTheSavedLevel

/-- Stalls, landings, the watchdog, spurious wakes, answers of the host and walks (09 R217 to R219; 14 R365; 04 R107; 01 R10; 03
R69 to R73): each acts on the slot it names when its condition holds, and leaves every other slot and memory alone. What bank 2
of a slot that its watchdog stops holds is the model's (log 18). -/
def Obligations.SlotStepsActOnTheirSlot : Prop :=
  ∀ (s : State) (core slot d : Nat), slot < 4 →
    let x := s.slotAt core slot
    let others (t : State) : Prop := (∀ c i, (c ≠ core ∨ i % 4 ≠ slot) → sameSlot s t c i) ∧ t.mem = s.mem
    let regs (t : State) : Prop := ∀ r, (t.slotAt core slot).rd r = x.rd r
    let live : Prop := x.st = .ready ∨ (∃ n, x.st = .stalled n) ∨ ∃ w, x.st = .parked w
    let us := (s.clock - x.began) / Config.cyclesPerMicro
    let pc : Int := match x.st, x.monitor with
      | .parked .waita, some m => m.pc
      | _, _ => x.pc
    (s.args = [core, slot] →
      (∀ n, x.st = .stalled n → n ≤ s.clock → Answers (exec .stallExpire s) (fun t => (t.slotAt core slot).st = .ready ∧ regs t ∧ others t)) ∧
      (∀ n, x.st = .stalled n → s.clock < n → exec .stallExpire s = .next s) ∧
      Answers (exec .fixedLatencyWriteback s) (fun t => regs t ∧ others t ∧ (t.slotAt core slot).st = x.st ∧
        ∀ p, p ∈ (t.slotAt core slot).pend ↔ p ∈ x.pend ∧ x.dist - p.at_ < p.lat) ∧
      (∀ o r, x.ops.find? (fun o => o.returned) = some o → o.dest = some r →
        Answers (exec .variableResultLand s) (fun t => others t ∧ (∀ q, q ≠ r → (t.slotAt core slot).rd q = x.rd q) ∧
          (∀ i, r = .g i → i ≠ 0 → o.kind = .load → (t.slotAt core slot).rdG i =
            loadExtend (o.units.headD ⟨0, 0, [], none, 0, 0⟩).bytes o.signed) ∧
          (∀ i, r = .v i → (t.slotAt core slot).rdV i = putElems (x.rdV i) o.width (o.units.map (fun u => (u.lane, u.bytes)))) ∧
          (∀ i, r = .c4 i → (t.slotAt core slot).rdC i = capOfBytes (o.units.headD ⟨0, 0, [], none, 0, 0⟩).bytes
            ((o.units.headD ⟨0, 0, [], none, 0, 0⟩).tag == some true)) ∧
          (t.slotAt core slot).board = x.board.erase r ∧ (t.slotAt core slot).ops = x.ops.filter (fun p => p.id != o.id))) ∧
      -- the watchdog
      (live → us < (s.core core).hwLimit.toNat → exec .hwdogExpire s = .next s) ∧
      (live → (s.core core).hwLimit.toNat ≤ us → s.inWindow core = true → (x.timed = false ∨ x.spec = true) →
        exec .hwdogExpire s = .next (s.dueOne .overrunStop [core, slot])) ∧
      (live → (s.core core).hwLimit.toNat ≤ us → s.inWindow core = false →
        (∀ k, x.spec = true → x.actKey = some k →
          exec .hwdogExpire s = .next ({ s with cur := ⟨core, slot⟩ }.rollback core k .untilGvt false)) ∧
        (x.spec = false → x.gang = none → (x.timed = true ∨ s.cancelledBlock core = none) →
          Answers (exec .hwdogExpire s) (fun t => regs t ∧ others t ∧ (t.slotAt core slot).st = .stopped 2 ∧
            (t.slotAt core slot).tl = 2 ∧ (t.slotAt core slot).ptl = x.tl ∧ (t.slotAt core slot).bank2.xpc = wordOfInt pc ∧
            (t.slotAt core slot).bank2.xcause = 0 ∧ (t.slotAt core slot).bank2.xval = BitVec.allOnes 64 ∧
            (t.pkg (pkgOf core)).dump.waiting = (s.pkg (pkgOf core)).dump.waiting ++ [(core, slot, 2)])) ∧
        (∀ b, x.spec = false → x.gang = none → x.timed = false → x.actKey = none → s.cancelledBlock core = some b →
          Answers (exec .hwdogExpire s) (fun t => regs t ∧ others t ∧ (t.slotAt core slot).st = .empty ∧
            (t.slotAt core slot).bank2.xcause = 0x17 ∧ (t.slotAt core slot).bank2.xpc = wordOfInt pc))) ∧
      -- wakes
      (x.st = .parked .waita ∨ x.st = .parked .idle → Answers (exec .spuriousWake s) (fun t =>
        (t.slotAt core slot).st = .ready ∧ regs t ∧ others t))) ∧
    (∀ v n a, s.args = [core, slot, v, n, a] → x.st = .parked .answer → Answers (exec .hostCompletion s) (fun t =>
      (t.slotAt core slot).st = .ready ∧ regs t ∧ others t ∧
      t.hostAnswer = s.hostAnswer ++ [(slotAgent core slot, a, if n = 0 then v % 2 ^ 512 else hostError)])) ∧
    -- walks
    (∀ w, s.args = [d] → (s.die d).nextWalk = some w → Answers (exec .walkStart s) (fun t => t.mem = s.mem ∧
      (t.die d).walks = (s.die d).walks ++ [w] ∧ (t.die d).waiting = (s.die d).waiting.erase w ∧
      (⟨.walkComplete, [d, 0]⟩ : Due) ∈ t.agenda)) ∧
    (∀ pos w, s.args = [d, pos] → (s.die d).walks[pos]? = some w → w.waiters = [(core, slot)] → w.dues = [] → x.st = .parked .walk →
      ((s.die d).walks.eraseIdx pos ++ (s.die d).waiting).all (fun v => !v.waiters.contains (core, slot)) = true →
      (s.walkEntries w.ctx w.space w.vpn false = none → Answers (exec .walkComplete s) (fun t => regs t ∧ others t ∧
        (t.slotAt core slot).st = .ready ∧
        (t.slotAt core slot).walkFault = some (spBit w.space, BitVec.ofNat 64 w.vpn, 0) ∧
        (t.die d).walks = (s.die d).walks.eraseIdx pos)) ∧
      (∀ r e, s.walkEntries w.ctx w.space w.vpn false = some (r, e) → (s.core core).ctx = w.ctx →
        s.tracked w.ctx w.space w.vpn = none → Answers (exec .walkComplete s) (fun t => regs t ∧ others t ∧
          (t.slotAt core slot).st = .ready ∧ (t.slotAt core slot).walkFault = x.walkFault ∧ e ∈ (t.core core).pageTlb ∧
          (∀ y, r = some y → y ∈ (t.core core).rangeTlb) ∧ e ∈ (t.cluster (clusterOf core)).tlb2)))

/-! The reference machine. -/

/-- The steps of the reference machine (05 R110 to R125): an issued store is a write at reach OWN in its agent's view, ordered
after the writes in view to its bytes; a write travels reach by reach and performs once every write ordered before it has; a
read returns what its view holds, or its home; an atomic reads and writes its home at once; a view takes in readable writes.
When each step happens is freely chosen (log 20). -/
def Obligations.ReferenceMachineOrdersWrites : Prop :=
  ∀ (s : State) (agent pos id i : Nat) (o : MemOp) (u : Unit_) (w : WriteRec), s.inv →
    let core := agent / 4
    let slot := agent % 4
    let x := s.slotAt core slot
    let y (t : State) : Slot := t.slotAt core slot
    let meets := s.writes.entries.filter (fun v => v.2.meets u.addr u.len)
    -- issuing (R114, R116, R122)
    (s.args = [agent, pos] → x.issuable pos = some (o, i) →
      (∀ k, o.rel = some k → s.released agent k = false → exec .memoryIssue s = .next (s.dueOne .memoryIssue [agent, pos])) ∧
      (o.rel = none ∨ (∃ k, o.rel = some k ∧ s.released agent k = true) →
        (o.kind = .load ∨ (∃ op a b, o.kind = .amo op a b) → Answers (exec .memoryIssue s) (fun t => t.mem = s.mem ∧
          (y t).ops[i]? = some { o with issued := true, rels := if o.kind = .load then o.rels else s.relsOf agent x o.rel } ∧
          (⟨.readReturn, [agent, o.id]⟩ : Due) ∈ t.agenda)) ∧
        (o.kind = .store → o.units = [u] → Answers (exec .memoryIssue s) (fun t => t.mem = s.mem ∧ (y t).ops = x.ops.eraseIdx i ∧
          t.nextWrite = s.nextWrite + 1 ∧ s.nextWrite ∈ t.view agent ∧ (∀ v ∈ s.view agent, v ∈ t.view agent) ∧
          (⟨.writeReach, [s.nextWrite]⟩ : Due) ∈ t.agenda ∧ ∃ z, t.writes.get? s.nextWrite = some z ∧ z.agent = agent ∧
            z.addr = u.addr ∧ z.bytes = u.bytes ∧ z.reach = .own ∧
            (∀ v ∈ meets, v.1 ∈ s.view agent → v.1 ∈ z.preds) ∧
            (∀ k, o.rel = some k → ∃ l, (k, l) ∈ z.rels ∧ ∀ v ∈ s.view agent, v ∈ l) ∧
            ∀ f ∈ x.relFence, ∃ l, (f.1, l) ∈ z.rels ∧ ∀ v ∈ f.2, v ∈ l)) ∧
        (∀ k, o.kind = .fence k → Answers (exec .memoryIssue s) (fun t => t.mem = s.mem ∧ (y t).ops = x.ops.eraseIdx i ∧
          ∀ v ∈ s.view agent, v ∈ t.view agent)))) ∧
    -- reaches and performing (R115, R117)
    (s.args = [id] → s.writes.get? id = some w →
      (∀ r, w.onward = some r → Answers (exec .writeReach s) (fun t => t.mem = s.mem ∧ w.reach.rank < r.rank ∧
        t.writes.get? id = some { w with reach := r } ∧ (⟨.writeReach, [id]⟩ : Due) ∈ t.agenda)) ∧
      (w.onward = none → w.reach ≠ .sys → exec .writeReach s = .next (s.dueOne .writePerform [id])) ∧
      (w.onward = none → w.reach ≠ .sys → s.performedAll w.preds = true →
        Answers (exec .writePerform s) (fun t => t.mem.read w.addr w.bytes.length = w.bytes ∧ t.inv ∧ t.arrivals.getLast? = some id ∧
          (∃ z, t.writes.get? id = some z ∧ z.reach = .sys ∧ z.addr ≤ w.addr ∧ w.addr + w.bytes.length ≤ z.addr + z.bytes.length) ∧
          (s.keyed w.addr w.bytes.length w.keyid = true → s.sameOutside t w.addr w.bytes.length ∧
            t.writes.get? id = some { w with reach := .sys, stamp := s.stampOf w.addr w.keyid }))) ∧
      (w.onward = none → s.performedAll w.preds = false → w.reach ≠ .sys →
        exec .writePerform s = .next (s.dueOne .writePerform [id]))) ∧
    -- reading (R113, R119, R120, R125)
    (s.args = [agent, id] → x.opAt id = some (o, pos) → o.issued = true → o.returned = false → o.units = [u] → u.len ≠ 0 →
      ((linesOf u.addr u.len).any s.poison.contains = false →
        (o.kind = .load → meets = [] → s.keyed u.addr u.len u.keyid = true → Answers (exec .readReturn s) (fun t =>
          t.mem = s.mem ∧ (⟨.variableResultLand, [core, slot]⟩ : Due) ∈ t.agenda ∧
          ∃ z, (y t).ops[pos]? = some { o with units := [z] } ∧ z.bytes = s.mem.read u.addr u.len)) ∧
        (o.kind = .load → meets = [(i, w)] → i ∈ s.view agent → s.readable w agent = true → w.addr ≤ u.addr →
          u.addr + u.len ≤ w.addr + w.bytes.length → (2 ^ 52 ≤ u.addr ∨ w.stamp = s.stampOf u.addr u.keyid) →
          Answers (exec .readReturn s) (fun t => t.mem = s.mem ∧ i ∈ t.view agent ∧
            ∃ z, (y t).ops[pos]? = some { o with units := [z] } ∧ z.bytes = (w.bytes.drop (u.addr - w.addr)).take u.len)) ∧
        (∀ op a b v, o.kind = .amo op a b → s.viewArrived agent o = true → meets = [] → s.keyed u.addr u.len u.keyid = true →
          (∀ p, o.page = some p → s.tracked (s.core core).ctx p.1 p.2 = none) →
          amoNew op u.len (leNat (s.mem.read u.addr u.len)) a.toNat b.toNat = some v → Answers (exec .readReturn s) (fun t =>
            t.mem.read u.addr u.len = leBytes u.len v ∧ t.inv ∧ s.sameOutside t u.addr u.len ∧
            ∃ z, (y t).ops[pos]? = some { o with units := [z] } ∧ z.bytes = s.mem.read u.addr u.len))) ∧
      ((linesOf u.addr u.len).any s.poison.contains = true → o.reads = true → x.gang = none → Answers (exec .readReturn s) (fun t =>
        t.mem = s.mem ∧ (y t).st = .stopped 3 ∧ (y t).tl = 2 ∧ ∃ l, Notice.memory (64 * l) ∈ t.notices ∧ l ∈ linesOf u.addr u.len))) ∧
    -- what a view takes in (R121)
    (s.args = [agent, id] → s.writes.get? id = some w →
      (s.readable w agent = true → Answers (exec .viewAdd s) (fun t => t.mem = s.mem ∧ id ∈ t.view agent ∧
        (∀ v ∈ w.preds, v ∈ t.view agent) ∧ (∀ v ∈ s.view agent, v ∈ t.view agent) ∧
        ∀ m, x.st = .parked .waita → x.monitor = some m → m.line ∈ linesOf w.addr w.bytes.length → (y t).st = .ready)) ∧
      (s.readable w agent = false → exec .viewAdd s = .next s))

/-! Virtual time and commits. -/

/-- Rounds of virtual time and commits (07 R188 to R191; 05 R138): a round flips every core's colour, closes with the least floor once
the closing colour balances and no commit is left, and tells each cluster, whose finite GVT never falls; a finished activation below
GVT commits, its Pantry bytes reaching memory; a deferred action that faults is dropped and counted. A pass and a flip are one instant
(log 90); accesses perform at once where a clause says so (log 20). -/
def Obligations.RoundsCloseAndActivationsCommit : Prop :=
  ∀ (s : State) (ctx k τ core : Nat) (r : Round) (a : Act) (g : Option Key),
    -- rounds (R188, R189)
    (s.args = [ctx] → (s.ctx ctx).round = some r →
      (r.open_ = false → (s.ctx ctx).st = .running → (s.ctx ctx).sw.lastRun = false → Answers (exec .gvtRoundStart s) (fun t => t.mem = s.mem ∧
        (∀ i ∈ s.coresOf ctx, (t.core i).colour = !r.colour ∧ (t.core i).minsent = none ∧ (t.core i).slots = (s.core i).slots) ∧
        (t.ctx ctx).round = some ⟨r.colour, s.clock, true, s.clock⟩ ∧ (⟨.gvtPass, [ctx]⟩ : Due) ∈ t.agenda)) ∧
      (r.open_ = true ∨ (s.ctx ctx).st ≠ .running ∨ (s.ctx ctx).sw.lastRun = true → exec .gvtRoundStart s = .next s) ∧
      (r.open_ = true → s.balance ctx r.colour = 0 → s.commitsLeft ctx = false → Answers (exec .gvtPass s) (fun t =>
        t.mem = s.mem ∧ (t.ctx ctx).round = some ⟨!r.colour, r.start, false, 0⟩ ∧
        ∀ x ∈ s.timelinesOf ctx, (∀ y ∈ s.clustersOf ctx, (⟨.gvtAdopt, [y, x] ++ keyArgs (s.floorOf ctx x)⟩ : Due) ∈ t.agenda) ∧
          (∀ old new, s.announcedAt x = some old → s.floorOf ctx x = some new → new.lt old = true → t.announcedAt x = some old) ∧
          ((∀ old new, s.announcedAt x = some old → s.floorOf ctx x = some new → new.lt old = false) →
            t.announcedAt x = s.floorOf ctx x))) ∧
      (r.open_ = true → (s.balance ctx r.colour ≠ 0 ∨ s.commitsLeft ctx = true) → Answers (exec .gvtPass s) (fun t =>
        t.mem = s.mem ∧ t.agenda = s.agenda ∧ (t.ctx ctx).round = some { r with next := s.clock + passCycles }))) ∧
    -- the least of the floors and of MINSENT, and the commits left (R188)
    (let pending (y : Key) : Prop := ∃ i ∈ s.coresOf ctx,
       (s.core i).minsent = some y ∨ ((s.core i).force.tlid = τ ∧ (s.core i).floor = some y)
     (s.floorOf ctx τ = none → ∀ y, ¬pending y) ∧ ∀ x, s.floorOf ctx τ = some x → pending x ∧ ∀ y, pending y → y.lt x = false) ∧
    (s.commitsLeft ctx = true ↔ ∃ i ∈ s.coresOf ctx, ∃ b ∈ (s.core i).acts, b.finished = true ∧
      b.key.below (s.announcedAt b.timeline) = true) ∧
    (s.args = [k, τ] ++ keyArgs g → Answers (exec .gvtAdopt s) (fun t => t.mem = s.mem ∧ (⟨.commit, [k]⟩ : Due) ∈ t.agenda ∧
      (∀ old new, s.gvtAt k τ = some old → g = some new → new.lt old = true → t.gvtAt k τ = some old) ∧
      ((∀ old new, s.gvtAt k τ = some old → g = some new → new.lt old = false) → t.gvtAt k τ = g) ∧
      ∀ x y, (x ≠ k ∨ y ≠ τ) → t.gvtAt x y = s.gvtAt x y)) ∧
    -- commits (R190; 05 R138)
    (s.args = [k] → s.nextCommit k = none → exec .commit s = .next s) ∧
    (∀ p : PLine, s.inv → s.args = [k] → s.nextCommit k = some (core, a) →
      s.eager = true → s.mayCommit k core a = true → (s.cluster k).commitQ.filter (fun d => d.core == core && d.key == a.key) = [] →
      (s.cluster k).pantry.filter (fun q => q.core == core && q.key == a.key) = [p] →
      64 * p.line + 64 ≤ 2 ^ 52 → isHostFrame (64 * p.line / 4096) = false → s.keyed (64 * p.line) 64 p.keyid = true →
      Answers (exec .commit s) (fun t => t.inv ∧ (∀ i, i < 64 → t.mem.byte (64 * p.line + i) =
          if p.mask.getLsbD i then BitVec.ofNat 8 (bitsOf p.data.toNat (8 * i) 8) else s.mem.byte (64 * p.line + i)) ∧
        (t.core core).acts = (s.core core).acts.filter (fun b => b.key != a.key) ∧
        (t.cluster k).pantry = (s.cluster k).pantry.filter (fun q => !(q.core == core && q.key == a.key)) ∧
        (∀ e ∈ (t.core core).queue 4, ¬(e.taken = true ∧ e.msg.key = a.key)) ∧ (⟨.commit, [k]⟩ : Due) ∈ t.agenda)) ∧
    -- deferred actions (R190, R191)
    (∀ (d : Deferred) (space ea n f : Nat) (v : Word) (c : Cap) (val : Word), f < 256 →
      d.act = .store c space ea n v none → s.commitStore d space ea n v none = .error (f, val) →
      let t := s.runDeferred τ d
      let p := (s.ctx (s.core d.core).ctx).page
      let q := (t.ctx (s.core d.core).ctx).page
      t.mem = s.mem ∧ bitsOf q.tlerr.toNat 0 32 = min (bitsOf p.tlerr.toNat 0 32 + 1) 0xFFFFFFFF ∧
        (bitsOf p.tlerr.toNat 0 32 = 0 → bitsOf q.tlerr.toNat 32 8 = τ % 256 ∧ bitsOf q.tlerr.toNat 40 8 = f ∧ q.tlerrval = val) ∧
        (bitsOf p.tlerr.toNat 0 32 ≠ 0 → bitsOf q.tlerr.toNat 32 32 = bitsOf p.tlerr.toNat 32 32 ∧ q.tlerrval = p.tlerrval)) ∧
    (∀ (d : Deferred) (ea n key addr : Nat) (v : Word) (c : Cap) (m : Bool), s.inv → s.eager = true → d.act = .store c 0 ea n v none →
      s.xlatEng (clusterOf d.core) (s.core d.core).ctx 0 ea .store = .ok (.mem addr key m) →
      s.tracked (s.core d.core).ctx 0 (ea / 4096) = none → ea < 2 ^ 57 → ea / 4096 = (ea + n - 1) / 4096 → 0 < n →
      s.keyed addr n key = true →
      (s.runDeferred τ d).mem.read addr n = leBytes n v.toNat ∧ s.sameOutside (s.runDeferred τ d) addr n)

/-! Host queues and graphs. -/

/-- A node of a graph that a queue runs, ready when its event comes; `u` is the state after the graph has been read again. -/
structure NodeReady (s u : State) (q frame node kind : Nat) (d : List Nat) : Prop where
  args : s.args = [q, nodeNum frame node] ∧ node < 4096
  run : ∃ r f t, (s.hq q).run = some r ∧ r.ending = none ∧ r.frames.get? frame = some f ∧
    s.readGraph q (s.hq q).ctx f.addr = .ok (t, u) ∧ t.nodes[node]? = some d ∧ f.isReady t node = true
  kind : nodeKind d = kind

/-- A node of a frame of the graph that a queue runs has come to a state. -/
def nodeIs (t : State) (q frame node : Nat) (x : GNode) : Prop := ∃ r, (t.hq q).run = some r ∧ (r.frame frame).node node = x

/-- A node runs a graph in a frame of its own, or has finished where it names none. -/
def runsFrame (t : State) (q frame node a : Nat) : Prop :=
  (a = 0 → nodeIs t q frame node .finished) ∧
  (a ≠ 0 → nodeIs t q frame node .running ∧ ∃ r k f, (t.hq q).run = some r ∧ r.frames.get? k = some f ∧ f.addr = a ∧
    f.parent = some (frame, node))

/-- Bytes that the firmware writes for an agent of its own stand at the one place of memory that their GLOBAL address names, and
where nothing is tracked no other byte of memory changes (06 R169; 13 R347, R348). -/
def recordLands (s t : State) (agent ctx a : Nat) (bs : List Byte) : Prop :=
  s.inv → s.eager = true → a < 2 ^ 57 → ∀ p k, s.engPlaces (s.podEng agent ctx) a 0 bs.length true = .ok [(.mem p k, bs.length)] →
    t.mem.read p bs.length = bs ∧
    (s.keyed p bs.length k = true → (∀ v, s.tracked ctx 0 v = none) → s.sameOutside t p bs.length)

/-- Host queues (13 R345 to R349, R352): a doorbell moves TAIL or counts an error; an entry begins at HEAD, which moves on, and
has its effect: a launch, a signal once the queue's grids have completed, a wait for a value; a destroyed queue that has drained
is released; the PICK of the default policy is the oldest ready GRID entry. What waits and what PICK sees where the spec is
silent is the model's (log 35, 36); accesses perform at once where a clause says so (log 20). -/
def Obligations.QueueEntriesHaveTheirEffect : Prop :=
  ∀ (s u : State) (q v ctx x : Nat) (e : Vector Word 8) (bs : List Byte),
    let h := s.hq q
    let ready (i : Instr) : Prop := s.args = [q] ∧ s.ready q i = some e
    let passed (t : State) : Prop := (t.hq q).head = (h.head + 1) % h.size ∧ (t.hq q).tail = h.tail ∧ (t.hq q).state = h.state
    (s.args = [q, v] → v < 2 ^ 32 →
      (h.state = 1 → v < h.size → Answers (exec .tailWrite s) (fun t => t.mem = s.mem ∧ (t.hq q).tail = v ∧
        (t.hq q).head = h.head ∧ (t.hq q).errcnt = h.errcnt)) ∧
      (h.state = 1 → h.size ≤ v → Answers (exec .tailWrite s) (fun t => t.mem = s.mem ∧ (t.hq q).tail = h.tail ∧
        (t.hq q).errcnt = min 255 (h.errcnt + 1))) ∧
      (h.state ≠ 1 → exec .tailWrite s = .next s)) ∧
    (ready .nop → Answers (exec .nop s) (fun t => t.mem = s.mem ∧ passed t ∧ (t.hq q).busy = .idle ∧
      (t.hq q).errcnt = if entOk e then h.errcnt else min 255 (h.errcnt + 1))) ∧
    (ready .grid → entD e 1 % 64 = 0 → entD e 1 < 2 ^ 57 → s.engRead (s.podEng (queueAgent q) h.ctx) (entD e 1) 0 64 = .ok (bs, u) →
      Answers (exec .grid s) (fun t => t.mem = u.mem ∧ passed t ∧
        (t.hq q).busy = .grid ((s.ctx h.ctx).gridCount + (s.ctx h.ctx).launches.length) ∧
        (⟨.launchAccept, [h.ctx]⟩ : Due) ∈ t.agenda ∧ ∃ l, (t.ctx h.ctx).launches = (s.ctx h.ctx).launches ++ [l] ∧
          l.dw = recordOf bs ∧ l.queue = some q ∧ l.addr = entD e 1 ∧ l.refused = (recordFault (recordOf bs) false).isSome ∧
          (t.hq q).errcnt = if l.refused then min 255 (h.errcnt + 1) else h.errcnt)) ∧
    (∀ id g, s.args = [q] → h.busy = .grid id → s.grid h.ctx id = some g →
      (g.triggered = true → Answers (exec .grid s) (fun t => t.mem = s.mem ∧ (t.hq q).busy = .idle)) ∧
      (g.triggered = false → exec .grid s = .next s)) ∧
    (ready .signal → entD e 1 % 8 = 0 → entD e 1 < 2 ^ 57 →
      (s.flying h = [] → s.eager = true →
        Answers (exec .signal s) (fun t => recordLands s t (queueAgent q) h.ctx (entD e 1) (leBytes 8 (entD e 3)) ∧ passed t ∧ (t.hq q).busy = .idle)) ∧
      (s.flying h ≠ [] → Answers (exec .signal s) (fun t => t.mem = s.mem ∧ passed t ∧
        (t.hq q).busy = .signal (entD e 1) (entD e 3)))) ∧
    (ready .wait → (s.modHq q (fun y => { y.advance s.clock with busy := .wait (entD e 1) (entD e 3) })).fwDword q h.ctx
        (entD e 1) = .ok (x, u) →
      (entD e 3 ≤ x → Answers (exec .wait s) (fun t => t.mem = u.mem ∧ passed t ∧ (t.hq q).busy = .idle)) ∧
      (x < entD e 3 → Answers (exec .wait s) (fun t => t.mem = u.mem ∧ passed t ∧ (t.hq q).busy = .wait (entD e 1) (entD e 3)))) ∧
    (ready .graph → entD e 2 % 64 = 0 → entD e 2 < 2 ^ 57 →
      (∀ y, State.checkGraph 9 (s.modHq q (fun h => h.advance s.clock)) q h.ctx (entD e 1) = .ok y →
        Answers (exec .graph s) (fun t => t.mem = y.mem ∧ passed t ∧ ∃ r f, (t.hq q).run = some r ∧ r.frames.get? 0 = some f ∧
          f.addr = entD e 1 ∧ f.parent = none ∧ r.ending = none ∧ r.result = entD e 2 ∧ (⟨.graphFinish, [q]⟩ : Due) ∈ t.agenda)) ∧
      (∀ f, State.checkGraph 9 (s.modHq q (fun h => h.advance s.clock)) q h.ctx (entD e 1) = .error f → Answers (exec .graph s) (fun t =>
        recordLands s t (queueAgent q) h.ctx (entD e 2) (resultRecord 5 0xFFFFFFFF) ∧ passed t ∧ (t.hq q).busy = .idle))) ∧
    (s.args = [q] → h.state = 2 → h.busy = .idle → s.flying h = [] → Answers (exec .queueRelease s) (fun t => t.mem = s.mem ∧
      t.hq q = { HostQueue.reset with head := h.head, errcnt := h.errcnt, disc := h.disc })) ∧
    (s.args = [q] → (h.state ≠ 2 ∨ h.busy ≠ .idle ∨ s.flying h ≠ []) → exec .queueRelease s = .next s) ∧
    (s.args = [ctx] → s.gridReady ctx = [q] → exec .policyPick s = .next (s.dueOne .grid [q])) ∧
    (s.args = [ctx] → 2 ≤ (s.gridReady ctx).length → (s.ctx ctx).policy = [] → Answers (exec .policyPick s) (fun t => t.mem = s.mem ∧
      ∃ p ∈ s.gridReady ctx, (⟨.grid, [p]⟩ : Due) ∈ t.agenda ∧ ∀ y ∈ s.gridReady ctx, (s.hq p).since ≤ (s.hq y).since)) ∧
    (s.args = [ctx] → 2 ≤ (s.gridReady ctx).length → (s.ctx ctx).policy ≠ [] → (s.ctx ctx).st = .running →
      Answers (exec .policyPick s) (fun t => t.mem = s.mem ∧ t.agenda = s.agenda ∧ ∃ r, t.polRun = some r ∧ r.ctx = ctx ∧ r.event = 0 ∧
        r.cand = (s.candQueues ctx).map ((s.candQueues ctx).foldl State.headRead s).candidateOf ∧
        (∀ y ∈ s.candQueues ctx, (s.hq y).size ≠ 0 → (t.hq y).entry.isSome = true) ∧ r.pc = 0 ∧ r.steps = 0 ∧ r.p.get 0 = 0 ∧
        r.p.get 1 = BitVec.ofNat 64 (s.candQueues ctx).length ∧ ∀ i : Fin 8, 2 ≤ i.val → r.p.get i = 0))

/-- Graphs (06 R168, R169; 13 R348): a ready node acts as its kind says, a conditional, a loop and a switch running the graph
that their word selects; a graph whose nodes have all finished, or that a node has ended, writes its result record. How a graph
ends whose words cannot be read, and while a subgraph of it runs, is the model's (log 35, 92), and the eager premises are log 20's. -/
def Obligations.GraphNodesAct : Prop :=
  ∀ (s u v w : State) (q frame node x : Nat) (d : List Nat) (bs : List Byte),
    let h := s.hq q
    let isNode (k : Nat) : Prop := NodeReady s u q frame node k d
    (isNode 1 → nodeAddr d % 64 = 0 → u.engRead (u.podEng (queueAgent q) h.ctx) (nodeAddr d) 0 64 = .ok (bs, v) →
      nodeAddr d < 2 ^ 57 → Answers (exec .graphGridNode s) (fun t => t.mem = v.mem ∧ nodeIs t q frame node .running ∧
        ∃ l, (t.ctx h.ctx).launches = (s.ctx h.ctx).launches ++ [l] ∧ l.dw = recordOf bs ∧ l.queue = some q ∧
          l.node = some (frame, node))) ∧
    (isNode 2 → (s.ctx h.ctx).st = .running → s.workClusters h.ctx ≠ [] → Answers (exec .graphCopyNode s) (fun t =>
      t.mem = u.mem ∧ nodeIs t q frame node .running ∧ ∃ k ∈ s.workClusters h.ctx, ∃ c ∈ (t.cluster k).chainQ,
        c.owner = .graph q frame node ∧ c.head = nodeAddr d ∧ c.inGlobal = true ∧ c.entry = 0 ∧ c.cursor = 0)) ∧
    (isNode 3 → nodeAddr d % 8 = 0 → u.eager = true → Answers (exec .graphSignalNode s) (fun t =>
      recordLands u t (queueAgent q) h.ctx (nodeAddr d) (leBytes 8 (nodeArg d)) ∧ nodeIs t q frame node .finished ∧
        (⟨.graphFinish, [q]⟩ : Due) ∈ t.agenda)) ∧
    (isNode 4 → u.fwDword q h.ctx (nodeAddr d) = .ok (x, v) → Answers (exec .graphConditionalNode s) (fun t => t.mem = v.mem ∧
      runsFrame t q frame node (if x ≠ 0 then nodeArg d else nodeArg2 d))) ∧
    (isNode 5 → u.fwDword q h.ctx (nodeAddr d) = .ok (x, v) → ∀ r, h.run = some r →
      let n := (r.frame frame).iters.getD node 0
      (x = 0 ∨ nodeArg d ≤ n → Answers (exec .graphLoopNode s) (fun t => t.mem = v.mem ∧ nodeIs t q frame node .finished)) ∧
      (x ≠ 0 → n < nodeArg d → Answers (exec .graphLoopNode s) (fun t => t.mem = v.mem ∧
        (nodeArg2 d ≠ 0 → runsFrame t q frame node (nodeArg2 d)) ∧
        (nodeArg2 d = 0 → nodeIs t q frame node .waiting ∧ (⟨.graphFinish, [q]⟩ : Due) ∈ t.agenda) ∧
        ∃ y, (t.hq q).run = some y ∧ (y.frame frame).iters.getD node 0 = n + 1))) ∧
    (isNode 6 → u.fwDword q h.ctx (nodeAddr d) = .ok (x, v) →
      (nodeArg2 d ≤ x → Answers (exec .graphSwitchNode s) (fun t => t.mem = v.mem ∧ nodeIs t q frame node .finished)) ∧
      (x < nodeArg2 d → ∀ a, v.fwDword q h.ctx (nodeArg d + 8 * x) = .ok (a, w) → Answers (exec .graphSwitchNode s) (fun t =>
        t.mem = w.mem ∧ runsFrame t q frame node a))) ∧
    (∀ r f, s.args = [q] → h.run = some r → r.grids = [] → r.frames = ⟨[(0, f)]⟩ → f.parent = none → r.result % 64 = 0 →
      (∀ t, r.ending = none → s.readGraph q h.ctx f.addr = .ok (t, u) → (∀ i, i < t.nodes.length → f.node i = .finished) →
        s.eager = true → Answers (exec .graphFinish s) (fun y =>
          recordLands s y (queueAgent q) h.ctx r.result (resultRecord r.status 0xFFFFFFFF) ∧ (y.hq q).busy = .idle)) ∧
      (∀ n, r.ending = some n → f.nodes.entries.all (fun e => e.2 != .running) = true → s.eager = true →
        Answers (exec .graphFinish s) (fun t => recordLands s t (queueAgent q) h.ctx r.result (resultRecord r.status n) ∧ (t.hq q).busy = .idle)) ∧
      (∀ t i, r.ending = none → s.readGraph q h.ctx f.addr = .ok (t, u) → i < t.nodes.length → f.isReady t i = true → Answers (exec .graphFinish s) (fun y => y.mem = s.mem ∧
          (⟨nodeStep (t.nodes.getD i []), [q, nodeNum 0 i]⟩ : Due) ∈ y.agenda)))

/-! Slices, switches and dumps. -/

/-- Switching a context out (13 R350; 14 R366 to R369): a slice ends in another one or in a switch point at least 20 µs off; at
it the cores stop taking entries and wake what waits; a slot that overruns is stopped and saved whole; a core at rest is saved;
the switch-out keeps every core with its local memory in the image, and leaves nothing of them on the device. What a switch
point wakes, and the image's form, are the model's (log 40, 42); accesses perform at once where a clause says so (log 20). -/
def switchOutSavesTheContext : Prop :=
  ∀ (s : State) (ctx core slot st : Nat), slot < 4 →
    let c := s.ctx ctx
    let x := s.slotAt core slot
    let y (t : State) : Ctx := t.ctx ctx
    (∀ n, s.args = [ctx] → c.sliceEnd = some n → c.st = .running → c.sw = .none_ →
      (s.clock < n → exec .sliceEnd s = .next s) ∧
      (n ≤ s.clock → c.order ≠ 0 → s.contended ctx = false → Answers (exec .sliceEnd s) (fun t => t.mem = s.mem ∧ (y t).sw = .none_ ∧
        (y t).sliceEnd = some (s.clock + (c.slice * Config.cyclesPerMicro - c.deduct)) ∧ (y t).deduct = 0)) ∧
      (n ≤ s.clock → (c.order = 0 ∨ s.contended ctx = true) → Answers (exec .sliceEnd s) (fun t => t.mem = s.mem ∧
        (y t).sliceEnd = none ∧ ∃ p, s.now + 20000 ≤ p ∧ (⟨.stAgreement, [ctx, p]⟩ : Due) ∈ t.agenda))) ∧
    (s.args = [ctx, st] → c.st = .running → c.sw = .none_ →
      Answers (exec .stAgreement s) (fun t => t.mem = s.mem ∧ (y t).sw = .agreed st)) ∧
    (s.args = [ctx] → c.sw = .agreed st → c.st = .running → (∀ d ∈ c.dies, (s.pkg (d / 2)).holdsSwitch = false) →
      (s.now < st → exec .switchPoint s = .next s) ∧
      (st ≤ s.now → Answers (exec .switchPoint s) (fun t => (c.lofts = .empty → t.mem = s.mem) ∧ (y t).sw = .window st false ∧
        (y t).image.valid = false ∧ (y t).image.slots = [] ∧ ∀ i ∈ s.coresOf ctx, (t.core i).window = true ∧ ∀ j, j < 4 →
          (∀ r, (t.slotAt i j).rd r = (s.slotAt i j).rd r) ∧
          (∀ w, (s.slotAt i j).st = .parked w → (t.slotAt i j).st = if w.woken then .ready else .parked w)))) ∧
    (s.args = [core, slot] → (s.core core).window = true → x.st.live = true →
      (∀ k, x.timed = true → x.spec = true → x.actKey = some k →
        exec .overrunStop s = .next ({ s with cur := ⟨core, slot⟩ }.rollback core k .free false)) ∧
      (x.timed = true → x.spec = false → x.awaits = false → Answers (exec .overrunStop s) (fun t => t.mem = s.mem ∧
        t.slotAt core slot = x.wake)) ∧
      (x.timed = false → x.awaits = true → exec .overrunStop s = .next ({ s with cur := ⟨core, slot⟩ }.dueOne .overrunStop [core, slot])) ∧
      (x.timed = false → s.eager = true → x.gang = none → x.awaits = false →
        s.hostAnswer.any (fun e => e.1 == slotAgent core slot) = false → Answers (exec .overrunStop s) (fun t => t.mem = s.mem ∧
        (t.slotAt core slot).st = .stopped overrunReason ∧ (t.ctx (s.core core).ctx).image.slow = true ∧
        ∃ z, (t.ctx (s.core core).ctx).image.slots = (s.ctx (s.core core).ctx).image.slots ++ [z] ∧ z.core = core ∧ z.slot = slot ∧
          (∀ r, z.data.rd r = x.rd r) ∧ z.data.pc = x.pc ∧ z.data.xstat = x.xstat ∧ z.data.bank1 = x.bank1 ∧ z.data.bank2 = x.bank2 ∧
          z.elapsed = s.clock - x.began))) ∧
    (s.args = [core] → s.canSave core = true → (s.core core).acts = [] → Answers (exec .coreSectionSave s) (fun t => t.mem = s.mem ∧
      (t.core core).saved = true ∧ (t.core core).window = false ∧ (t.core core).slots = (s.core core).slots)) ∧
    (s.args = [core] → s.canSave core = false → exec .coreSectionSave s = .next s) ∧
    (s.args = [ctx] → s.canSwitchOut ctx = false → exec .switchOutComplete s = .next s) ∧
    (s.inv → s.args = [ctx] → s.canSwitchOut ctx = true → s.timelinesOf ctx = [] → (∀ i ∈ s.coresOf ctx, (s.core i).acts = []) →
      (∀ k ∈ s.clustersOf ctx, s.nextCommit k = none) → (∀ w ∈ s.writes.entries, w.2.reach = .sys) → c.lofts = .empty → Answers (exec .switchOutComplete s) (fun t => t.inv ∧ (y t).st = .saved ∧
        (y t).sw = .none_ ∧ (y t).sliceEnd = none ∧ (y t).gen = c.gen + 1 ∧ (y t).image.valid = true ∧
        (∀ i ∈ s.coresOf ctx, t.cores.get? i = none ∧
          (∃ col m, (y t).image.cores.get? i = some { s.savedCore i with colour := col, minsent := m }) ∧ (y t).image.locals.get? i = some (s.localSection i) ∧ ∀ off, off < 65536 → t.mem.byte (localAddr i off) = unlistedByte) ∧
        (∀ b, b < 2 ^ 52 → t.mem.byte b = s.mem.byte b) ∧
        (∀ i, i ∉ s.coresOf ctx → t.core i = s.core i)))

/-- Switching a context in (14 R371, R373; 13 R350): an image that is not whole puts the context in RESET, one with other cores
is refused; a context is otherwise RUNNING, its cores in force with their seeds in local memory, a saved slot going on where it
was. The images are those of a context with no area named (log 40). -/
def switchInRestoresTheContext : Prop :=
  ∀ (s : State) (ctx : Nat),
    let c := s.ctx ctx
    let goes : Prop := s.inv ∧ s.args = [ctx] ∧ c.eligible = true ∧ s.diesFree ctx = true ∧ c.lofts = .empty ∧
      ∀ d ∈ c.dies, (s.pkgs.get? (d / 2)).isSome = true ∧ (s.pkg (d / 2)).halted = false ∧ (s.pkg (d / 2)).fw.rung < 3
    (s.args = [ctx] → (c.eligible = false ∨ s.diesFree ctx = false) → exec .switchIn s = .next s) ∧
    (goes → c.image.valid = false → Answers (exec .switchIn s) (fun t => (t.ctx ctx).st = .reset ∧ (t.ctx ctx).sw = .none_)) ∧
    (goes → c.image.valid = true → s.coresMatch ctx = false → exec .switchIn s = .next s) ∧
    (goes → s.coresMatch ctx = true → c.policy = [] → c.image = { Image.empty with context := c.image.context } → c.seeds.length ≤ 16 → Answers (exec .switchIn s) (fun t => t.inv ∧
      (t.ctx ctx).st = .running ∧ (∃ n, (t.ctx ctx).sliceEnd = some n) ∧
      ∀ i ∈ s.workCores ctx, i < 2 ^ 20 → (t.core i).ctx = ctx ∧ (t.core i).agectl = 0x0400 ∧ (t.core i).lardcfg = 8 ∧ (t.core i).srng = 1 ∧
        (t.core i).force.spillK = c.page.spillK ∧ (t.core i).force.larderK = 8 ∧ (∀ j, j < 4 → t.slotAt i j = Slot.reset ∧
          (⟨.activate, [i, j]⟩ : Due) ∈ t.agenda) ∧
        (∀ j a, c.seeds[j]? = some a → t.mem.read (localAddr i (0xFF00 + 16 * j)) 16 =
          leBytes 8 a.lo.toNat ++ leBytes 8 a.hi.toNat) ∧
        ∀ off, off < 0xFF00 → t.mem.byte (localAddr i off) = unlistedByte)) ∧
    (∀ e, goes → c.neverIn = true → c.policy = [] → c.image = { Image.empty with slots := [e] } → bitsOf e.data.xstat.toNat 11 2 ≠ 1 → e.slot < 4 →
      e.core ∈ s.workCores ctx → Answers (exec .switchIn s) (fun t => (t.ctx ctx).st = .running ∧
        t.slotAt e.core e.slot = { e.data with began := s.clock - e.elapsed, gang := none }))

/-- A context switched out is saved, and switched in goes on where it was (13 R350; 14 R366 to R373; log 40, 42). -/
def Obligations.SwitchesSaveAndRestore : Prop := switchOutSavesTheContext ∧ switchInRestoresTheContext

/-- Core dumps (14 R363, R375 to R377): the first fatal slot of an EMPTY Attic fills it with a primary record, its header ACTIVE
and at the end DONE; another one that comes before the end adds a nested record; without an Attic, or with a full one, the slot
only ends, counted in NEXTRA; the core has left its block either way, which takes the fault. The dwords of an Attic's header are
laid out by the model (log 44). -/
def Obligations.FatalSlotsAreDumped : Prop :=
  ∀ (s : State) (p core slot reason : Nat) (rest : List (Nat × Nat × Nat)), s.inv → slot < 4 →
    let ctx := (s.core core).ctx
    let x := s.slotAt core slot
    let gone (t : State) : Prop := (t.slotAt core slot).st = .empty ∧ (t.core core).exited = true ∧
      (∀ r, (t.slotAt core slot).rd r = x.rd r) ∧
      ∀ i b, s.blockOf core = some (i, b) → (⟨.blockRetire, [clusterOf core]⟩ : Due) ∈ t.agenda ∧ ∃ y, t.blocks.get? i = some y ∧
        (b.fault.isSome = true → y.fault = b.fault) ∧ (b.fault = none → y.stopping = true ∧
          y.fault = some ⟨b.index, core, if reason = 2 then 0 else x.bank2.xcause.toNat % 256, x.bank2.xval, x.bank2.xpc⟩ ∧
          (⟨.blockFaultReport, [clusterOf core]⟩ : Due) ∈ t.agenda)
    (s.args = [p] → (s.pkg p).dump.waiting = [] → exec .dumpStart s = .next s) ∧
    (s.args = [p] → (s.pkg p).dump.waiting = (core, slot, reason) :: rest → x.timed = false → x.actKey = none →
      ((s.ctx ctx).attic = none → Answers (exec .dumpStart s) (fun t => t.mem = s.mem ∧ gone t ∧ (t.pkg p).dump.waiting = rest ∧
        (⟨.dumpStart, [p]⟩ : Due) ∈ t.agenda)) ∧
      (∀ a, (s.ctx ctx).attic = some a → (a.state = 2 ∨ (a.state = 1 ∧ (a.nested = true ∨ a.trunc = true))) →
        Answers (exec .dumpStart s) (fun t => gone t ∧ (t.pkg p).dump.waiting = rest ∧
          (t.ctx ctx).attic = some { a with nextra := min (a.nextra + 1) 0xFFFFFFFF })) ∧
      (∀ a, (s.ctx ctx).attic = some a → a.state = 1 → a.nested = false → a.trunc = false → a.addr % 64 = 0 →
        a.addr + a.size ≤ 2 ^ 52 → 64 + a.used ≤ a.size → isHostFrame (a.addr / 4096) = false →
        isHostFrame ((a.addr + 64 + a.used) / 4096) = false →
        let rec_ := s.dumpRecord core slot reason false
        let n := min (a.size - 64 - a.used) rec_.length
        Answers (exec .dumpStart s) (fun t => t.inv ∧ gone t ∧ (t.pkg p).dump.waiting = rest ∧
          t.mem.read (a.addr + 64 + a.used) n = rec_.take n ∧
          (t.ctx ctx).attic = some { a with nested := true, used := a.used + n, trunc := decide (n < rec_.length) }))) ∧
    (∀ a, s.args = [p] → (s.pkg p).dump.waiting = (core, slot, reason) :: rest → (s.ctx ctx).attic = some a → a.state = 0 →
      (s.pkg p).dump.cur = none → a.addr % 64 = 0 → a.addr + a.size ≤ 2 ^ 52 → 64 ≤ a.size → a.used = 0 → a.nested = false →
      a.trunc = false → a.nextra = 0 →
      isHostFrame (a.addr / 4096) = false → isHostFrame ((a.addr + 64) / 4096) = false →
      let rec_ := s.dumpRecord core slot reason true
      let n := min (a.size - 64) rec_.length
      Answers (exec .dumpStart s) (fun t => t.inv ∧ (t.pkg p).dump.cur = some (core, slot, reason) ∧ (t.pkg p).dump.waiting = rest ∧
        t.mem.read (a.addr + 64) n = rec_.take n ∧ (t.ctx ctx).attic = some { a with state := 1, used := n, trunc := decide (n < rec_.length) } ∧
        leNat (t.mem.read (a.addr + 8) 4) = 1 ∧ (⟨.dumpComplete, [p]⟩ : Due) ∈ t.agenda ∧ ∀ r, (t.slotAt core slot).rd r = x.rd r)) ∧
    (∀ a, s.args = [p] → (s.pkg p).dump.cur = some (core, slot, reason) → (s.ctx ctx).attic = some a → a.state = 1 → x.timed = false →
      x.actKey = none → Answers (exec .dumpComplete s) (fun t => gone t ∧ (t.pkg p).dump.cur = none ∧
        t.notices = s.notices ++ [Notice.dump ctx] ∧
        (t.ctx ctx).attic = some { a with state := 2 } ∧
        (isHostFrame (a.addr / 4096) = false → leNat (t.mem.read (a.addr + 8) 4) = 2) ∧
        (⟨.dumpStart, [p]⟩ : Due) ∈ t.agenda))

/-! Firmware, resets and power. -/

/-- The firmware (13 R356 to R358): the heartbeat counts on its host dword; each rung resets what it names and ends; a staged
image hands over at an entry boundary, and control comes back to the old one when it is not accepted or gives no heartbeat in 5
ms. Whether an image is accepted, and what the handover holds, are free (log 30); the heartbeat's address is aligned to 8 (log 65). -/
def firmwareClimbsAndUpdates : Prop :=
  ∀ (s : State) (p a n : Nat),
    let k := s.pkg p
    let f := k.fw
    let g (t : State) : Firmware := (t.pkg p).fw
    let beats : Prop := f.beats s.clock = true ∧ k.halted = false ∧ k.rolesAnswer = true
    (s.args = [p] →
      (beats → Answers (exec .heartbeat s) (fun t => t.mem = s.mem ∧ (g t).hbCount = f.hbCount + 1 ∧
        (∃ h l, t.outbox = s.outbox ++ .write (2 * p) h (leBytes 8 (f.hbCount + 1).toNat) :: l ∧ (f.update = .none_ → l = []) ∧
          (f.hbAddr.toNat < 2 ^ 43 → h = f.hbAddr.toNat / 8 * 8)) ∧
        (g t).hbNext = s.clock + 1000 * Config.cyclesPerMicro ∧
        (∀ n, f.update = .handed n → f.stagedHand = true → (g t).active = !f.active ∧ (g t).update = .none_ ∧
          (g t).image = f.spare ∧ (g t).spare = f.image) ∧
        (f.update = .none_ → (g t).active = f.active))) ∧
      (¬beats → Answers (exec .heartbeat s) (fun t => t.mem = s.mem ∧ t.outbox = s.outbox ∧ (g t).hbCount = f.hbCount)) ∧
      -- the rungs
      Answers (exec .commandProcessorRestart s) (fun t => t.mem = s.mem ∧
        (g t).lost = f.lost.filter (fun c => k.cfg.roleOf c != 1) ∧ (g t).rung = (if f.rung = 1 then 0 else f.rung)) ∧
      Answers (exec .garretReload s) (fun t => t.mem = s.mem ∧ (g t).lost = [] ∧ (g t).update = .none_ ∧
        (g t).rung = (if f.rung = 2 then 0 else f.rung)) ∧
      (f.rung ≠ 3 → exec .contextPreservingEngineReset s = .next s) ∧
      (f.rung = 3 → s.runningOn [2 * p, 2 * p + 1] = [] → Answers (exec .contextPreservingEngineReset s) (fun t => t.mem = s.mem ∧
        (g t).rung = 0 ∧ (g t).lost = [] ∧ ∀ i, t.clusters.get? i = if i / 512 = p then none else s.clusters.get? i)) ∧
      (∀ c, f.rung = 3 → s.runningOn [2 * p, 2 * p + 1] = [c] → (s.ctx c).sw = .none_ → (s.ctx c).sliceEnd.isSome = true →
        Answers (exec .contextPreservingEngineReset s) (fun t => t.mem = s.mem ∧ (g t).rung = 3 ∧
          ∃ st, s.now + 20000 ≤ st ∧ (⟨.stAgreement, [c, st]⟩ : Due) ∈ t.agenda)) ∧
      -- live update
      (f.staged = false → Answers (exec .liveUpdate s) (fun t => t.mem = s.mem ∧ (g t).updFail = true ∧ (g t).update = f.update)) ∧
      (f.staged = true → (f.update = .none_ ∨ f.update = .quiescing) → Answers (exec .liveUpdate s) (fun t => t.mem = s.mem ∧
        let boundary := k.queues.values.all (fun q => q.busy == .idle)
        (g t).update = (if boundary then .handed s.clock else .quiescing) ∧ (boundary = true → (g t).handover.isSome = true) ∧
        (boundary = true → f.stagedHand = false → (⟨.liveUpdateRollback, [p]⟩ : Due) ∈ t.agenda))) ∧
      (∀ n, f.update = .handed n →
        (f.stagedHand = false ∨ n + 5000 * Config.cyclesPerMicro ≤ s.clock → Answers (exec .liveUpdateRollback s) (fun t =>
          t.mem = s.mem ∧ (g t).update = .none_ ∧ (g t).rollBk = true ∧ (g t).updFail = true ∧ (g t).active = f.active)) ∧
        (f.stagedHand = true → s.clock < n + 5000 * Config.cyclesPerMicro → exec .liveUpdateRollback s = .next s))) ∧
    (∀ x bs u, s.args = [p, a, n, x] → s.rootRead p a n = (bs, u) → Answers (exec .firmwareImageStage s) (fun t => t.mem = s.mem ∧
      ((g t).staged = true ↔ s.rootOk a n = true ∧ x = 1 ∧ Config.signatureValid p bs = true) ∧ (g t).spare = bs ∧
      (g t).active = f.active ∧ (g t).image = f.image ∧ (g t).update = f.update))

/-- Resets and power (13 R344, R357; 02 R33; 15 R391, R392): a die reset puts the contexts running on it in RESET and releases its
clusters one by one; a package reset leaves its lines as unwritten, its keys unloaded, its homed contexts RETIRING and the accepted table or the default in force; engines
ramp by quarters within the throttle, which follows temperature and power. A package reset leaves memory as bytes that nothing
has written (log 11); when an engine ramps is the model's (log 87). -/
def resetsAndPower : Prop :=
  ∀ (s : State) (p d k : Nat), s.inv →
    let die := s.die d
    let eng := s.engine k
    let reset (t : State) : Prop := (t.pkg p).keys = .empty ∧ (t.pkg p).life = (s.pkg p).cfg.fused ∧ (t.pkg p).halted = false ∧
      (t.pkg p).fw.lost = [] ∧ t.inv ∧ (∀ b, p * 2 ^ 44 ≤ b → b < (p + 1) * 2 ^ 44 → t.mem.byte b = unlistedByte) ∧
      (∀ b, (b < p * 2 ^ 44 ∨ (p + 1) * 2 ^ 44 ≤ b) → b < 2 ^ 52 → t.mem.byte b = s.mem.byte b) ∧
      (let c := (s.pkg p).cfg
       let f (off : Nat) : Word := BitVec.ofNat 64 (leNat ((c.table.drop off).take 8))
       (t.pkg p).fw.cfgRef = !c.tableOk p ∧
       (t.pkg p).cfg.layout = (if c.tableOk p then #v[f 16, f 24] else PkgConfig.reset.layout) ∧
       (t.pkg p).cfg.role = (if c.tableOk p then #v[f 32, f 40] else PkgConfig.reset.role)) ∧
      (∀ c, (s.ctx c).home = p → (s.ctx c).st = .saved ∨ (s.ctx c).st = .running ∨ (s.ctx c).st = .reset → (t.ctx c).st = .retiring) ∧
      ∀ c ∈ s.runningOn [2 * p, 2 * p + 1], (s.ctx c).home ≠ p → (t.ctx c).st = .reset
    (s.args = [d] → Answers (exec .dieReset s) (fun t => t.die d = Die.reset ∧ (∀ c ∈ s.runningOn [d], (t.ctx c).st = .reset) ∧
      (∀ i, i / 256 = d → t.clusters.get? i = none) ∧ (⟨.clusterResetRelease, [d]⟩ : Due) ∈ t.agenda ∧
      (t.pkg (d / 2)).fw.lost = [] ∧ (t.pkg (d / 2)).fw.update = .none_ ∧
      (t.pkg (d / 2)).fw.rung = (if (s.pkg (d / 2)).fw.rung = 4 ∧
        s.agenda.any (fun x => x.step == .dieReset && x.args.getD 0 0 / 2 == d / 2) = false then 0 else (s.pkg (d / 2)).fw.rung))) ∧
    (s.args = [p] → p < 256 → (∀ c, (s.ctx c).st = .saved → (s.ctx c).lofts = .empty) → Answers (exec .packageReset s) reset ∧
      ((s.pkg p).halted = true → Answers (exec .pcieLinkReset s) reset) ∧
      ((s.pkg p).halted = false → exec .pcieLinkReset s = .next s) ∧
      Answers (exec .thermalFatal s) (fun t => (t.pkg p).halted = true ∧ Notice.fatal p ∈ t.notices ∧ t.die (2 * p) = Die.reset ∧ t.die (2 * p + 1) = Die.reset ∧
        ∀ c ∈ s.runningOn [2 * p, 2 * p + 1], (t.ctx c).st = .reset)) ∧
    (s.args = [d] → (die.released < 272 → Answers (exec .clusterResetRelease s) (fun t => t.mem = s.mem ∧
        (t.die d).released = die.released + 1 ∧ (die.released + 1 < 272 → (⟨.clusterResetRelease, [d]⟩ : Due) ∈ t.agenda))) ∧
      (272 ≤ die.released → exec .clusterResetRelease s = .next s)) ∧
    (s.args = [k] → Answers (exec .matrixRampStep s) (fun t => t.mem = s.mem ∧ (t.engine k).acc = eng.acc ∧
        (t.engine k).ramp = (if eng.rampAt ≠ 0 ∧ eng.ramp < min 4 (s.die (k / 256)).throttle then eng.ramp + 1 else eng.ramp) ∧
        (t.engine k).rampAt = max 1 s.clock) ∧
      Answers (exec .matrixIdleTimeout s) (fun t => t.mem = s.mem ∧ (t.engine k).acc = eng.acc ∧
        if eng.lastStep + 100 * Config.cyclesPerMicro ≤ s.clock then (t.engine k).ramp = 1 ∧ (t.engine k).rampAt = 0
        else t.engine k = eng)) ∧
    (∀ temp power, s.args = [d, temp, power] → Answers (exec .thermalThrottleStep s) (fun t => t.mem = s.mem ∧
      (t.die d).throttle = (if 100 ≤ temp ∨ 3200 < power then max 1 (die.throttle - 1)
        else if temp < 95 ∧ power < 3000 then min 4 (die.throttle + 1) else die.throttle) ∧
      ∀ i x, i / 256 = d → t.clusters.get? i = some x → x.engine.ramp ≤ (t.die d).throttle))

/-- The firmware's heartbeat, ladder and live update, resets, and power (13 R356 to R358; 02 R33; 15 R391, R392; log 11, 30). -/
def Obligations.FirmwareResetsAndPower : Prop := firmwareClimbsAndUpdates ∧ resetsAndPower

/-! The control mailbox. -/

/-- A command that the mailbox of a package holds while BUSY, its reserved bits clear and its arguments in their bounds. -/
structure CmdIs (s : State) (p code : Nat) (bounds : List Nat) : Prop where
  args : s.args = [p]
  busy : (s.pkg p).mailbox.busy = true
  code : s.cc p 0 = code
  sound : s.argsIn p bounds = true

/-- The mailbox has completed with a RESULT. -/
def resultIs (t : State) (p r : Nat) : Prop := (t.pkg p).mailbox.busy = false ∧ (t.pkg p).mailbox.result = r

/-- A context that exists. -/
def ctxExists (s : State) (c : Nat) : Prop := c ≠ 0 ∧ (s.ctx c).st ≠ .free

/-- Contexts by the mailbox (15 R379 to R381, R398; 01 R8, R9; 02 R56): reserved bits of an argument give ARG, an id with no context
NOCTX, a state that does not admit the command STATE, a code that no command has ARG; otherwise each has its effect and
completes with OK. The order of the checks, the bounds of a partition's slice and the refusal of a root address that no command
may reach are the model's (log 37, 45, 66); the ids that a package may use are free (log 10). -/
def Obligations.MailboxCommandsOnContexts : Prop :=
  ∀ (s u : State) (p : Nat) (bs : List Byte),
    let cc := s.cc p
    let c := s.ctx (cc 1)
    let ok (t : State) : Prop := resultIs t p 0
    let live : Prop := c.st = .saved ∨ c.st = .running
    (let w : Nat := 2 ^ 64
     ∀ i ∈ ([(.create, 1, [ctxBound, w, 32]), (.reset, 2, [ctxBound]), (.reinit, 3, [ctxBound]), (.destroy, 4, [ctxBound]),
         (.freeze, 5, [ctxBound]), (.unfreeze, 6, [ctxBound]), (.keyload, 7, [ctxBound, 4096, w]), (.keyclear, 8, [ctxBound, 4096]),
         (.track, 9, [ctxBound, w, 16]), (.partition, 11, [ctxBound, w, 2 ^ 24, 2 ^ 24]), (.loft, 12, [ctxBound, 256, w, w]),
         (.attic, 13, [ctxBound, 1, w, w]), (.atticrearm, 14, [ctxBound]), (.qcreate, 15, [ctxBound, 4096, w, 32]),
         (.qdestroy, 16, [ctxBound, 4096]), (.policy, 17, [ctxBound, w, 256]), (.timeoff, 18, [ctxBound, w]),
         (.sample, 19, [ctxBound, w, w, w]), (.unlock, 21, [ctxBound, w]), (.spacereq, 22, [1, w, w, w, w, w, w]),
         (.noderead, 23, [1, 2 ^ 32, w, w, w, w, w])] : List (Instr × Nat × List Nat)),
       s.args = [p] → (s.pkg p).mailbox.busy = true → cc 0 % 256 = i.2.1 → (∃ j, j < 7 ∧ i.2.2.getD j 1 ≤ cc (j + 1)) →
       exec i.1 s = .next (s.mailboxDone p 3)) ∧
    (∀ i ∈ ([(.timelineAllocate, 10, [ctxBound, 512], 256), (.timelineFree, 10, [ctxBound, 512], 0), (.htwriteBase, 24, [ctxBound, 2048, 2 ^ 64], 1024),
        (.htwrite, 24, [ctxBound, 2048, 2 ^ 64], 0)] : List (Instr × Nat × List Nat × Nat)),
      s.args = [p] → (s.pkg p).mailbox.busy = true → cc 0 % 256 = i.2.1 →
      (cc 2 / (if i.2.1 = 10 then 256 else 1024) % 2 = if i.2.2.2 = 0 then 0 else 1) →
      (∃ j, j < 7 ∧ i.2.2.1.getD j 1 ≤ cc (j + 1)) → exec i.1 s = .next (s.mailboxDone p 3)) ∧
    (∀ i ∈ ([(.dbgHalt, 1, 2), (.dbgResume, 2, 4), (.dbgStep, 4, 8), (.dbgBrken, 0, 8)] : List (Instr × Nat × Nat)),
      s.args = [p] → (s.pkg p).mailbox.busy = true → cc 0 % 256 = 20 → cc 3 % i.2.2 = i.2.1 → cc 3 / 16 % 2 = 0 →
      (∃ j, j < 7 ∧ ([ctxBound, 2 ^ 20, 32, 2 ^ 64] : List Nat).getD j 1 ≤ cc (j + 1)) → exec i.1 s = .next (s.mailboxDone p 3)) ∧
    -- root addresses that no command may reach (01 R10; 02 R38; log 66)
    (CmdIs s p 1 [ctxBound, anyWord, 32] → s.rootOk (cc 2) (16 * cc 3) = false → exec .create s = .next (s.mailboxDone p 3)) ∧
    (CmdIs s p 12 [ctxBound, 256, anyWord, anyWord] → ctxExists s (cc 1) → s.rootOk (cc 3) (cc 4) = false →
      exec .loft s = .next (s.mailboxDone p 3)) ∧
    (CmdIs s p 13 [ctxBound, 1, anyWord, anyWord] → ctxExists s (cc 1) → s.rootOk (cc 3) (max 64 (cc 4)) = false →
      exec .attic s = .next (s.mailboxDone p 3)) ∧
    (∀ i ∈ ([(.reset, 2), (.reinit, 3), (.destroy, 4), (.freeze, 5), (.unfreeze, 6), (.keyload, 7), (.keyclear, 8), (.track, 9),
        (.timelineFree, 10), (.partition, 11), (.loft, 12), (.attic, 13), (.atticrearm, 14), (.qcreate, 15), (.qdestroy, 16),
        (.policy, 17), (.timeoff, 18), (.htwrite, 24)] : List (Instr × Nat)),
      CmdIs s p i.2 [ctxBound] → ¬ctxExists s (cc 1) → exec i.1 s = .next (s.mailboxDone p 1)) ∧
    (∀ i ∈ ([(.reset, 2), (.qcreate, 15), (.htwrite, 24)] : List (Instr × Nat)), CmdIs s p i.2 [ctxBound] → ctxExists s (cc 1) →
      ¬live → exec i.1 s = .next (s.mailboxDone p 2)) ∧
    (CmdIs s p 3 [ctxBound] → ctxExists s (cc 1) → c.st ≠ .reset → exec .reinit s = .next (s.mailboxDone p 2)) ∧
    (s.args = [p] → (s.pkg p).mailbox.busy = true → (cc 0 % 256 = 0 ∨ 0x19 ≤ cc 0 % 256) →
      exec .mailboxUnassignedCode s = .next (s.mailboxDone p 3)) ∧
    -- contexts
    (CmdIs s p 1 [ctxBound, anyWord, 32] → cc 3 ≤ 16 → cc 1 ≠ 0 → cc 1 ≠ 0xFFFFF → c.st = .free →
      s.homed p < Config.contextLimit → s.rootOk (cc 2) (16 * cc 3) = true → s.rootRead p (cc 2) (16 * cc 3) = (bs, u) → Answers (exec .create s) (fun t =>
        t.mem = s.mem ∧ if Config.ctxAssigned p (cc 1) = false then resultIs t p 3 else ok t ∧ ∃ seeds,
          t.ctx (cc 1) = { Ctx.reset with st := .saved, home := p, seeds := seeds } ∧
          seeds.length = cc 3 ∧ ∀ i a, seeds[i]? = some a → a.tag = true ∧
            a.lo = BitVec.ofNat 64 (leNat ((bs.drop (16 * i)).take 8)) ∧ a.hi = BitVec.ofNat 64 (leNat ((bs.drop (16 * i + 8)).take 8)))) ∧
    (CmdIs s p 2 [ctxBound] → cc 1 ≠ 0 → live → Answers (exec .reset s) (fun t => ok t ∧ (t.ctx (cc 1)).st = .reset ∧
      (t.ctx (cc 1)).sw = .none_ ∧ (∀ i ∈ s.coresOf (cc 1), t.cores.get? i = none) ∧
      ∀ x k y, (t.pkg x).keys.get? k = some y → y.owner = cc 1 → y.loaded = false)) ∧
    (CmdIs s p 3 [ctxBound] → cc 1 ≠ 0 → c.st = .reset → Answers (exec .reinit s) (fun t => ok t ∧ (c.lofts = .empty → t.mem = s.mem) ∧
      (t.ctx (cc 1)).st = .saved ∧ (t.ctx (cc 1)).page = CtrlPage.reset ∧
      (t.ctx (cc 1)).image = { Image.empty with context := (t.ctx (cc 1)).image.context } ∧
      (t.ctx (cc 1)).grids = .empty ∧ (t.ctx (cc 1)).seeds = c.seeds ∧ (t.ctx (cc 1)).dies = c.dies ∧ (t.ctx (cc 1)).order = c.order ∧
      (t.ctx (cc 1)).attic = c.attic ∧ (t.ctx (cc 1)).policy = c.policy)) ∧
    (CmdIs s p 4 [ctxBound] → cc 1 ≠ 0 → c.st = .saved ∨ c.st = .reset → Answers (exec .destroy s) (fun t => ok t ∧
      (c.lofts = .empty → s.coresOf (cc 1) = [] → t.mem = s.mem) ∧ (t.ctx (cc 1)).st = .retiring ∧ (t.ctx (cc 1)).order = 0 ∧ (∀ i, (t.ctx (cc 1)).windows.get i = Window.closed) ∧
      (⟨.contextFree, [cc 1]⟩ : Due) ∈ t.agenda)) ∧
    (∀ i ∈ ([(.freeze, 5, true), (.unfreeze, 6, false)] : List (Instr × Nat × Bool)), CmdIs s p i.2.1 [ctxBound] → ctxExists s (cc 1) →
      Answers (exec i.1 s) (fun t => ok t ∧ t.mem = s.mem ∧ (t.ctx (cc 1)).frozen = i.2.2 ∧
        ∀ x k y, (t.pkg x).cellar.get? k = some y → y.ctx = cc 1 → y.frozen = i.2.2)) ∧
    -- partitions, areas and time
    (CmdIs s p 11 [ctxBound, anyWord, 2 ^ 24, 2 ^ 24] → ctxExists s (cc 1) → live → s.rootOk (cc 2) 64 = true → s.rootRead p (cc 2) 64 = (bs, u) →
      cc 3 = 0 ∨ (100 ≤ cc 3 ∧ cc 3 ≤ 10000000) → cc 4 = 0 ∨ (10000000 ≤ cc 4) →
      (∀ d ∈ bitmapDies bs, (s.pkgs.get? (d / 2)).isSome = true) →
      (bitmapDies bs = [] → c.nextSlice ≤ 10000000 → c.slice ≤ 10000000 → Answers (exec .partition s) (fun t => ok t ∧
        t.mem = s.mem ∧ (t.ctx (cc 1)).order = 0)) ∧
      (bitmapDies bs ≠ [] → (c.st = .saved ∧ c.neverIn = true) ∨ bitmapDies bs = c.lastDies → c.nextSlice ≤ 10000000 → c.slice ≤ 10000000 →
        Answers (exec .partition s) (fun t => ok t ∧ t.mem = s.mem ∧ (t.ctx (cc 1)).dies = bitmapDies bs ∧
          (t.ctx (cc 1)).order = s.nextOrder ∧ (cc 3 ≠ 0 → (t.ctx (cc 1)).nextSlice = cc 3) ∧ (cc 4 ≠ 0 → (t.ctx (cc 1)).nextCap = cc 4) ∧
          (⟨.switchIn, [cc 1]⟩ : Due) ∈ t.agenda))) ∧
    (CmdIs s p 12 [ctxBound, 256, anyWord, anyWord] → ctxExists s (cc 1) → s.rootOk (cc 3) (cc 4) = true → Answers (exec .loft s) (fun t => ok t ∧
      (¬(c.st = .saved ∧ c.neverIn = true) → t.mem = s.mem) ∧
      (t.ctx (cc 1)).lofts.get? (cc 2) = some (cc 3, cc 4))) ∧
    (s.inv → CmdIs s p 13 [ctxBound, 1, anyWord, anyWord] → ctxExists s (cc 1) → s.rootOk (cc 3) (max 64 (cc 4)) = true → Answers (exec .attic s) (fun t => ok t ∧
      (t.ctx (cc 1)).attic = some ⟨cc 3, cc 4, 0, false, false, 0, 0⟩ ∧ (isHostFrame (cc 3 / 4096) = false →
        leNat (t.mem.read (cc 3) 8) = 0x4154544900000001 ∧ leNat (t.mem.read (cc 3 + 8) 4) = 0))) ∧
    (∀ a, CmdIs s p 14 [ctxBound] → ctxExists s (cc 1) → c.attic = some a → Answers (exec .atticrearm s) (fun t => ok t ∧
      (t.ctx (cc 1)).attic = some ⟨a.addr, a.size, 0, false, false, 0, 0⟩)) ∧
    (CmdIs s p 18 [ctxBound, anyWord] → ctxExists s (cc 1) → Answers (exec .timeoff s) (fun t => ok t ∧ t.mem = s.mem ∧
      (t.ctx (cc 1)).timeOff = BitVec.ofNat 64 (cc 2)))

/-- Tables, queues, samples and debug by the mailbox (03 R76, R81; 07 R171; 13 R345, R349, R354; 15 R386 to R389, R399, R400):
keys, tracked ranges, timelines, queues, policies, samples, debug modules, the unlock, requests, node images and the handler
table. The layouts of a tracked range, of a sample's header and of a token's lifecycle state, the order of the checks, and the
refusal of a root address that no command may reach are the model's (log 44 to 47, 66); what a refused load does to a slot that is
LOADED, and a request of no page, are too (log 88, 89); whether a signature is valid is free (log 30). -/
def Obligations.MailboxCommandsOnTables : Prop :=
  ∀ (s u : State) (p : Nat) (bs : List Byte), s.inv →
    let cc := s.cc p
    let c := s.ctx (cc 1)
    let q := p * 4096 + cc 2
    let ok (t : State) : Prop := resultIs t p 0
    let key (t : State) : KeySlot := (t.pkg p).keys.getD (cc 2) KeySlot.reset
    (CmdIs s p 7 [ctxBound, 4096, anyWord] → ctxExists s (cc 1) → cc 2 ≠ 0 → (key s).gen ≠ 0xFFFF → s.rootOk (cc 3) 64 = true → s.rootRead p (cc 3) 64 = (bs, u) →
      isHostFrame (cc 3 / 4096) = false → Answers (exec .keyload s) (fun t => ok t ∧ key t = ⟨true, bs, cc 1, (key s).gen + 1⟩ ∧
        t.mem.read (cc 3) 64 = List.replicate 64 0 ∧ t.inv)) ∧
    (CmdIs s p 7 [ctxBound, 4096, anyWord] → ctxExists s (cc 1) → cc 2 ≠ 0 →
      (s.rootOk (cc 3) 64 = false → exec .keyload s = .next (s.mailboxDone p 3)) ∧
      (s.rootOk (cc 3) 64 = true → (key s).gen = 0xFFFF → exec .keyload s = .next (s.mailboxDone p 4))) ∧
    (CmdIs s p 8 [ctxBound, 4096] → ctxExists s (cc 1) → cc 2 ≠ 0 → Answers (exec .keyclear s) (fun t => ok t ∧ t.mem = s.mem ∧
      (key t).loaded = false ∧ (key t).gen = (key s).gen)) ∧
    -- tracking
    (CmdIs s p 9 [ctxBound, anyWord, 16] → ctxExists s (cc 1) → cc 3 = 0 → Answers (exec .track s) (fun t => ok t ∧ t.mem = s.mem ∧
      (t.ctx (cc 1)).tracks = [])) ∧
    (CmdIs s p 9 [ctxBound, anyWord, 16] → ctxExists s (cc 1) → cc 3 = 1 → s.rootOk (cc 2) 32 = true → s.rootRead p (cc 2) 32 = (bs, u) →
      let r := trackOf (dwordsOf 4 bs)
      (s.trackOk r = true → Answers (exec .track s) (fun t => (t.pkg p).mailbox.busy = true ∧ (t.ctx (cc 1)).tracks = [r] ∧
        t.mem.read r.bitmap (r.pages / 4) = List.replicate (r.pages / 4) 0xAA ∧ (⟨.trackEnableComplete, [p]⟩ : Due) ∈ t.agenda)) ∧
      (s.trackOk r = false → exec .track s = .next (s.mailboxDone p 3))) ∧
    (CmdIs s p 9 [ctxBound, anyWord, 16] → cc 3 ≠ 0 → c.tracks ≠ [] → Answers (exec .trackEnableComplete s) (fun t => ok t ∧
      t.mem = s.mem ∧ ∀ i e, e ∈ (t.core i).pageTlb → e.ctx = cc 1 → e.dirty = false)) ∧
    -- timelines
    (CmdIs s p 10 [ctxBound, 512] → ctxExists s (cc 1) → 256 ≤ cc 2 →
      (s.timelines.get? (cc 2 % 256) = none → Answers (exec .timelineAllocate s) (fun t => ok t ∧ t.mem = s.mem ∧
        t.timelines.get? (cc 2 % 256) = some (cc 1) ∧ (∀ k, t.gvtAt k (cc 2 % 256) = some ⟨0, 0, 0⟩) ∧
        t.announcedAt (cc 2 % 256) = some ⟨0, 0, 0⟩ ∧
        ∀ x k y, (t.ctx x).image.clusters.get? k = some y → y.gvt.get? (cc 2 % 256) = none)) ∧
      (∀ o, s.timelines.get? (cc 2 % 256) = some o → o ≠ cc 1 → exec .timelineAllocate s = .next (s.mailboxDone p 4))) ∧
    (CmdIs s p 10 [ctxBound, 512] → ctxExists s (cc 1) → cc 2 < 256 → s.timelines.get? (cc 2 % 256) = some (cc 1) →
      Answers (exec .timelineFree s) (fun t => ok t ∧ t.mem = s.mem ∧ t.timelines.get? (cc 2) = none)) ∧
    -- queues and policies
    (CmdIs s p 15 [ctxBound, 4096, anyWord, 32] → ctxExists s (cc 1) → c.st = .saved ∨ c.st = .running → 6 ≤ cc 4 → cc 4 ≤ 16 →
      (s.hq q).state = 0 → s.rootOk (cc 3) 16 = true → s.rootRead p (cc 3) 16 = (bs, u) → Answers (exec .qcreate s) (fun t => ok t ∧ t.mem = s.mem ∧
        t.hq q = { HostQueue.reset with state := 1, ctx := cc 1, base := seedCap bs, size := 2 ^ cc 4 })) ∧
    (CmdIs s p 16 [ctxBound, 4096] → ctxExists s (cc 1) → (s.hq q).state = 1 → (s.hq q).ctx = cc 1 →
      (s.fwBegins p = true → Answers (exec .qdestroy s) (fun t => ok t ∧ t.mem = s.mem ∧ (t.hq q).state = 2 ∧
        (t.hq q).head = (s.hq q).tail ∧ (t.hq q).disc = (s.hq q).disc + (s.hq q).pending ∧ (⟨.queueRelease, [q]⟩ : Due) ∈ t.agenda)) ∧
      (s.fwBegins p = false → exec .qdestroy s = .next s)) ∧
    (CmdIs s p 17 [ctxBound, anyWord, 256] → ctxExists s (cc 1) → s.rootOk (cc 2) (4 * cc 3) = true →
      s.rootRead p (cc 2) (4 * cc 3) = (bs, u) →
      let ws := (List.range (cc 3)).map (fun i => BitVec.ofNat 32 (leNat ((bs.drop (4 * i)).take 4)))
      (policyOk ws = true → Answers (exec .policy s) (fun t => ok t ∧ t.mem = s.mem ∧ (t.ctx (cc 1)).policy = ws)) ∧
      (policyOk ws = false → exec .policy s = .next (s.mailboxDone p 4))) ∧
    -- samples and debug
    (CmdIs s p 19 [ctxBound, anyWord, anyWord, anyWord] → cc 1 = 0 → s.rootOk (cc 3) (cc 4) = true → Answers (exec .sample s) (fun t =>
      ok t ∧ t.mem = s.mem ∧ (t.pkg p).samples = (s.pkg p).samples ++ [⟨cc 2, cc 3, cc 4⟩])) ∧
    (s.args = [p] → (∀ m ∈ (s.pkg p).samples, s.now < m.time) → exec .sampleLatch s = .next s) ∧
    (∀ m l, s.args = [p] → (s.pkg p).samples = m :: l →
      (m.time ≤ s.now → 64 ≤ m.size → isHostFrame (m.buf / 4096) = false → Answers (exec .sampleLatch s) (fun t =>
        (t.pkg p).samples = l ∧ t.inv ∧ leNat (t.mem.read m.buf 8) = 0x53414D5000000001 ∧
        leNat (t.mem.read (m.buf + 8) 8) = m.time % 2 ^ 64))) ∧
    (CmdIs s p 20 [ctxBound, 2 ^ 20, 32, anyWord] → cc 1 = 0 → s.coreExists (cc 2) = true →
      let d (t : State) : Dbg := (t.core (cc 2)).dbg
      let set (t : State) : Prop := ok t ∧ t.mem = s.mem ∧ (d t).brken = decide (8 ≤ cc 3 % 16) ∧ (d t).trace = decide (16 ≤ cc 3)
      let runs (t : State) : Prop := ∀ i w, i < 4 → (s.slotAt (cc 2) i).st = .halted w → (t.slotAt (cc 2) i).st = w
      (cc 3 % 2 = 1 → Answers (exec .dbgHalt s) (fun t => set t ∧ ∀ i, ∃ w, (t.slotAt (cc 2) i).st = .halted w)) ∧
      (cc 3 % 4 = 2 → Answers (exec .dbgResume s) (fun t => set t ∧ runs t)) ∧
      (cc 3 % 8 = 4 → Answers (exec .dbgStep s) (fun t => set t ∧ runs t ∧ (d t).stepping = true)) ∧
      (cc 3 % 8 = 0 → cc 3 < 16 → Answers (exec .dbgBrken s) (fun t => set t ∧ (t.core (cc 2)).slots = (s.core (cc 2)).slots)) ∧
      (cc 3 % 8 = 0 → 16 ≤ cc 3 → Answers (exec .dbgTrace s) (fun t => set t ∧ (d t).buffer = cc 4 ∧ (d t).fill = 0 ∧
        (t.core (cc 2)).slots = (s.core (cc 2)).slots))) ∧
    (CmdIs s p 21 [ctxBound, anyWord] → cc 1 = 0 → s.rootOk (cc 2) 3373 = true → s.rootRead p (cc 2) 3373 = (bs, u) →
      if ((s.pkg p).life = .production ∨ (s.pkg p).life = .returned) ∧ bs.take 64 = (s.pkg p).tokenFields ∧ Config.signatureValid 2 bs = true then Answers (exec .unlock s) (fun t => ok t ∧
        (t.pkg p).life = .debugOpen ∧ (t.pkg p).unlocks = (s.pkg p).unlocks + 1 ∧
        (∀ k y, (t.pkg p).keys.get? k = some y → y.loaded = false) ∧
        ∀ x, (s.ctx x).st = .saved ∨ (s.ctx x).st = .running → (t.ctx x).st = .reset)
      else exec .unlock s = .next (s.mailboxDone p 4)) ∧
    -- the root's requests and the handler table
    (CmdIs s p 22 [1, anyWord, anyWord, anyWord, anyWord, anyWord, anyWord] →
      let unit : Vector Word 5 := Vector.ofFn (fun i => BitVec.ofNat 64 (cc (2 + i.val)))
      (rootUnitOk unit = true → Answers (exec .spacereq s) (fun t => t.mem = s.mem ∧ (t.pkg p).mailbox.busy = true ∧
        (t.pkg p).eng.queue = (s.pkg p).eng.queue ++ [.space unit (.mailbox p)])) ∧
      (rootUnitOk unit = false → exec .spacereq s = .next (s.mailboxDone p 3))) ∧
    (CmdIs s p 23 [1, 2 ^ 32, anyWord, anyWord, anyWord, anyWord, anyWord] → cc 2 ≤ 0x3FFFFFF → Answers (exec .noderead s) (fun t => ok t ∧
      t.mem = s.mem ∧ ∀ i, i < 5 → t.ccArg p (3 + i) = (nodeDwords (s.pkg p).cellar (cc 2)).getD i 0 % 2 ^ 64)) ∧
    (∀ m k b, CmdIs s p 24 [ctxBound, 2048, anyWord] → ctxExists s (cc 1) → c.st = .saved ∨ c.st = .running → cc 2 ≤ 1022 →
      s.rootOk (cc 3) 32 = true → s.rootRead p (cc 3) 32 = (bs, u) → leNat ((bs.drop 16).take 8) ≤ 1 → leNat (bs.drop 24) = 0 →
      s.xlatAgent (cc 1) 0 (c.page.htbase.toNat + 32 * cc 2) .store = .ok (.mem m k b) → m % 32 = 0 →
      c.page.htbase.toNat + 32 * cc 2 < 2 ^ 57 →
      s.tracked (cc 1) 0 ((c.page.htbase.toNat + 32 * cc 2) / 4096) = none → Answers (exec .htwrite s) (fun t => ok t ∧
        t.mem.read m 32 = bs ∧ m / 16 ∈ t.tags ∧ m / 16 + 1 ∉ t.tags ∧ t.inv)) ∧
    (CmdIs s p 24 [ctxBound, 2048, anyWord] → ctxExists s (cc 1) → c.st = .saved ∨ c.st = .running → 1024 ≤ cc 2 → cc 2 < 2048 →
      (cc 3 % 2 ^ 15 = 0 ∧ cc 3 < 2 ^ 57 → Answers (exec .htwriteBase s) (fun t => ok t ∧ t.mem = s.mem ∧
        (t.ctx (cc 1)).page.htbase = BitVec.ofNat 64 (cc 3))) ∧
      (¬(cc 3 % 2 ^ 15 = 0 ∧ cc 3 < 2 ^ 57) → exec .htwriteBase s = .next (s.mailboxDone p 3)))

/-! The host's accesses and the control page. -/

/-- What the host reads and writes (05 R133, R134; 13 R345, R346, R356, R357; 15 R378, R379): BAR2 is memory under no key; BAR0 holds the
firmware's, the queues' and the mailbox's registers; a doorbell, a rung, GO and CCGO start their steps; a package held in reset
answers nothing. -/
def Obligations.HostAccessesReachTheDevice : Prop :=
  ∀ (s : State) (p a n v : Nat), s.inv → p < 256 →
    let k := s.pkg p
    let local_ : Prop := s.localBacked p a = true ∧ s.localBacked p (a + n - 1) = true
    let at_ := p * 2 ^ 44 + a
    let writes : Prop := s.args = [p, 0, a, n, v] ∧ k.halted = false
    (k.halted = true → (∀ b, s.args = [p, b, a, n, v] → exec .hostPostedWrite s = .next s) ∧
      (∀ b, s.args = [p, b, a, n] → exec .hostRead s = .next { s with reply := [] })) ∧
    -- memory (BAR2)
    (s.args = [p, 2, a, n, v] → k.halted = false → local_ → isHostFrame (at_ / 4096) = false → Answers (exec .hostPostedWrite s) (fun t =>
      t.inv ∧ t.mem.read at_ n = leBytes n v ∧ (s.keyed at_ n 0 = true → s.sameOutside t at_ n) ∧
      ∀ c i r, (t.slotAt c i).rd r = (s.slotAt c i).rd r)) ∧
    (s.args = [p, 2, a, n] → k.halted = false → local_ → isHostFrame (at_ / 4096) = false → s.keyed at_ n 0 = true →
      (linesOf at_ n).any s.poison.contains = false → Answers (exec .hostRead s) (fun t => t.mem = s.mem ∧ t.reply = s.mem.read at_ n)) ∧
    (s.args = [p, 2, a, n] → k.halted = false → ¬local_ → Answers (exec .hostRead s) (fun t => t.mem = s.mem ∧ t.reply = [])) ∧
    -- registers (BAR0)
    (∀ r, s.args = [p, 0, a, 8] → k.halted = false → a % 8 = 0 →
      (r = (if a = 0x0000 then (if k.fw.cfgRef then 1 else 0) + (if k.fw.updFail then 2 else 0) + (if k.fw.rollBk then 4 else 0) +
            k.fw.rung % 16 * 256
          else if a = 0x0008 then k.fw.hbAddr.toNat
          else if a = 0x0020 then (if k.fw.active then 1 else 0) + (if k.fw.staged then 2 else 0)
          else if a = 0x1048 then (if k.mailbox.busy then 1 else 0) + (if k.mailbox.ovr then 2 else 0) + k.mailbox.result % 256 * 256
          else if 0x1000 ≤ a ∧ a < 0x1040 then s.ccArg p ((a - 0x1000) / 8)
          else if a = 0x100008 then (s.hq (p * 4096)).head
          else if a = 0x100010 then (s.hq (p * 4096)).state % 4 + (s.hq (p * 4096)).errcnt % 256 * 2 ^ 8 +
            (s.hq (p * 4096)).disc % 2 ^ 32 * 2 ^ 16
          else 0)) → a ≠ 0x0018 → a ≤ 0x100010 → Answers (exec .hostRead s) (fun t => t.mem = s.mem ∧ t.reply = leBytes 8 r)) ∧
    (∀ q, writes → q < 4096 → a = 0x100000 + 0x1000 * q → n = 4 → v < 2 ^ 32 →
      exec .hostPostedWrite s = .next (s.dueOne .tailWrite [p * 4096 + q, v])) ∧
    (writes → a = 0x0008 → n = 8 → v < 2 ^ 64 → Answers (exec .hostPostedWrite s) (fun t => t.mem = s.mem ∧
      (t.pkg p).fw.hbAddr.toNat = v ∧ (t.pkg p).fw.hbNext = s.clock + 1000 * Config.cyclesPerMicro)) ∧
    (writes → a = 0x0010 → v < 2 ^ 64 → k.fw.rung < v % 8 → v % 8 ≤ 5 → Answers (exec .hostPostedWrite s) (fun t => t.mem = s.mem ∧
      (t.pkg p).fw.rung = v % 8 ∧ (1 < v % 8 → (t.pkg p).fw.update = .none_) ∧
      (⟨([.commandProcessorRestart, .garretReload, .contextPreservingEngineReset, .dieReset, .packageReset] : List Instr).getD (v % 8 - 1)
        .packageReset, [if v % 8 = 4 then 2 * p else p]⟩ : Due) ∈ t.agenda)) ∧
    (writes → a = 0x0010 → v < 2 ^ 64 → (v % 8 ≤ k.fw.rung ∨ 5 < v % 8) → exec .hostPostedWrite s = .next s) ∧
    (writes → a = 0x0028 → v < 2 ^ 64 → v % 2 = 1 → exec .hostPostedWrite s = .next (s.dueOne .liveUpdate [p])) ∧
    (∀ i, writes → i < 8 → a = 0x1000 + 8 * i → n = 8 → v < 2 ^ 64 → Answers (exec .hostPostedWrite s) (fun t => t.mem = s.mem ∧
      t.ccArg p i = (if i = 0 then v % 256 else v) ∧ ∀ j, j < 8 → j ≠ i → t.ccArg p j = s.ccArg p j)) ∧
    (writes → a = 0x1040 → v < 2 ^ 64 → v % 2 = 1 →
      (k.mailbox.busy = true → Answers (exec .hostPostedWrite s) (fun t => t.mem = s.mem ∧ (t.pkg p).mailbox.ovr = true ∧
        t.agenda = s.agenda)) ∧
      (k.mailbox.busy = false → Answers (exec .hostPostedWrite s) (fun t => t.mem = s.mem ∧ (t.pkg p).mailbox.busy = true ∧
        (∀ i, i < 8 → t.cc p i = s.ccArg p i) ∧ t.agenda = s.agenda ++ [⟨t.commandStep p, [p]⟩])))

/-- The control page and attestation (01 R16; 04 R91; 07 R189; 15 R384, R385, R390): a count is answered in PMVAL, a request
while BUSY is ignored, a store changes the fields that its register has, the latch keeps the other half; the answers of SPDM are
measurements. The bodies, measurements and signatures are free (log 30). -/
def Obligations.ControlPageAndAttestation : Prop :=
  ∀ (s : State) (ctx core slot p v : Nat), slot < 4 →
    let g (t : State) : CtrlPage := (t.ctx ctx).page
    let page := g s
    (s.args = [ctx, v] → v < 16 →
      (page.pmbusy.isSome = true → exec .pmreq s = .next s) ∧
      (page.pmbusy = none → v ≤ 7 → Answers (exec .pmreq s) (fun t => t.mem = s.mem ∧ g t = { page with pmbusy := some v, pmerr := false } ∧
        t.agenda = s.agenda ++ [⟨.pmAnswer, [ctx]⟩])) ∧
      (page.pmbusy = none → 7 < v → Answers (exec .pmreq s) (fun t => t.mem = s.mem ∧ g t = { page with pmerr := true }))) ∧
    (∀ e, s.args = [ctx] → page.pmbusy = some e → e < 8 → Answers (exec .pmAnswer s) (fun t => t.mem = s.mem ∧ (g t).pmbusy = none ∧
      (g t).pmval.toNat = ((s.ctx ctx).counts.get (Fin.ofNat 8 e)).toNat / (if e = 5 then 4096 else if e = 6 then 64 else 1))) ∧
    (s.args = [core, slot, v] → Answers (exec .halfReadLatch s) (fun t => t.mem = s.mem ∧
      (t.slotAt core slot).latch.toNat = v % 2 ^ 32 ∧ ∀ c i r, (t.slotAt c i).rd r = (s.slotAt c i).rd r)) ∧
    (∀ off, s.args = [core, slot, off, 8, v] → (s.core core).ctx = ctx → v < 2 ^ 64 → Answers (exec .controlRegisterWrite s) (fun t =>
      t.mem = s.mem ∧
      (off = 0xF00 → (g t).pkdef.toNat = v) ∧
      (off = 0xF08 → (g t).spillK = if 1 ≤ v % 32 ∧ v % 32 ≤ 16 then v % 32 else page.spillK) ∧
      (∀ i : Fin 4, off = 0xF20 + 8 * i.val → ((g t).dpat.get i).toNat = (BitVec.ofNat 64 v &&& 0x00FFFFFFFFFF000F).toNat) ∧
      (off = 0xF40 → (g t).derr.toNat = v % 2 ^ 40) ∧ (off = 0xF50 → (g t).htbase.toNat = v % 2 ^ 57 / 2 ^ 15 * 2 ^ 15) ∧
      (off = 0xF58 → (g t).gvtctl.toNat = if v % 64 = 0 then page.gvtctl.toNat else v % 64) ∧
      (off = 0xF60 → (g t).tlerr.toNat = v % 2 ^ 48) ∧ (off = 0xF70 → (g t).polerr.toNat = v % 2 ^ 32) ∧
      (off ∈ [0xF10, 0xF48, 0xF68, 0xF88, 0xF90, 0xF98] → g t = page))) ∧
    -- attestation
    (∀ rest, s.args = p :: rest →
      ∀ i ∈ ([(.getVersion, 0), (.getCapabilities, 1), (.negotiateAlgorithms, 2), (.getDigests, 3), (.getCertificate, 4)] : List (Instr × Nat)),
        exec i.1 s = .next { s with reply := Config.spdmBody i.2 p }) ∧
    (s.args = [p, v] →
      (1 ≤ v → v ≤ 6 → exec .getMeasurements s = .next { s with reply := (s.pkg p).measurement p v }) ∧
      (v = 0xFF → exec .getMeasurements s = .next { s with reply := [1, 2, 3, 4, 5, 6].flatMap ((s.pkg p).measurement p) }) ∧
      (v = 0 ∨ (6 < v ∧ v ≠ 0xFF) → exec .getMeasurements s = .next { s with reply := [] }) ∧
      (let msg := leBytes 32 v ++ (s.pkg p).measurements p
       exec .challenge s = .next { s with reply := if (s.pkg p).cfg.fused = .returned then [] else msg ++ Config.sign p msg }))

/-! Policy programs. -/

/-- A word of a policy program leaves its run at the next word, one step more used, with one register written at most. -/
def regAfter (s : State) (o : Out) (r : PolRun) (cost : Nat) (d : BitVec 3) (x : Word) : Prop :=
  Answers o (fun t => t.mem = s.mem ∧ t.agenda = s.agenda ∧ ∃ y, t.polRun = some y ∧ y.pc = r.pc + 1 ∧ y.steps = r.steps + cost ∧
    y.result = r.result ∧ y.cand = r.cand ∧ y.rd d = x ∧ ∀ i, i ≠ d → y.rd i = r.rd i)

/-- The words of a policy program (13 R353): arithmetic and comparisons of registers, fields of candidates, the sixteen dwords that the
context keeps, branches forward, and the result. -/
def Obligations.PolicyWordsCompute : Prop :=
  ∀ (s : State) (r : PolRun) (d a b : BitVec 3) (imm : BitVec 17), s.polRun = some r →
    let x := r.rd a
    let y := r.rd b
    let goes (o : Out) (n : Nat) : Prop := Answers o (fun t => t.mem = s.mem ∧
      t.polRun = some { r with pc := r.pc + n, steps := r.steps + 1 })
    let field (c : Nat) : Word := match r.cand[c]? with
      | some v => if imm.toNat % 16 < 8 then v.get (Fin.ofNat 8 (imm.toNat % 16)) else 0
      | none => 0
    let bestOf (o : Out) (better : Nat → Nat → Prop) : Prop :=
      (r.cand = [] → regAfter s o r 1 d (BitVec.allOnes 64)) ∧
      (r.cand ≠ [] → ∃ i, i < r.cand.length ∧ regAfter s o r (1 + r.cand.length) d (BitVec.ofNat 64 i) ∧
        (∀ j, j < i → better (field i).toNat (field j).toNat) ∧ ∀ j, j < r.cand.length → ¬better (field j).toNat (field i).toNat)
    Answers (exec (.policyRet a) s) (fun t => t.mem = s.mem ∧ t.polRun = some { r with result := some x, steps := r.steps + 1 }) ∧
    regAfter s (exec (.policyLi d imm) s) r 1 d (BitVec.ofInt 64 imm.toInt) ∧
    regAfter s (exec (.policyAdd d a b) s) r 1 d (BitVec.ofNat 64 (x.toNat + y.toNat)) ∧
    regAfter s (exec (.policySub d a b) s) r 1 d (BitVec.ofInt 64 (x.toInt - y.toInt)) ∧
    regAfter s (exec (.policyAnd d a b) s) r 1 d (x &&& y) ∧ regAfter s (exec (.policyOr d a b) s) r 1 d (x ||| y) ∧
    regAfter s (exec (.policyShli d a imm) s) r 1 d (BitVec.ofNat 64 (x.toNat * 2 ^ (imm.toNat % 64))) ∧
    regAfter s (exec (.policyShri d a imm) s) r 1 d (BitVec.ofNat 64 (x.toNat / 2 ^ (imm.toNat % 64))) ∧
    regAfter s (exec (.policyMinn d a b) s) r 1 d (BitVec.ofNat 64 (min x.toNat y.toNat)) ∧
    regAfter s (exec (.policyMaxn d a b) s) r 1 d (BitVec.ofNat 64 (max x.toNat y.toNat)) ∧
    regAfter s (exec (.policyLdf d a imm) s) r 1 d (field x.toNat) ∧
    regAfter s (exec (.policyLds d imm) s) r 1 d ((s.ctx r.ctx).pstate.get (Fin.ofNat 16 imm.toNat)) ∧
    Answers (exec (.policySts a imm) s) (fun t => t.mem = s.mem ∧ t.polRun = some { r with pc := r.pc + 1, steps := r.steps + 1 } ∧
      ∀ i : Fin 16, (t.ctx r.ctx).pstate.get i = if i = Fin.ofNat 16 imm.toNat then x else (s.ctx r.ctx).pstate.get i) ∧
    goes (exec (.policyBltn a b imm) s) (if x.toNat < y.toNat then imm.toNat + 1 else 1) ∧
    goes (exec (.policyBeq a b imm) s) (if x = y then imm.toNat + 1 else 1) ∧
    bestOf (exec (.policyArgmax d imm) s) (fun m n => n < m) ∧ bestOf (exec (.policyArgmin d imm) s) (fun m n => m < n)

/-- Policy runs end (13 R352 to R354): every step that a run takes costs at least one, `ret` gives its result, and at 512 steps,
past the program, or with a PICK of no candidate, it ends in a fault: POLERR is one more, and the default policy's result is
taken, the oldest ready GRID entry, priority 0, the slice's own length. Which queues PICK may name is the model's (log 36). -/
def Obligations.PolicyRunsEnd : Prop :=
  ∀ (s : State) (r : PolRun), s.polRun = some r → r.result = none → r.steps < 512 →
    let c := s.ctx r.ctx
    let word := (c.policy[r.pc]?).bind (fun w => decodePolicy w.toNat)
    let faults (t : State) : Prop := t.polRun = none ∧
      (t.ctx r.ctx).page.polerr.toNat = min (c.page.polerr.toNat % 2 ^ 32 + 1) 0xFFFFFFFF ∧
      (r.event = 0 → s.gridReady r.ctx ≠ [] → ∃ q ∈ s.gridReady r.ctx, (⟨.grid, [q]⟩ : Due) ∈ t.agenda ∧
        ∀ y ∈ s.gridReady r.ctx, (s.hq q).since ≤ (s.hq y).since) ∧
      (∀ q l, r.event = 1 → r.queues = q :: l → (t.hq q).prio = 0) ∧
      (r.event = 2 → (t.ctx r.ctx).sliceEnd = some (s.clock + (c.slice * Config.cyclesPerMicro - c.deduct)) ∧ (t.ctx r.ctx).deduct = 0)
    (∃ t, step s = .next t ∧ t.mem = s.mem ∧ t.clock = s.clock + 1 ∧
      (t.polRun = none ∨ ∃ y, t.polRun = some y ∧ r.steps < y.steps ∧ y.steps < 512 ∧ y.result = none ∧ y.ctx = r.ctx ∧ y.event = r.event ∧
        y.cand = r.cand ∧ y.queues = r.queues)) ∧
    (word = none → Answers (step s) faults) ∧
    (r.steps = 511 → (∃ i, word = some i) → Answers (step s) faults) ∧
    (∀ a, word = some (.policyRet a) → r.steps < 511 → r.event = 0 → r.cand.length ≤ (r.rd a).toNat → Answers (step s) faults) ∧
    (∀ a, word = some (.policyRet a) → r.steps < 511 → (r.event = 0 → (r.rd a).toNat < r.cand.length) →
      Answers (step s) (fun t => t.polRun = none ∧ (t.ctx r.ctx).page.polerr = c.page.polerr ∧
        (r.event = 2 → (t.ctx r.ctx).sliceEnd = some (s.clock +
          ((if (r.rd a).toNat = 0 then c.slice else min (r.rd a).toNat c.cap) * Config.cyclesPerMicro - c.deduct)) ∧
          (t.ctx r.ctx).deduct = 0) ∧
        (∀ q l, r.event = 1 → r.queues = q :: l → (t.hq q).prio = (r.rd a).toNat % 256) ∧
        (∀ q, r.event = 0 → r.queues[(r.rd a).toNat]? = some q → q ∈ s.gridReady r.ctx → (⟨.grid, [q]⟩ : Due) ∈ t.agenda)))

/-! Invariants. -/

/-- Memory keeps its canonical form through every step (log 11): addresses strictly rising, and no cell equal to
what an unlisted address reads as, so that equal memories are equal data. -/
def Obligations.StepKeepsMemoryCanonical : Prop := ∀ s t : State, s.inv → step s = .next t → t.inv

/-- The machine after reset (02 R33; 03 R76; 06 R150; 07 R171, R179, R189; 08 R203; 14 R359, R365; 04 R91; 12 R304; 13 R344, R345;
15 R379): memory in its canonical form, and the registers named here at the reset values that the spec gives them. -/
def Obligations.ResetHoldsTheSpecsValues : Prop :=
  State.reset.inv ∧
  (∀ i, let c := State.reset.core i
    c.agectl = 0x0400 ∧ c.lardcfg = 8 ∧ c.statemap = 0 ∧ c.tlcfg = 0 ∧ c.hwLimit = 0x032 ∧ c.srng = 1 ∧ ∀ j, (c.slot j).st = .empty) ∧
  (∀ k, (∀ i, (State.reset.engine k).fmt.get i = 0x0808) ∧ (State.reset.engine k).srng = 1 ∧ (State.reset.engine k).ramp = 1 ∧
    ∀ i, (State.reset.cluster k).counters.get? i = none) ∧
  (∀ p, (∀ k, ((State.reset.pkg p).keys.getD k KeySlot.reset).loaded = false) ∧ (State.reset.pkg p).mailbox.busy = false ∧
    (State.reset.pkg p).fw.cfgRef = true ∧ (State.reset.pkg p).fw.rung = 0 ∧ (State.reset.pkg p).cellar = rootNodes p ∧
    ∀ q, ((State.reset.pkg p).queues.getD q HostQueue.reset).state = 0) ∧
  (∀ c, (State.reset.ctx c).st = .free ∧ (State.reset.ctx c).page.spillK = 4 ∧ (State.reset.ctx c).page.gvtctl = 4 ∧
    (State.reset.ctx c).page.pmbusy = none) ∧
  ∀ k t, State.reset.gvtAt k t = some ⟨0, 0, 0⟩
end

