-- ==== Sys2Proof/Laws/KMap.lean ====
section
/-! SUPPORT. Reading a finite map after a write: the written key gives the value, every other key what it gave before. -/

namespace Sys2Proof.Machine

variable {α : Type}

theorem KMap.look_ins (l : List (Nat × α)) (k j : Nat) (v : α) :
    KMap.look (KMap.ins l k v) j = if j = k then some v else KMap.look l j := by
  induction l with
  | nil => simp [KMap.ins, KMap.look]
  | cons e t ih =>
    obtain ⟨k', v'⟩ := e
    simp only [KMap.ins]
    split
    · simp only [KMap.look]
    · split
      · next h => subst h; by_cases hj : j = k <;> simp [KMap.look, hj]
      · by_cases hj : j = k'
        · subst hj; simp only [KMap.look, if_true]; split <;> simp_all
        · simp only [KMap.look, hj, if_false, ih]

@[simp] theorem KMap.get?_set (m : KMap α) (k j : Nat) (v : α) :
    (m.set k v).get? j = if j = k then some v else m.get? j := KMap.look_ins m.entries k j v

@[simp] theorem KMap.getD_set (m : KMap α) (k j : Nat) (v d : α) :
    (m.set k v).getD j d = if j = k then v else m.getD j d := by
  simp only [KMap.getD, KMap.get?_set]; split <;> rfl

@[simp] theorem KMap.get?_empty (k : Nat) : (KMap.empty : KMap α).get? k = none := rfl

@[simp] theorem KMap.getD_empty (k : Nat) (d : α) : (KMap.empty : KMap α).getD k d = d := rfl

/-- A value changed at every key reads as the change of what stood there. -/
theorem KMap.get?_mapVal {β : Type} (m : KMap α) (f : Nat → α → β) (j : Nat) : (m.mapVal f).get? j = (m.get? j).map (f j) := by
  obtain ⟨l⟩ := m
  simp only [KMap.get?, KMap.mapVal]
  induction l with
  | nil => rfl
  | cons e t ih =>
    obtain ⟨k', v'⟩ := e
    by_cases hj : j = k' <;> simp_all [KMap.look]

end Sys2Proof.Machine
end

