-- ==== Sys2Proof/Laws/Layouts.lean ====
section
/-! SUPPORT. The bit fields of an encoded word, once for each layout that the encoding tables use: where the word is a sum of
its constant and its fields at their places, each slice of it is the constant part or the field written there. -/

namespace Sys2Proof.Laws

theorem bits_eq {w lo n x : Nat} (h : w / 2 ^ lo % 2 ^ n = x) : bitsOf w lo n = x := h

theorem fld_eq {w lo n : Nat} {x : BitVec n} (h : w / 2 ^ lo % 2 ^ n = x.toNat) : fld w lo n = x := by
  apply BitVec.eq_of_toNat_eq; simpa [fld] using h

theorem layout1 {w : Nat} (K g0 g1 : Nat)
    (hw : w = K)
    (hK : K = g0 * 4194304 + g1 * 1) (hg : g0 < 64 ∧ g1 < 4194304) :
    bitsOf w 22 6 = g0 ∧ bitsOf w 0 22 = g1 ∧ w < 2 ^ 28 := by
  exact ⟨bits_eq (by omega), bits_eq (by omega), by omega⟩

theorem layout2 {w : Nat} (K g0 : Nat) (x0 : BitVec 22)
    (hw : w = K + x0.toNat)
    (hK : K = g0 * 4194304) (hg : g0 < 64) :
    bitsOf w 22 6 = g0 ∧ fld w 0 22 = x0 ∧ w < 2 ^ 28 := by
  have l0 := x0.isLt
  exact ⟨bits_eq (by omega), fld_eq (by omega), by omega⟩

theorem layout3 {w : Nat} (K g0 : Nat) (x0 : BitVec 3) (x1 : BitVec 5) (x2 : BitVec 5) (x3 : BitVec 9)
    (hw : w = K + x0.toNat * 524288 + x1.toNat * 16384 + x2.toNat * 512 + x3.toNat)
    (hK : K = g0 * 4194304) (hg : g0 < 64) :
    bitsOf w 22 6 = g0 ∧ bitsOf w 19 3 = x0.toNat ∧ fld w 19 3 = x0 ∧ fld w 14 5 = x1 ∧ fld w 9 5 = x2 ∧ fld w 0 9 = x3 ∧ w < 2 ^ 28 := by
  have l0 := x0.isLt
  have l1 := x1.isLt
  have l2 := x2.isLt
  have l3 := x3.isLt
  exact ⟨bits_eq (by omega), bits_eq (by omega), fld_eq (by omega), fld_eq (by omega), fld_eq (by omega), fld_eq (by omega), by omega⟩

theorem layout4 {w : Nat} (K g0 : Nat) (x0 : BitVec 5) (x1 : BitVec 17)
    (hw : w = K + x0.toNat * 131072 + x1.toNat)
    (hK : K = g0 * 4194304) (hg : g0 < 64) :
    bitsOf w 22 6 = g0 ∧ fld w 17 5 = x0 ∧ fld w 0 17 = x1 ∧ w < 2 ^ 28 := by
  have l0 := x0.isLt
  have l1 := x1.isLt
  exact ⟨bits_eq (by omega), fld_eq (by omega), fld_eq (by omega), by omega⟩

theorem layout5 {w : Nat} (K g0 : Nat) (x0 : BitVec 5) (x1 : BitVec 5) (x2 : BitVec 12)
    (hw : w = K + x0.toNat * 131072 + x1.toNat * 4096 + x2.toNat)
    (hK : K = g0 * 4194304) (hg : g0 < 64) :
    bitsOf w 22 6 = g0 ∧ fld w 17 5 = x0 ∧ fld w 12 5 = x1 ∧ fld w 0 12 = x2 ∧ w < 2 ^ 28 := by
  have l0 := x0.isLt
  have l1 := x1.isLt
  have l2 := x2.isLt
  exact ⟨bits_eq (by omega), fld_eq (by omega), fld_eq (by omega), fld_eq (by omega), by omega⟩

theorem layout6 {w : Nat} (K g0 : Nat) (x0 : BitVec 5) (x1 : BitVec 17)
    (hw : w = K + x0.toNat * 131072 + x1.toNat)
    (hK : K = g0 * 4194304) (hg : g0 < 64) :
    bitsOf w 22 6 = g0 ∧ bitsOf w 17 5 = x0.toNat ∧ fld w 17 5 = x0 ∧ fld w 0 17 = x1 ∧ w < 2 ^ 28 := by
  have l0 := x0.isLt
  have l1 := x1.isLt
  exact ⟨bits_eq (by omega), bits_eq (by omega), fld_eq (by omega), fld_eq (by omega), by omega⟩

theorem layout7 {w : Nat} (K g0 g1 : Nat) (x0 : BitVec 5) (x1 : BitVec 16)
    (hw : w = K + x0.toNat * 131072 + x1.toNat)
    (hK : K = g0 * 4194304 + g1 * 65536) (hg : g0 < 64 ∧ g1 < 2) :
    bitsOf w 22 6 = g0 ∧ bitsOf w 16 1 = g1 ∧ fld w 17 5 = x0 ∧ fld w 0 16 = x1 ∧ w < 2 ^ 28 := by
  have l0 := x0.isLt
  have l1 := x1.isLt
  exact ⟨bits_eq (by omega), bits_eq (by omega), fld_eq (by omega), fld_eq (by omega), by omega⟩

theorem layout8 {w : Nat} (K g0 g1 g2 : Nat) (x0 : BitVec 5)
    (hw : w = K + x0.toNat * 131072)
    (hK : K = g0 * 4194304 + g1 * 65536 + g2 * 1) (hg : g0 < 64 ∧ g1 < 2 ∧ g2 < 65536) :
    bitsOf w 22 6 = g0 ∧ bitsOf w 16 1 = g1 ∧ bitsOf w 0 16 = g2 ∧ fld w 17 5 = x0 ∧ w < 2 ^ 28 := by
  have l0 := x0.isLt
  exact ⟨bits_eq (by omega), bits_eq (by omega), bits_eq (by omega), fld_eq (by omega), by omega⟩

theorem layout9 {w : Nat} (K g0 : Nat) (x0 : BitVec 5) (x1 : BitVec 4) (x2 : BitVec 5) (x3 : BitVec 2) (x4 : BitVec 6)
    (hw : w = K + x0.toNat * 131072 + x1.toNat * 8192 + x2.toNat * 256 + x3.toNat * 64 + x4.toNat)
    (hK : K = g0 * 4194304) (hg : g0 < 64) :
    bitsOf w 22 6 = g0 ∧ fld w 17 5 = x0 ∧ fld w 13 4 = x1 ∧ fld w 8 5 = x2 ∧ fld w 6 2 = x3 ∧ fld w 0 6 = x4 ∧ w < 2 ^ 28 := by
  have l0 := x0.isLt
  have l1 := x1.isLt
  have l2 := x2.isLt
  have l3 := x3.isLt
  have l4 := x4.isLt
  exact ⟨bits_eq (by omega), fld_eq (by omega), fld_eq (by omega), fld_eq (by omega), fld_eq (by omega), fld_eq (by omega), by omega⟩

theorem layout10 {w : Nat} (K g0 : Nat) (x0 : BitVec 5) (x1 : BitVec 4) (x2 : BitVec 3) (x3 : BitVec 5) (x4 : BitVec 5)
    (hw : w = K + x0.toNat * 131072 + x1.toNat * 8192 + x2.toNat * 1024 + x3.toNat * 32 + x4.toNat)
    (hK : K = g0 * 4194304) (hg : g0 < 64) :
    bitsOf w 22 6 = g0 ∧ fld w 17 5 = x0 ∧ fld w 13 4 = x1 ∧ fld w 10 3 = x2 ∧ fld w 5 5 = x3 ∧ fld w 0 5 = x4 ∧ w < 2 ^ 28 := by
  have l0 := x0.isLt
  have l1 := x1.isLt
  have l2 := x2.isLt
  have l3 := x3.isLt
  have l4 := x4.isLt
  exact ⟨bits_eq (by omega), fld_eq (by omega), fld_eq (by omega), fld_eq (by omega), fld_eq (by omega), fld_eq (by omega), by omega⟩

theorem layout11 {w : Nat} (K g0 g1 : Nat) (x0 : BitVec 5) (x1 : BitVec 4) (x2 : BitVec 5) (x3 : BitVec 3) (x4 : BitVec 2)
    (hw : w = K + x0.toNat * 131072 + x1.toNat * 8192 + x2.toNat * 256 + x3.toNat * 32 + x4.toNat * 8)
    (hK : K = g0 * 4194304 + g1 * 1) (hg : g0 < 64 ∧ g1 < 8) :
    bitsOf w 22 6 = g0 ∧ bitsOf w 0 3 = g1 ∧ fld w 17 5 = x0 ∧ fld w 13 4 = x1 ∧ fld w 8 5 = x2 ∧ fld w 5 3 = x3 ∧ fld w 3 2 = x4 ∧ w < 2 ^ 28 := by
  have l0 := x0.isLt
  have l1 := x1.isLt
  have l2 := x2.isLt
  have l3 := x3.isLt
  have l4 := x4.isLt
  exact ⟨bits_eq (by omega), bits_eq (by omega), fld_eq (by omega), fld_eq (by omega), fld_eq (by omega), fld_eq (by omega), fld_eq (by omega), by omega⟩

theorem layout12 {w : Nat} (K g0 g1 g2 g3 : Nat) (x0 : BitVec 4) (x1 : BitVec 4) (x2 : BitVec 5)
    (hw : w = K + x0.toNat * 131072 + x1.toNat * 8192 + x2.toNat * 256)
    (hK : K = g0 * 4194304 + g1 * 1 + g2 * 8 + g3 * 2097152) (hg : g0 < 64 ∧ g1 < 8 ∧ g2 < 32 ∧ g3 < 2) :
    bitsOf w 22 6 = g0 ∧ bitsOf w 0 3 = g1 ∧ bitsOf w 3 5 = g2 ∧ bitsOf w 21 1 = g3 ∧ fld w 17 4 = x0 ∧ fld w 13 4 = x1 ∧ fld w 8 5 = x2 ∧ w < 2 ^ 28 := by
  have l0 := x0.isLt
  have l1 := x1.isLt
  have l2 := x2.isLt
  exact ⟨bits_eq (by omega), bits_eq (by omega), bits_eq (by omega), bits_eq (by omega), fld_eq (by omega), fld_eq (by omega), fld_eq (by omega), by omega⟩

theorem layout13 {w : Nat} (K g0 g1 g2 : Nat) (x0 : BitVec 5) (x1 : BitVec 4) (x2 : BitVec 5) (x3 : BitVec 2)
    (hw : w = K + x0.toNat * 131072 + x1.toNat * 8192 + x2.toNat * 256 + x3.toNat * 8)
    (hK : K = g0 * 4194304 + g1 * 1 + g2 * 32) (hg : g0 < 64 ∧ g1 < 8 ∧ g2 < 8) :
    bitsOf w 22 6 = g0 ∧ bitsOf w 0 3 = g1 ∧ bitsOf w 5 3 = g2 ∧ fld w 17 5 = x0 ∧ fld w 13 4 = x1 ∧ fld w 8 5 = x2 ∧ fld w 3 2 = x3 ∧ w < 2 ^ 28 := by
  have l0 := x0.isLt
  have l1 := x1.isLt
  have l2 := x2.isLt
  have l3 := x3.isLt
  exact ⟨bits_eq (by omega), bits_eq (by omega), bits_eq (by omega), fld_eq (by omega), fld_eq (by omega), fld_eq (by omega), fld_eq (by omega), by omega⟩

theorem layout14 {w : Nat} (K g0 g2 : Nat) (x0 : BitVec 5) (x1 : BitVec 4) (x2 : BitVec 5) (x3 : BitVec 4) (x4 : BitVec 1) (x5 : BitVec 2)
    (hw : w = K + x0.toNat * 131072 + x1.toNat * 8192 + x2.toNat * 256 + x3.toNat * 16 + x4.toNat * 8 + x5.toNat * 2)
    (hK : K = g0 * 4194304 + g2 * 1) (hg : g0 < 64 ∧ g2 < 2) :
    bitsOf w 22 6 = g0 ∧ bitsOf w 4 4 = x3.toNat ∧ bitsOf w 0 1 = g2 ∧ fld w 17 5 = x0 ∧ fld w 13 4 = x1 ∧ fld w 8 5 = x2 ∧ fld w 4 4 = x3 ∧ fld w 3 1 = x4 ∧ fld w 1 2 = x5 ∧ w < 2 ^ 28 := by
  have l0 := x0.isLt
  have l1 := x1.isLt
  have l2 := x2.isLt
  have l3 := x3.isLt
  have l4 := x4.isLt
  have l5 := x5.isLt
  exact ⟨bits_eq (by omega), bits_eq (by omega), bits_eq (by omega), fld_eq (by omega), fld_eq (by omega), fld_eq (by omega), fld_eq (by omega), fld_eq (by omega), fld_eq (by omega), by omega⟩

theorem layout15 {w : Nat} (K g0 g1 g2 : Nat) (x0 : BitVec 4) (x1 : BitVec 4)
    (hw : w = K + x0.toNat * 262144 + x1.toNat * 16384)
    (hK : K = g0 * 4194304 + g1 * 1 + g2 * 4) (hg : g0 < 64 ∧ g1 < 4 ∧ g2 < 4096) :
    bitsOf w 22 6 = g0 ∧ bitsOf w 0 2 = g1 ∧ bitsOf w 2 12 = g2 ∧ fld w 18 4 = x0 ∧ fld w 14 4 = x1 ∧ w < 2 ^ 28 := by
  have l0 := x0.isLt
  have l1 := x1.isLt
  exact ⟨bits_eq (by omega), bits_eq (by omega), bits_eq (by omega), fld_eq (by omega), fld_eq (by omega), by omega⟩

theorem layout16 {w : Nat} (K g0 g1 : Nat) (x0 : BitVec 4) (x1 : BitVec 4) (x2 : BitVec 5) (x3 : BitVec 7)
    (hw : w = K + x0.toNat * 262144 + x1.toNat * 16384 + x2.toNat * 512 + x3.toNat * 4)
    (hK : K = g0 * 4194304 + g1 * 1) (hg : g0 < 64 ∧ g1 < 4) :
    bitsOf w 22 6 = g0 ∧ bitsOf w 0 2 = g1 ∧ fld w 18 4 = x0 ∧ fld w 14 4 = x1 ∧ fld w 9 5 = x2 ∧ fld w 2 7 = x3 ∧ w < 2 ^ 28 := by
  have l0 := x0.isLt
  have l1 := x1.isLt
  have l2 := x2.isLt
  have l3 := x3.isLt
  exact ⟨bits_eq (by omega), bits_eq (by omega), fld_eq (by omega), fld_eq (by omega), fld_eq (by omega), fld_eq (by omega), by omega⟩

theorem layout17 {w : Nat} (K g0 g1 g2 : Nat) (x0 : BitVec 4) (x1 : BitVec 4) (x2 : BitVec 7)
    (hw : w = K + x0.toNat * 262144 + x1.toNat * 16384 + x2.toNat * 4)
    (hK : K = g0 * 4194304 + g1 * 1 + g2 * 512) (hg : g0 < 64 ∧ g1 < 4 ∧ g2 < 32) :
    bitsOf w 22 6 = g0 ∧ bitsOf w 0 2 = g1 ∧ bitsOf w 9 5 = g2 ∧ fld w 18 4 = x0 ∧ fld w 14 4 = x1 ∧ fld w 2 7 = x2 ∧ w < 2 ^ 28 := by
  have l0 := x0.isLt
  have l1 := x1.isLt
  have l2 := x2.isLt
  exact ⟨bits_eq (by omega), bits_eq (by omega), bits_eq (by omega), fld_eq (by omega), fld_eq (by omega), fld_eq (by omega), by omega⟩

theorem layout18 {w : Nat} (K g0 g1 g2 g3 : Nat) (x0 : BitVec 4) (x1 : BitVec 4) (x2 : BitVec 3)
    (hw : w = K + x0.toNat * 131072 + x1.toNat * 8192 + x2.toNat * 1024)
    (hK : K = g0 * 4194304 + g1 * 1 + g2 * 4 + g3 * 2097152) (hg : g0 < 64 ∧ g1 < 4 ∧ g2 < 256 ∧ g3 < 2) :
    bitsOf w 22 6 = g0 ∧ bitsOf w 0 2 = g1 ∧ bitsOf w 2 8 = g2 ∧ bitsOf w 21 1 = g3 ∧ fld w 17 4 = x0 ∧ fld w 13 4 = x1 ∧ fld w 10 3 = x2 ∧ w < 2 ^ 28 := by
  have l0 := x0.isLt
  have l1 := x1.isLt
  have l2 := x2.isLt
  exact ⟨bits_eq (by omega), bits_eq (by omega), bits_eq (by omega), bits_eq (by omega), fld_eq (by omega), fld_eq (by omega), fld_eq (by omega), by omega⟩

theorem layout19 {w : Nat} (K g0 g1 g2 g3 : Nat) (x0 : BitVec 5) (x1 : BitVec 4) (x2 : BitVec 4)
    (hw : w = K + x0.toNat * 131072 + x1.toNat * 8192 + x2.toNat * 64)
    (hK : K = g0 * 4194304 + g1 * 1 + g2 * 4 + g3 * 1024) (hg : g0 < 64 ∧ g1 < 4 ∧ g2 < 16 ∧ g3 < 8) :
    bitsOf w 22 6 = g0 ∧ bitsOf w 0 2 = g1 ∧ bitsOf w 2 4 = g2 ∧ bitsOf w 10 3 = g3 ∧ fld w 17 5 = x0 ∧ fld w 13 4 = x1 ∧ fld w 6 4 = x2 ∧ w < 2 ^ 28 := by
  have l0 := x0.isLt
  have l1 := x1.isLt
  have l2 := x2.isLt
  exact ⟨bits_eq (by omega), bits_eq (by omega), bits_eq (by omega), bits_eq (by omega), fld_eq (by omega), fld_eq (by omega), fld_eq (by omega), by omega⟩

theorem layout20 {w : Nat} (K g0 g1 g2 g3 : Nat) (x0 : BitVec 4) (x1 : BitVec 4)
    (hw : w = K + x0.toNat * 131072 + x1.toNat * 8192)
    (hK : K = g0 * 4194304 + g1 * 1 + g2 * 4 + g3 * 2097152) (hg : g0 < 64 ∧ g1 < 4 ∧ g2 < 2048 ∧ g3 < 2) :
    bitsOf w 22 6 = g0 ∧ bitsOf w 0 2 = g1 ∧ bitsOf w 2 11 = g2 ∧ bitsOf w 21 1 = g3 ∧ fld w 17 4 = x0 ∧ fld w 13 4 = x1 ∧ w < 2 ^ 28 := by
  have l0 := x0.isLt
  have l1 := x1.isLt
  exact ⟨bits_eq (by omega), bits_eq (by omega), bits_eq (by omega), bits_eq (by omega), fld_eq (by omega), fld_eq (by omega), by omega⟩

theorem layout21 {w : Nat} (K g0 g1 : Nat) (x0 : BitVec 5) (x1 : BitVec 4) (x2 : BitVec 5) (x3 : BitVec 5) (x4 : BitVec 1)
    (hw : w = K + x0.toNat * 131072 + x1.toNat * 8192 + x2.toNat * 256 + x3.toNat * 8 + x4.toNat * 4)
    (hK : K = g0 * 4194304 + g1 * 1) (hg : g0 < 64 ∧ g1 < 4) :
    bitsOf w 22 6 = g0 ∧ bitsOf w 0 2 = g1 ∧ fld w 17 5 = x0 ∧ fld w 13 4 = x1 ∧ fld w 8 5 = x2 ∧ fld w 3 5 = x3 ∧ fld w 2 1 = x4 ∧ w < 2 ^ 28 := by
  have l0 := x0.isLt
  have l1 := x1.isLt
  have l2 := x2.isLt
  have l3 := x3.isLt
  have l4 := x4.isLt
  exact ⟨bits_eq (by omega), bits_eq (by omega), fld_eq (by omega), fld_eq (by omega), fld_eq (by omega), fld_eq (by omega), fld_eq (by omega), by omega⟩

theorem layout22 {w : Nat} (K g0 g1 g2 : Nat) (x0 : BitVec 5) (x1 : BitVec 4) (x2 : BitVec 5) (x3 : BitVec 1)
    (hw : w = K + x0.toNat * 131072 + x1.toNat * 8192 + x2.toNat * 8 + x3.toNat * 4)
    (hK : K = g0 * 4194304 + g1 * 1 + g2 * 256) (hg : g0 < 64 ∧ g1 < 4 ∧ g2 < 32) :
    bitsOf w 22 6 = g0 ∧ bitsOf w 0 2 = g1 ∧ bitsOf w 8 5 = g2 ∧ fld w 17 5 = x0 ∧ fld w 13 4 = x1 ∧ fld w 3 5 = x2 ∧ fld w 2 1 = x3 ∧ w < 2 ^ 28 := by
  have l0 := x0.isLt
  have l1 := x1.isLt
  have l2 := x2.isLt
  have l3 := x3.isLt
  exact ⟨bits_eq (by omega), bits_eq (by omega), bits_eq (by omega), fld_eq (by omega), fld_eq (by omega), fld_eq (by omega), fld_eq (by omega), by omega⟩

theorem layout23 {w : Nat} (K g0 g1 g2 : Nat) (x0 : BitVec 5) (x1 : BitVec 4) (x2 : BitVec 5) (x3 : BitVec 5)
    (hw : w = K + x0.toNat * 131072 + x1.toNat * 8192 + x2.toNat * 256 + x3.toNat * 8)
    (hK : K = g0 * 4194304 + g1 * 1 + g2 * 4) (hg : g0 < 64 ∧ g1 < 4 ∧ g2 < 2) :
    bitsOf w 22 6 = g0 ∧ bitsOf w 0 2 = g1 ∧ bitsOf w 2 1 = g2 ∧ fld w 17 5 = x0 ∧ fld w 13 4 = x1 ∧ fld w 8 5 = x2 ∧ fld w 3 5 = x3 ∧ w < 2 ^ 28 := by
  have l0 := x0.isLt
  have l1 := x1.isLt
  have l2 := x2.isLt
  have l3 := x3.isLt
  exact ⟨bits_eq (by omega), bits_eq (by omega), bits_eq (by omega), fld_eq (by omega), fld_eq (by omega), fld_eq (by omega), fld_eq (by omega), by omega⟩

theorem layout24 {w : Nat} (K g0 g1 g2 g3 g4 : Nat) (x0 : BitVec 5)
    (hw : w = K + x0.toNat * 256)
    (hK : K = g0 * 4194304 + g1 * 1 + g2 * 8192 + g3 * 131072 + g4 * 4) (hg : g0 < 64 ∧ g1 < 4 ∧ g2 < 16 ∧ g3 < 32 ∧ g4 < 64) :
    bitsOf w 22 6 = g0 ∧ bitsOf w 0 2 = g1 ∧ bitsOf w 13 4 = g2 ∧ bitsOf w 17 5 = g3 ∧ bitsOf w 2 6 = g4 ∧ fld w 8 5 = x0 ∧ w < 2 ^ 28 := by
  have l0 := x0.isLt
  exact ⟨bits_eq (by omega), bits_eq (by omega), bits_eq (by omega), bits_eq (by omega), bits_eq (by omega), fld_eq (by omega), by omega⟩

theorem layout25 {w : Nat} (K g0 g1 g2 g3 : Nat) (x0 : BitVec 5) (x1 : BitVec 5)
    (hw : w = K + x0.toNat * 131072 + x1.toNat * 256)
    (hK : K = g0 * 4194304 + g1 * 1 + g2 * 8192 + g3 * 4) (hg : g0 < 64 ∧ g1 < 4 ∧ g2 < 16 ∧ g3 < 64) :
    bitsOf w 22 6 = g0 ∧ bitsOf w 0 2 = g1 ∧ bitsOf w 13 4 = g2 ∧ bitsOf w 2 6 = g3 ∧ fld w 17 5 = x0 ∧ fld w 8 5 = x1 ∧ w < 2 ^ 28 := by
  have l0 := x0.isLt
  have l1 := x1.isLt
  exact ⟨bits_eq (by omega), bits_eq (by omega), bits_eq (by omega), bits_eq (by omega), fld_eq (by omega), fld_eq (by omega), by omega⟩

theorem layout26 {w : Nat} (K g0 g1 : Nat) (x0 : BitVec 5) (x1 : BitVec 5) (x2 : BitVec 2)
    (hw : w = K + x0.toNat * 131072 + x1.toNat * 4096 + x2.toNat * 1024)
    (hK : K = g0 * 4194304 + g1 * 1) (hg : g0 < 64 ∧ g1 < 1024) :
    bitsOf w 22 6 = g0 ∧ bitsOf w 0 10 = g1 ∧ fld w 17 5 = x0 ∧ fld w 12 5 = x1 ∧ fld w 10 2 = x2 ∧ w < 2 ^ 28 := by
  have l0 := x0.isLt
  have l1 := x1.isLt
  have l2 := x2.isLt
  exact ⟨bits_eq (by omega), bits_eq (by omega), fld_eq (by omega), fld_eq (by omega), fld_eq (by omega), by omega⟩

theorem layout27 {w : Nat} (K g0 g1 : Nat) (x0 : BitVec 5) (x1 : BitVec 5) (x2 : BitVec 2) (x3 : BitVec 5)
    (hw : w = K + x0.toNat * 131072 + x1.toNat * 4096 + x2.toNat * 1024 + x3.toNat * 32)
    (hK : K = g0 * 4194304 + g1 * 1) (hg : g0 < 64 ∧ g1 < 32) :
    bitsOf w 22 6 = g0 ∧ bitsOf w 0 5 = g1 ∧ fld w 17 5 = x0 ∧ fld w 12 5 = x1 ∧ fld w 10 2 = x2 ∧ fld w 5 5 = x3 ∧ w < 2 ^ 28 := by
  have l0 := x0.isLt
  have l1 := x1.isLt
  have l2 := x2.isLt
  have l3 := x3.isLt
  exact ⟨bits_eq (by omega), bits_eq (by omega), fld_eq (by omega), fld_eq (by omega), fld_eq (by omega), fld_eq (by omega), by omega⟩

theorem layout28 {w : Nat} (K g0 g1 : Nat) (x0 : BitVec 5) (x1 : BitVec 5) (x2 : BitVec 5)
    (hw : w = K + x0.toNat * 131072 + x1.toNat * 4096 + x2.toNat * 128)
    (hK : K = g0 * 4194304 + g1 * 1) (hg : g0 < 64 ∧ g1 < 128) :
    bitsOf w 22 6 = g0 ∧ bitsOf w 0 7 = g1 ∧ fld w 17 5 = x0 ∧ fld w 12 5 = x1 ∧ fld w 7 5 = x2 ∧ w < 2 ^ 28 := by
  have l0 := x0.isLt
  have l1 := x1.isLt
  have l2 := x2.isLt
  exact ⟨bits_eq (by omega), bits_eq (by omega), fld_eq (by omega), fld_eq (by omega), fld_eq (by omega), by omega⟩

theorem layout29 {w : Nat} (K g0 g1 g2 : Nat)
    (hw : w = K)
    (hK : K = g0 * 4194304 + g1 * 1 + g2 * 8) (hg : g0 < 64 ∧ g1 < 8 ∧ g2 < 524288) :
    bitsOf w 22 6 = g0 ∧ bitsOf w 0 3 = g1 ∧ bitsOf w 3 19 = g2 ∧ w < 2 ^ 28 := by
  exact ⟨bits_eq (by omega), bits_eq (by omega), bits_eq (by omega), by omega⟩

theorem layout30 {w : Nat} (K g0 g1 g2 : Nat) (x0 : BitVec 5)
    (hw : w = K + x0.toNat * 131072)
    (hK : K = g0 * 4194304 + g1 * 1 + g2 * 8) (hg : g0 < 64 ∧ g1 < 8 ∧ g2 < 16384) :
    bitsOf w 22 6 = g0 ∧ bitsOf w 0 3 = g1 ∧ bitsOf w 3 14 = g2 ∧ fld w 17 5 = x0 ∧ w < 2 ^ 28 := by
  have l0 := x0.isLt
  exact ⟨bits_eq (by omega), bits_eq (by omega), bits_eq (by omega), fld_eq (by omega), by omega⟩

theorem layout31 {w : Nat} (K g0 g1 g2 : Nat) (x0 : BitVec 1)
    (hw : w = K + x0.toNat * 8)
    (hK : K = g0 * 4194304 + g1 * 1 + g2 * 16) (hg : g0 < 64 ∧ g1 < 8 ∧ g2 < 262144) :
    bitsOf w 22 6 = g0 ∧ bitsOf w 0 3 = g1 ∧ bitsOf w 4 18 = g2 ∧ fld w 3 1 = x0 ∧ w < 2 ^ 28 := by
  have l0 := x0.isLt
  exact ⟨bits_eq (by omega), bits_eq (by omega), bits_eq (by omega), fld_eq (by omega), by omega⟩

theorem layout32 {w : Nat} (K g0 g1 g2 : Nat) (x0 : BitVec 5) (x1 : BitVec 5)
    (hw : w = K + x0.toNat * 131072 + x1.toNat * 4096)
    (hK : K = g0 * 4194304 + g1 * 1 + g2 * 4) (hg : g0 < 64 ∧ g1 < 4 ∧ g2 < 1024) :
    bitsOf w 22 6 = g0 ∧ bitsOf w 0 2 = g1 ∧ bitsOf w 2 10 = g2 ∧ fld w 17 5 = x0 ∧ fld w 12 5 = x1 ∧ w < 2 ^ 28 := by
  have l0 := x0.isLt
  have l1 := x1.isLt
  exact ⟨bits_eq (by omega), bits_eq (by omega), bits_eq (by omega), fld_eq (by omega), fld_eq (by omega), by omega⟩

theorem layout33 {w : Nat} (K g0 g1 : Nat) (x0 : BitVec 5) (x1 : BitVec 4)
    (hw : w = K + x0.toNat * 131072 + x1.toNat * 8192)
    (hK : K = g0 * 4194304 + g1 * 1) (hg : g0 < 64 ∧ g1 < 8192) :
    bitsOf w 22 6 = g0 ∧ bitsOf w 0 13 = g1 ∧ fld w 17 5 = x0 ∧ fld w 13 4 = x1 ∧ w < 2 ^ 28 := by
  have l0 := x0.isLt
  have l1 := x1.isLt
  exact ⟨bits_eq (by omega), bits_eq (by omega), fld_eq (by omega), fld_eq (by omega), by omega⟩

theorem layout34 {w : Nat} (K g0 g1 g2 : Nat) (x0 : BitVec 5)
    (hw : w = K + x0.toNat * 131072)
    (hK : K = g0 * 4194304 + g1 * 1 + g2 * 4) (hg : g0 < 64 ∧ g1 < 4 ∧ g2 < 32768) :
    bitsOf w 22 6 = g0 ∧ bitsOf w 0 2 = g1 ∧ bitsOf w 2 15 = g2 ∧ fld w 17 5 = x0 ∧ w < 2 ^ 28 := by
  have l0 := x0.isLt
  exact ⟨bits_eq (by omega), bits_eq (by omega), bits_eq (by omega), fld_eq (by omega), by omega⟩

theorem layout35 {w : Nat} (K g0 g1 : Nat) (x0 : BitVec 5) (x1 : BitVec 2)
    (hw : w = K + x0.toNat * 131072 + x1.toNat * 32768)
    (hK : K = g0 * 4194304 + g1 * 1) (hg : g0 < 64 ∧ g1 < 32768) :
    bitsOf w 22 6 = g0 ∧ bitsOf w 0 15 = g1 ∧ fld w 17 5 = x0 ∧ fld w 15 2 = x1 ∧ w < 2 ^ 28 := by
  have l0 := x0.isLt
  have l1 := x1.isLt
  exact ⟨bits_eq (by omega), bits_eq (by omega), fld_eq (by omega), fld_eq (by omega), by omega⟩

theorem layout36 {w : Nat} (K g0 g1 : Nat) (x0 : BitVec 2)
    (hw : w = K + x0.toNat * 1048576)
    (hK : K = g0 * 4194304 + g1 * 1) (hg : g0 < 64 ∧ g1 < 1048576) :
    bitsOf w 22 6 = g0 ∧ bitsOf w 0 20 = g1 ∧ fld w 20 2 = x0 ∧ w < 2 ^ 28 := by
  have l0 := x0.isLt
  exact ⟨bits_eq (by omega), bits_eq (by omega), fld_eq (by omega), by omega⟩

theorem layout37 {w : Nat} (K g0 g1 g2 : Nat)
    (hw : w = K)
    (hK : K = g0 * 4194304 + g1 * 1 + g2 * 4) (hg : g0 < 64 ∧ g1 < 4 ∧ g2 < 1048576) :
    bitsOf w 22 6 = g0 ∧ bitsOf w 0 2 = g1 ∧ bitsOf w 2 20 = g2 ∧ w < 2 ^ 28 := by
  exact ⟨bits_eq (by omega), bits_eq (by omega), bits_eq (by omega), by omega⟩

theorem layout38 {w : Nat} (K g0 g1 g2 : Nat) (x0 : BitVec 5) (x1 : BitVec 3)
    (hw : w = K + x0.toNat * 131072 + x1.toNat * 4)
    (hK : K = g0 * 4194304 + g1 * 1 + g2 * 32) (hg : g0 < 64 ∧ g1 < 4 ∧ g2 < 4096) :
    bitsOf w 22 6 = g0 ∧ bitsOf w 0 2 = g1 ∧ bitsOf w 5 12 = g2 ∧ fld w 17 5 = x0 ∧ fld w 2 3 = x1 ∧ w < 2 ^ 28 := by
  have l0 := x0.isLt
  have l1 := x1.isLt
  exact ⟨bits_eq (by omega), bits_eq (by omega), bits_eq (by omega), fld_eq (by omega), fld_eq (by omega), by omega⟩

theorem layout39 {w : Nat} (K g0 g1 : Nat) (x0 : BitVec 5)
    (hw : w = K + x0.toNat * 131072)
    (hK : K = g0 * 4194304 + g1 * 1) (hg : g0 < 64 ∧ g1 < 131072) :
    bitsOf w 22 6 = g0 ∧ bitsOf w 0 17 = g1 ∧ fld w 17 5 = x0 ∧ w < 2 ^ 28 := by
  have l0 := x0.isLt
  exact ⟨bits_eq (by omega), bits_eq (by omega), fld_eq (by omega), by omega⟩

theorem layout40 {w : Nat} (K g0 g1 g2 : Nat) (x0 : BitVec 12)
    (hw : w = K + x0.toNat * 1024)
    (hK : K = g0 * 4194304 + g1 * 1 + g2 * 8) (hg : g0 < 64 ∧ g1 < 8 ∧ g2 < 128) :
    bitsOf w 22 6 = g0 ∧ bitsOf w 0 3 = g1 ∧ bitsOf w 3 7 = g2 ∧ fld w 10 12 = x0 ∧ w < 2 ^ 28 := by
  have l0 := x0.isLt
  exact ⟨bits_eq (by omega), bits_eq (by omega), bits_eq (by omega), fld_eq (by omega), by omega⟩

theorem layout41 {w : Nat} (K g0 g1 g2 : Nat) (x0 : BitVec 2) (x1 : BitVec 3)
    (hw : w = K + x0.toNat * 64 + x1.toNat * 8)
    (hK : K = g0 * 4194304 + g1 * 1 + g2 * 256) (hg : g0 < 64 ∧ g1 < 8 ∧ g2 < 16384) :
    bitsOf w 22 6 = g0 ∧ bitsOf w 0 3 = g1 ∧ bitsOf w 8 14 = g2 ∧ fld w 6 2 = x0 ∧ fld w 3 3 = x1 ∧ w < 2 ^ 28 := by
  have l0 := x0.isLt
  have l1 := x1.isLt
  exact ⟨bits_eq (by omega), bits_eq (by omega), bits_eq (by omega), fld_eq (by omega), fld_eq (by omega), by omega⟩

theorem layout42 {w : Nat} (K g0 g1 g2 : Nat) (x0 : BitVec 5) (x1 : BitVec 10)
    (hw : w = K + x0.toNat * 131072 + x1.toNat * 4)
    (hK : K = g0 * 4194304 + g1 * 1 + g2 * 4096) (hg : g0 < 64 ∧ g1 < 4 ∧ g2 < 32) :
    bitsOf w 22 6 = g0 ∧ bitsOf w 0 2 = g1 ∧ bitsOf w 12 5 = g2 ∧ fld w 17 5 = x0 ∧ fld w 2 10 = x1 ∧ w < 2 ^ 28 := by
  have l0 := x0.isLt
  have l1 := x1.isLt
  exact ⟨bits_eq (by omega), bits_eq (by omega), bits_eq (by omega), fld_eq (by omega), fld_eq (by omega), by omega⟩

theorem layout43 {w : Nat} (K g0 g1 : Nat) (x0 : BitVec 5) (x1 : BitVec 5) (x2 : BitVec 10)
    (hw : w = K + x0.toNat * 131072 + x1.toNat * 4096 + x2.toNat * 4)
    (hK : K = g0 * 4194304 + g1 * 1) (hg : g0 < 64 ∧ g1 < 4) :
    bitsOf w 22 6 = g0 ∧ bitsOf w 0 2 = g1 ∧ fld w 17 5 = x0 ∧ fld w 12 5 = x1 ∧ fld w 2 10 = x2 ∧ w < 2 ^ 28 := by
  have l0 := x0.isLt
  have l1 := x1.isLt
  have l2 := x2.isLt
  exact ⟨bits_eq (by omega), bits_eq (by omega), fld_eq (by omega), fld_eq (by omega), fld_eq (by omega), by omega⟩

theorem layout44 {w : Nat} (K g0 g1 : Nat)
    (hw : w = K)
    (hK : K = g0 * 67108864 + g1 * 1) (hg : g0 < 64 ∧ g1 < 67108864) :
    bitsOf w 26 6 = g0 ∧ bitsOf w 0 26 = g1 ∧ w < 2 ^ 32 := by
  exact ⟨bits_eq (by omega), bits_eq (by omega), by omega⟩

theorem layout45 {w : Nat} (K g0 g1 g2 : Nat) (x0 : BitVec 5) (x1 : BitVec 5) (x2 : BitVec 5)
    (hw : w = K + x0.toNat * 2097152 + x1.toNat * 65536 + x2.toNat * 2048)
    (hK : K = g0 * 67108864 + g1 * 1 + g2 * 32) (hg : g0 < 64 ∧ g1 < 32 ∧ g2 < 64) :
    bitsOf w 26 6 = g0 ∧ bitsOf w 0 5 = g1 ∧ bitsOf w 5 6 = g2 ∧ fld w 21 5 = x0 ∧ fld w 16 5 = x1 ∧ fld w 11 5 = x2 ∧ w < 2 ^ 32 := by
  have l0 := x0.isLt
  have l1 := x1.isLt
  have l2 := x2.isLt
  exact ⟨bits_eq (by omega), bits_eq (by omega), bits_eq (by omega), fld_eq (by omega), fld_eq (by omega), fld_eq (by omega), by omega⟩

theorem layout46 {w : Nat} (K g0 g1 g2 : Nat) (x0 : BitVec 5) (x1 : BitVec 5)
    (hw : w = K + x0.toNat * 2097152 + x1.toNat * 65536)
    (hK : K = g0 * 67108864 + g1 * 1 + g2 * 32) (hg : g0 < 64 ∧ g1 < 32 ∧ g2 < 2048) :
    bitsOf w 26 6 = g0 ∧ bitsOf w 0 5 = g1 ∧ bitsOf w 5 11 = g2 ∧ fld w 21 5 = x0 ∧ fld w 16 5 = x1 ∧ w < 2 ^ 32 := by
  have l0 := x0.isLt
  have l1 := x1.isLt
  exact ⟨bits_eq (by omega), bits_eq (by omega), bits_eq (by omega), fld_eq (by omega), fld_eq (by omega), by omega⟩

theorem layout47 {w : Nat} (K g0 : Nat) (x0 : BitVec 5) (x1 : BitVec 5) (x2 : BitVec 16)
    (hw : w = K + x0.toNat * 2097152 + x1.toNat * 65536 + x2.toNat)
    (hK : K = g0 * 67108864) (hg : g0 < 64) :
    bitsOf w 26 6 = g0 ∧ fld w 21 5 = x0 ∧ fld w 16 5 = x1 ∧ fld w 0 16 = x2 ∧ w < 2 ^ 32 := by
  have l0 := x0.isLt
  have l1 := x1.isLt
  have l2 := x2.isLt
  exact ⟨bits_eq (by omega), fld_eq (by omega), fld_eq (by omega), fld_eq (by omega), by omega⟩

theorem layout48 {w : Nat} (K g0 g1 : Nat) (x0 : BitVec 5) (x1 : BitVec 5) (x2 : BitVec 6)
    (hw : w = K + x0.toNat * 2097152 + x1.toNat * 65536 + x2.toNat)
    (hK : K = g0 * 67108864 + g1 * 64) (hg : g0 < 64 ∧ g1 < 1024) :
    bitsOf w 26 6 = g0 ∧ bitsOf w 6 10 = g1 ∧ fld w 21 5 = x0 ∧ fld w 16 5 = x1 ∧ fld w 0 6 = x2 ∧ w < 2 ^ 32 := by
  have l0 := x0.isLt
  have l1 := x1.isLt
  have l2 := x2.isLt
  exact ⟨bits_eq (by omega), bits_eq (by omega), fld_eq (by omega), fld_eq (by omega), fld_eq (by omega), by omega⟩

theorem layout49 {w : Nat} (K g0 g1 g2 : Nat) (x0 : BitVec 5) (x1 : BitVec 5) (x2 : BitVec 5) (x3 : BitVec 3) (x4 : BitVec 1)
    (hw : w = K + x0.toNat * 2097152 + x1.toNat * 65536 + x2.toNat * 2048 + x3.toNat * 8 + x4.toNat * 4)
    (hK : K = g0 * 67108864 + g1 * 1 + g2 * 64) (hg : g0 < 64 ∧ g1 < 4 ∧ g2 < 32) :
    bitsOf w 26 6 = g0 ∧ bitsOf w 0 2 = g1 ∧ bitsOf w 6 5 = g2 ∧ fld w 21 5 = x0 ∧ fld w 16 5 = x1 ∧ fld w 11 5 = x2 ∧ fld w 3 3 = x3 ∧ fld w 2 1 = x4 ∧ w < 2 ^ 32 := by
  have l0 := x0.isLt
  have l1 := x1.isLt
  have l2 := x2.isLt
  have l3 := x3.isLt
  have l4 := x4.isLt
  exact ⟨bits_eq (by omega), bits_eq (by omega), bits_eq (by omega), fld_eq (by omega), fld_eq (by omega), fld_eq (by omega), fld_eq (by omega), fld_eq (by omega), by omega⟩

theorem layout50 {w : Nat} (K g0 g1 : Nat) (x0 : BitVec 5) (x1 : BitVec 5) (x2 : BitVec 5) (x3 : BitVec 5) (x4 : BitVec 3) (x5 : BitVec 1)
    (hw : w = K + x0.toNat * 2097152 + x1.toNat * 65536 + x2.toNat * 2048 + x3.toNat * 64 + x4.toNat * 8 + x5.toNat * 4)
    (hK : K = g0 * 67108864 + g1 * 1) (hg : g0 < 64 ∧ g1 < 4) :
    bitsOf w 26 6 = g0 ∧ bitsOf w 0 2 = g1 ∧ fld w 21 5 = x0 ∧ fld w 16 5 = x1 ∧ fld w 11 5 = x2 ∧ fld w 6 5 = x3 ∧ fld w 3 3 = x4 ∧ fld w 2 1 = x5 ∧ w < 2 ^ 32 := by
  have l0 := x0.isLt
  have l1 := x1.isLt
  have l2 := x2.isLt
  have l3 := x3.isLt
  have l4 := x4.isLt
  have l5 := x5.isLt
  exact ⟨bits_eq (by omega), bits_eq (by omega), fld_eq (by omega), fld_eq (by omega), fld_eq (by omega), fld_eq (by omega), fld_eq (by omega), fld_eq (by omega), by omega⟩

theorem layout51 {w : Nat} (K g0 g1 g2 : Nat) (x0 : BitVec 5) (x1 : BitVec 5) (x2 : BitVec 5) (x3 : BitVec 1)
    (hw : w = K + x0.toNat * 2097152 + x1.toNat * 65536 + x2.toNat * 2048 + x3.toNat * 8)
    (hK : K = g0 * 67108864 + g1 * 1 + g2 * 16) (hg : g0 < 64 ∧ g1 < 8 ∧ g2 < 128) :
    bitsOf w 26 6 = g0 ∧ bitsOf w 0 3 = g1 ∧ bitsOf w 4 7 = g2 ∧ fld w 21 5 = x0 ∧ fld w 16 5 = x1 ∧ fld w 11 5 = x2 ∧ fld w 3 1 = x3 ∧ w < 2 ^ 32 := by
  have l0 := x0.isLt
  have l1 := x1.isLt
  have l2 := x2.isLt
  have l3 := x3.isLt
  exact ⟨bits_eq (by omega), bits_eq (by omega), bits_eq (by omega), fld_eq (by omega), fld_eq (by omega), fld_eq (by omega), fld_eq (by omega), by omega⟩

theorem layout52 {w : Nat} (K g0 g1 g2 : Nat) (x0 : BitVec 5) (x1 : BitVec 5) (x2 : BitVec 5) (x3 : BitVec 3) (x4 : BitVec 1)
    (hw : w = K + x0.toNat * 2097152 + x1.toNat * 65536 + x2.toNat * 2048 + x3.toNat * 256 + x4.toNat * 8)
    (hK : K = g0 * 67108864 + g1 * 1 + g2 * 16) (hg : g0 < 64 ∧ g1 < 8 ∧ g2 < 16) :
    bitsOf w 26 6 = g0 ∧ bitsOf w 0 3 = g1 ∧ bitsOf w 4 4 = g2 ∧ fld w 21 5 = x0 ∧ fld w 16 5 = x1 ∧ fld w 11 5 = x2 ∧ fld w 8 3 = x3 ∧ fld w 3 1 = x4 ∧ w < 2 ^ 32 := by
  have l0 := x0.isLt
  have l1 := x1.isLt
  have l2 := x2.isLt
  have l3 := x3.isLt
  have l4 := x4.isLt
  exact ⟨bits_eq (by omega), bits_eq (by omega), bits_eq (by omega), fld_eq (by omega), fld_eq (by omega), fld_eq (by omega), fld_eq (by omega), fld_eq (by omega), by omega⟩

theorem layout53 {w : Nat} (K g0 g1 g2 : Nat) (x0 : BitVec 5) (x1 : BitVec 5) (x2 : BitVec 1)
    (hw : w = K + x0.toNat * 2097152 + x1.toNat * 65536 + x2.toNat * 8)
    (hK : K = g0 * 67108864 + g1 * 1 + g2 * 16) (hg : g0 < 64 ∧ g1 < 8 ∧ g2 < 4096) :
    bitsOf w 26 6 = g0 ∧ bitsOf w 0 3 = g1 ∧ bitsOf w 4 12 = g2 ∧ fld w 21 5 = x0 ∧ fld w 16 5 = x1 ∧ fld w 3 1 = x2 ∧ w < 2 ^ 32 := by
  have l0 := x0.isLt
  have l1 := x1.isLt
  have l2 := x2.isLt
  exact ⟨bits_eq (by omega), bits_eq (by omega), bits_eq (by omega), fld_eq (by omega), fld_eq (by omega), fld_eq (by omega), by omega⟩

theorem layout54 {w : Nat} (K g0 : Nat) (x0 : BitVec 5) (x1 : BitVec 5) (x2 : BitVec 5) (x3 : BitVec 3) (x4 : BitVec 4) (x5 : BitVec 1) (x6 : BitVec 3)
    (hw : w = K + x0.toNat * 2097152 + x1.toNat * 65536 + x2.toNat * 2048 + x3.toNat * 256 + x4.toNat * 16 + x5.toNat * 8 + x6.toNat)
    (hK : K = g0 * 67108864) (hg : g0 < 64) :
    bitsOf w 26 6 = g0 ∧ fld w 21 5 = x0 ∧ fld w 16 5 = x1 ∧ fld w 11 5 = x2 ∧ fld w 8 3 = x3 ∧ fld w 4 4 = x4 ∧ fld w 3 1 = x5 ∧ fld w 0 3 = x6 ∧ w < 2 ^ 32 := by
  have l0 := x0.isLt
  have l1 := x1.isLt
  have l2 := x2.isLt
  have l3 := x3.isLt
  have l4 := x4.isLt
  have l5 := x5.isLt
  have l6 := x6.isLt
  exact ⟨bits_eq (by omega), fld_eq (by omega), fld_eq (by omega), fld_eq (by omega), fld_eq (by omega), fld_eq (by omega), fld_eq (by omega), fld_eq (by omega), by omega⟩

theorem layout55 {w : Nat} (K g0 g1 : Nat) (x0 : BitVec 5) (x1 : BitVec 5) (x2 : BitVec 5) (x3 : BitVec 3) (x4 : BitVec 4) (x5 : BitVec 3)
    (hw : w = K + x0.toNat * 2097152 + x1.toNat * 65536 + x2.toNat * 2048 + x3.toNat * 256 + x4.toNat * 16 + x5.toNat)
    (hK : K = g0 * 67108864 + g1 * 8) (hg : g0 < 64 ∧ g1 < 2) :
    bitsOf w 26 6 = g0 ∧ bitsOf w 3 1 = g1 ∧ fld w 21 5 = x0 ∧ fld w 16 5 = x1 ∧ fld w 11 5 = x2 ∧ fld w 8 3 = x3 ∧ fld w 4 4 = x4 ∧ fld w 0 3 = x5 ∧ w < 2 ^ 32 := by
  have l0 := x0.isLt
  have l1 := x1.isLt
  have l2 := x2.isLt
  have l3 := x3.isLt
  have l4 := x4.isLt
  have l5 := x5.isLt
  exact ⟨bits_eq (by omega), bits_eq (by omega), fld_eq (by omega), fld_eq (by omega), fld_eq (by omega), fld_eq (by omega), fld_eq (by omega), fld_eq (by omega), by omega⟩

theorem layout56 {w : Nat} (K g0 g1 : Nat) (x0 : BitVec 5) (x1 : BitVec 5) (x2 : BitVec 3) (x3 : BitVec 4) (x4 : BitVec 1) (x5 : BitVec 3)
    (hw : w = K + x0.toNat * 2097152 + x1.toNat * 65536 + x2.toNat * 256 + x3.toNat * 16 + x4.toNat * 8 + x5.toNat)
    (hK : K = g0 * 67108864 + g1 * 2048) (hg : g0 < 64 ∧ g1 < 32) :
    bitsOf w 26 6 = g0 ∧ bitsOf w 11 5 = g1 ∧ fld w 21 5 = x0 ∧ fld w 16 5 = x1 ∧ fld w 8 3 = x2 ∧ fld w 4 4 = x3 ∧ fld w 3 1 = x4 ∧ fld w 0 3 = x5 ∧ w < 2 ^ 32 := by
  have l0 := x0.isLt
  have l1 := x1.isLt
  have l2 := x2.isLt
  have l3 := x3.isLt
  have l4 := x4.isLt
  have l5 := x5.isLt
  exact ⟨bits_eq (by omega), bits_eq (by omega), fld_eq (by omega), fld_eq (by omega), fld_eq (by omega), fld_eq (by omega), fld_eq (by omega), fld_eq (by omega), by omega⟩

theorem layout57 {w : Nat} (K g0 g1 g2 : Nat) (x0 : BitVec 5) (x1 : BitVec 5) (x2 : BitVec 5) (x3 : BitVec 3)
    (hw : w = K + x0.toNat * 2097152 + x1.toNat * 65536 + x2.toNat * 2048 + x3.toNat * 256)
    (hK : K = g0 * 67108864 + g1 * 1 + g2 * 8) (hg : g0 < 64 ∧ g1 < 8 ∧ g2 < 32) :
    bitsOf w 26 6 = g0 ∧ bitsOf w 0 3 = g1 ∧ bitsOf w 3 5 = g2 ∧ fld w 21 5 = x0 ∧ fld w 16 5 = x1 ∧ fld w 11 5 = x2 ∧ fld w 8 3 = x3 ∧ w < 2 ^ 32 := by
  have l0 := x0.isLt
  have l1 := x1.isLt
  have l2 := x2.isLt
  have l3 := x3.isLt
  exact ⟨bits_eq (by omega), bits_eq (by omega), bits_eq (by omega), fld_eq (by omega), fld_eq (by omega), fld_eq (by omega), fld_eq (by omega), by omega⟩

theorem layout58 {w : Nat} (K g0 g1 g2 : Nat) (x0 : BitVec 5) (x1 : BitVec 5) (x2 : BitVec 5) (x3 : BitVec 3) (x4 : BitVec 4)
    (hw : w = K + x0.toNat * 2097152 + x1.toNat * 65536 + x2.toNat * 2048 + x3.toNat * 256 + x4.toNat * 16)
    (hK : K = g0 * 67108864 + g1 * 1 + g2 * 8) (hg : g0 < 64 ∧ g1 < 8 ∧ g2 < 2) :
    bitsOf w 26 6 = g0 ∧ bitsOf w 0 3 = g1 ∧ bitsOf w 3 1 = g2 ∧ fld w 21 5 = x0 ∧ fld w 16 5 = x1 ∧ fld w 11 5 = x2 ∧ fld w 8 3 = x3 ∧ fld w 4 4 = x4 ∧ w < 2 ^ 32 := by
  have l0 := x0.isLt
  have l1 := x1.isLt
  have l2 := x2.isLt
  have l3 := x3.isLt
  have l4 := x4.isLt
  exact ⟨bits_eq (by omega), bits_eq (by omega), bits_eq (by omega), fld_eq (by omega), fld_eq (by omega), fld_eq (by omega), fld_eq (by omega), fld_eq (by omega), by omega⟩

theorem layout59 {w : Nat} (K g0 g1 g2 : Nat) (x0 : BitVec 3) (x1 : BitVec 5) (x2 : BitVec 5) (x3 : BitVec 3) (x4 : BitVec 4) (x5 : BitVec 3)
    (hw : w = K + x0.toNat * 2097152 + x1.toNat * 65536 + x2.toNat * 2048 + x3.toNat * 256 + x4.toNat * 16 + x5.toNat)
    (hK : K = g0 * 67108864 + g1 * 8 + g2 * 16777216) (hg : g0 < 64 ∧ g1 < 2 ∧ g2 < 4) :
    bitsOf w 26 6 = g0 ∧ bitsOf w 3 1 = g1 ∧ bitsOf w 24 2 = g2 ∧ fld w 21 3 = x0 ∧ fld w 16 5 = x1 ∧ fld w 11 5 = x2 ∧ fld w 8 3 = x3 ∧ fld w 4 4 = x4 ∧ fld w 0 3 = x5 ∧ w < 2 ^ 32 := by
  have l0 := x0.isLt
  have l1 := x1.isLt
  have l2 := x2.isLt
  have l3 := x3.isLt
  have l4 := x4.isLt
  have l5 := x5.isLt
  exact ⟨bits_eq (by omega), bits_eq (by omega), bits_eq (by omega), fld_eq (by omega), fld_eq (by omega), fld_eq (by omega), fld_eq (by omega), fld_eq (by omega), fld_eq (by omega), by omega⟩

theorem layout60 {w : Nat} (K g0 : Nat) (x0 : BitVec 5) (x1 : BitVec 5) (x2 : BitVec 5) (x3 : BitVec 3) (x4 : BitVec 5) (x5 : BitVec 3)
    (hw : w = K + x0.toNat * 2097152 + x1.toNat * 65536 + x2.toNat * 2048 + x3.toNat * 256 + x4.toNat * 8 + x5.toNat)
    (hK : K = g0 * 67108864) (hg : g0 < 64) :
    bitsOf w 26 6 = g0 ∧ fld w 21 5 = x0 ∧ fld w 16 5 = x1 ∧ fld w 11 5 = x2 ∧ fld w 8 3 = x3 ∧ fld w 3 5 = x4 ∧ fld w 0 3 = x5 ∧ w < 2 ^ 32 := by
  have l0 := x0.isLt
  have l1 := x1.isLt
  have l2 := x2.isLt
  have l3 := x3.isLt
  have l4 := x4.isLt
  have l5 := x5.isLt
  exact ⟨bits_eq (by omega), fld_eq (by omega), fld_eq (by omega), fld_eq (by omega), fld_eq (by omega), fld_eq (by omega), fld_eq (by omega), by omega⟩

theorem layout61 {w : Nat} (K g0 g2 : Nat) (x0 : BitVec 5) (x1 : BitVec 5) (x2 : BitVec 5) (x3 : BitVec 3) (x4 : BitVec 4) (x5 : BitVec 3)
    (hw : w = K + x0.toNat * 2097152 + x1.toNat * 65536 + x2.toNat * 2048 + x3.toNat * 256 + x4.toNat * 16 + x5.toNat)
    (hK : K = g0 * 67108864 + g2 * 8) (hg : g0 < 64 ∧ g2 < 2) :
    bitsOf w 26 6 = g0 ∧ bitsOf w 11 5 = x2.toNat ∧ bitsOf w 3 1 = g2 ∧ fld w 21 5 = x0 ∧ fld w 16 5 = x1 ∧ fld w 11 5 = x2 ∧ fld w 8 3 = x3 ∧ fld w 4 4 = x4 ∧ fld w 0 3 = x5 ∧ w < 2 ^ 32 := by
  have l0 := x0.isLt
  have l1 := x1.isLt
  have l2 := x2.isLt
  have l3 := x3.isLt
  have l4 := x4.isLt
  have l5 := x5.isLt
  exact ⟨bits_eq (by omega), bits_eq (by omega), bits_eq (by omega), fld_eq (by omega), fld_eq (by omega), fld_eq (by omega), fld_eq (by omega), fld_eq (by omega), fld_eq (by omega), by omega⟩

theorem layout62 {w : Nat} (K g0 g1 g2 : Nat) (x0 : BitVec 5) (x1 : BitVec 5) (x2 : BitVec 3) (x3 : BitVec 4) (x4 : BitVec 3)
    (hw : w = K + x0.toNat * 2097152 + x1.toNat * 65536 + x2.toNat * 256 + x3.toNat * 16 + x4.toNat)
    (hK : K = g0 * 67108864 + g1 * 8 + g2 * 2048) (hg : g0 < 64 ∧ g1 < 2 ∧ g2 < 32) :
    bitsOf w 26 6 = g0 ∧ bitsOf w 3 1 = g1 ∧ bitsOf w 11 5 = g2 ∧ fld w 21 5 = x0 ∧ fld w 16 5 = x1 ∧ fld w 8 3 = x2 ∧ fld w 4 4 = x3 ∧ fld w 0 3 = x4 ∧ w < 2 ^ 32 := by
  have l0 := x0.isLt
  have l1 := x1.isLt
  have l2 := x2.isLt
  have l3 := x3.isLt
  have l4 := x4.isLt
  exact ⟨bits_eq (by omega), bits_eq (by omega), bits_eq (by omega), fld_eq (by omega), fld_eq (by omega), fld_eq (by omega), fld_eq (by omega), fld_eq (by omega), by omega⟩

theorem layout63 {w : Nat} (K g0 g1 g2 : Nat) (x0 : BitVec 5) (x1 : BitVec 5) (x2 : BitVec 6) (x3 : BitVec 4)
    (hw : w = K + x0.toNat * 2097152 + x1.toNat * 65536 + x2.toNat * 1024 + x3.toNat * 16)
    (hK : K = g0 * 67108864 + g1 * 1 + g2 * 256) (hg : g0 < 64 ∧ g1 < 16 ∧ g2 < 4) :
    bitsOf w 26 6 = g0 ∧ bitsOf w 0 4 = g1 ∧ bitsOf w 8 2 = g2 ∧ fld w 21 5 = x0 ∧ fld w 16 5 = x1 ∧ fld w 10 6 = x2 ∧ fld w 4 4 = x3 ∧ w < 2 ^ 32 := by
  have l0 := x0.isLt
  have l1 := x1.isLt
  have l2 := x2.isLt
  have l3 := x3.isLt
  exact ⟨bits_eq (by omega), bits_eq (by omega), bits_eq (by omega), fld_eq (by omega), fld_eq (by omega), fld_eq (by omega), fld_eq (by omega), by omega⟩

theorem layout64 {w : Nat} (K g0 g1 g2 : Nat) (x0 : BitVec 3) (x1 : BitVec 3) (x2 : BitVec 3)
    (hw : w = K + x0.toNat * 8388608 + x1.toNat * 1048576 + x2.toNat * 131072)
    (hK : K = g0 * 67108864 + g1 * 1 + g2 * 8) (hg : g0 < 64 ∧ g1 < 8 ∧ g2 < 16384) :
    bitsOf w 26 6 = g0 ∧ bitsOf w 0 3 = g1 ∧ bitsOf w 3 14 = g2 ∧ fld w 23 3 = x0 ∧ fld w 20 3 = x1 ∧ fld w 17 3 = x2 ∧ w < 2 ^ 32 := by
  have l0 := x0.isLt
  have l1 := x1.isLt
  have l2 := x2.isLt
  exact ⟨bits_eq (by omega), bits_eq (by omega), bits_eq (by omega), fld_eq (by omega), fld_eq (by omega), fld_eq (by omega), by omega⟩

theorem layout65 {w : Nat} (K g0 g1 g2 : Nat) (x0 : BitVec 3) (x1 : BitVec 3)
    (hw : w = K + x0.toNat * 8388608 + x1.toNat * 1048576)
    (hK : K = g0 * 67108864 + g1 * 1 + g2 * 8) (hg : g0 < 64 ∧ g1 < 8 ∧ g2 < 131072) :
    bitsOf w 26 6 = g0 ∧ bitsOf w 0 3 = g1 ∧ bitsOf w 3 17 = g2 ∧ fld w 23 3 = x0 ∧ fld w 20 3 = x1 ∧ w < 2 ^ 32 := by
  have l0 := x0.isLt
  have l1 := x1.isLt
  exact ⟨bits_eq (by omega), bits_eq (by omega), bits_eq (by omega), fld_eq (by omega), fld_eq (by omega), by omega⟩

theorem layout66 {w : Nat} (K g0 g1 g2 : Nat) (x0 : BitVec 5) (x1 : BitVec 3)
    (hw : w = K + x0.toNat * 2097152 + x1.toNat * 262144)
    (hK : K = g0 * 67108864 + g1 * 1 + g2 * 4) (hg : g0 < 64 ∧ g1 < 4 ∧ g2 < 65536) :
    bitsOf w 26 6 = g0 ∧ bitsOf w 0 2 = g1 ∧ bitsOf w 2 16 = g2 ∧ fld w 21 5 = x0 ∧ fld w 18 3 = x1 ∧ w < 2 ^ 32 := by
  have l0 := x0.isLt
  have l1 := x1.isLt
  exact ⟨bits_eq (by omega), bits_eq (by omega), bits_eq (by omega), fld_eq (by omega), fld_eq (by omega), by omega⟩

theorem layout67 {w : Nat} (K g0 g1 g2 : Nat) (x0 : BitVec 3)
    (hw : w = K + x0.toNat * 1048576)
    (hK : K = g0 * 67108864 + g1 * 1 + g2 * 8388608) (hg : g0 < 64 ∧ g1 < 1048576 ∧ g2 < 8) :
    bitsOf w 26 6 = g0 ∧ bitsOf w 0 20 = g1 ∧ bitsOf w 23 3 = g2 ∧ fld w 20 3 = x0 ∧ w < 2 ^ 32 := by
  have l0 := x0.isLt
  exact ⟨bits_eq (by omega), bits_eq (by omega), bits_eq (by omega), fld_eq (by omega), by omega⟩

theorem layout68 {w : Nat} (K g0 g1 : Nat) (x0 : BitVec 3) (x1 : BitVec 17)
    (hw : w = K + x0.toNat * 8388608 + x1.toNat)
    (hK : K = g0 * 67108864 + g1 * 131072) (hg : g0 < 64 ∧ g1 < 64) :
    bitsOf w 26 6 = g0 ∧ bitsOf w 17 6 = g1 ∧ fld w 23 3 = x0 ∧ fld w 0 17 = x1 ∧ w < 2 ^ 32 := by
  have l0 := x0.isLt
  have l1 := x1.isLt
  exact ⟨bits_eq (by omega), bits_eq (by omega), fld_eq (by omega), fld_eq (by omega), by omega⟩

theorem layout69 {w : Nat} (K g0 g1 : Nat) (x0 : BitVec 3) (x1 : BitVec 3) (x2 : BitVec 3)
    (hw : w = K + x0.toNat * 8388608 + x1.toNat * 1048576 + x2.toNat * 131072)
    (hK : K = g0 * 67108864 + g1 * 1) (hg : g0 < 64 ∧ g1 < 131072) :
    bitsOf w 26 6 = g0 ∧ bitsOf w 0 17 = g1 ∧ fld w 23 3 = x0 ∧ fld w 20 3 = x1 ∧ fld w 17 3 = x2 ∧ w < 2 ^ 32 := by
  have l0 := x0.isLt
  have l1 := x1.isLt
  have l2 := x2.isLt
  exact ⟨bits_eq (by omega), bits_eq (by omega), fld_eq (by omega), fld_eq (by omega), fld_eq (by omega), by omega⟩

theorem layout70 {w : Nat} (K g0 g1 : Nat) (x0 : BitVec 3) (x1 : BitVec 3) (x2 : BitVec 17)
    (hw : w = K + x0.toNat * 8388608 + x1.toNat * 1048576 + x2.toNat)
    (hK : K = g0 * 67108864 + g1 * 131072) (hg : g0 < 64 ∧ g1 < 8) :
    bitsOf w 26 6 = g0 ∧ bitsOf w 17 3 = g1 ∧ fld w 23 3 = x0 ∧ fld w 20 3 = x1 ∧ fld w 0 17 = x2 ∧ w < 2 ^ 32 := by
  have l0 := x0.isLt
  have l1 := x1.isLt
  have l2 := x2.isLt
  exact ⟨bits_eq (by omega), bits_eq (by omega), fld_eq (by omega), fld_eq (by omega), fld_eq (by omega), by omega⟩

theorem layout71 {w : Nat} (K g0 g1 g2 : Nat) (x0 : BitVec 3) (x1 : BitVec 17)
    (hw : w = K + x0.toNat * 1048576 + x1.toNat)
    (hK : K = g0 * 67108864 + g1 * 131072 + g2 * 8388608) (hg : g0 < 64 ∧ g1 < 8 ∧ g2 < 8) :
    bitsOf w 26 6 = g0 ∧ bitsOf w 17 3 = g1 ∧ bitsOf w 23 3 = g2 ∧ fld w 20 3 = x0 ∧ fld w 0 17 = x1 ∧ w < 2 ^ 32 := by
  have l0 := x0.isLt
  have l1 := x1.isLt
  exact ⟨bits_eq (by omega), bits_eq (by omega), bits_eq (by omega), fld_eq (by omega), fld_eq (by omega), by omega⟩

theorem layout72 {w : Nat} (K g0 g1 : Nat) (x0 : BitVec 3) (x1 : BitVec 3) (x2 : BitVec 17)
    (hw : w = K + x0.toNat * 1048576 + x1.toNat * 131072 + x2.toNat)
    (hK : K = g0 * 67108864 + g1 * 8388608) (hg : g0 < 64 ∧ g1 < 8) :
    bitsOf w 26 6 = g0 ∧ bitsOf w 23 3 = g1 ∧ fld w 20 3 = x0 ∧ fld w 17 3 = x1 ∧ fld w 0 17 = x2 ∧ w < 2 ^ 32 := by
  have l0 := x0.isLt
  have l1 := x1.isLt
  have l2 := x2.isLt
  exact ⟨bits_eq (by omega), bits_eq (by omega), fld_eq (by omega), fld_eq (by omega), fld_eq (by omega), by omega⟩

end Sys2Proof.Laws
end

