-- ==== Sys2Proof/Laws/Memory.lean ====
section
/-! SUPPORT. The laws of memory: the canonical form is kept by every operation, a byte reads as it was last written, and a
write leaves every other byte alone. -/

namespace Sys2Proof.Machine

theorem Memory.wfFrom_mono {m : Memory} {a b : Nat} (h : b ≤ a) (w : Memory.wfFrom a m = true) : Memory.wfFrom b m = true := by
  cases m with
  | nil => rfl
  | cons c t => simp only [Memory.wfFrom, Bool.and_eq_true, decide_eq_true_eq] at *; exact ⟨⟨by omega, w.1.2⟩, w.2⟩

theorem Memory.look_below {m : Memory} {lo a : Nat} (w : Memory.wfFrom lo m = true) (h : a < lo) : Memory.look m a = unlistedByte := by
  induction m generalizing lo with
  | nil => rfl
  | cons c t ih =>
    simp only [Memory.wfFrom, Bool.and_eq_true, decide_eq_true_eq] at w
    simp only [Memory.look]
    rw [if_neg (by omega)]
    exact ih w.2 (by omega)

/-- One byte written keeps the canonical form. -/
theorem Memory.put_wfFrom {m : Memory} {lo a : Nat} (b : Byte) (w : Memory.wfFrom lo m = true) (h : lo ≤ a) :
    Memory.wfFrom lo (Memory.put m a b) = true := by
  induction m generalizing lo with
  | nil => simp only [Memory.put]; split <;> simp_all [Memory.wfFrom]
  | cons c t ih =>
    have w' := w
    simp only [Memory.wfFrom, Bool.and_eq_true, decide_eq_true_eq] at w
    simp only [Memory.put]
    split
    · split
      · exact w'
      · simp only [Memory.wfFrom, Bool.and_eq_true, decide_eq_true_eq]
        exact ⟨⟨h, by assumption⟩, ⟨by omega, w.1.2⟩, w.2⟩
    · split
      · next he => subst he; split
                   · exact Memory.wfFrom_mono (by omega) w.2
                   · simp only [Memory.wfFrom, Bool.and_eq_true, decide_eq_true_eq]; exact ⟨⟨h, by assumption⟩, w.2⟩
      · simp only [Memory.wfFrom, Bool.and_eq_true, decide_eq_true_eq]
        exact ⟨w.1, ih w.2 (by omega)⟩

theorem Memory.put_wf {m : Memory} (a : Nat) (b : Byte) (w : m.wf = true) : Memory.wf (Memory.put m a b) = true :=
  Memory.put_wfFrom b w (Nat.zero_le a)

/-- Consecutive bytes written keep the canonical form. -/
theorem Memory.write_wf {m : Memory} (a : Nat) (bs : List Byte) (w : m.wf = true) : (m.write a bs).wf = true := by
  induction bs generalizing m a with
  | nil => exact w
  | cons b t ih => exact ih (a + 1) (Memory.put_wf a b w)

theorem Memory.filter_wfFrom {m : Memory} {lo : Nat} (p : Host.Cell → Bool) (w : Memory.wfFrom lo m = true) :
    Memory.wfFrom lo (m.filter p) = true := by
  induction m generalizing lo with
  | nil => rfl
  | cons c t ih =>
    simp only [Memory.wfFrom, Bool.and_eq_true, decide_eq_true_eq] at w
    simp only [List.filter_cons]
    split
    · simp only [Memory.wfFrom, Bool.and_eq_true, decide_eq_true_eq]; exact ⟨w.1, ih w.2⟩
    · exact ih (Memory.wfFrom_mono (by omega) w.2)

/-- Cells dropped keep the canonical form. -/
theorem Memory.filter_wf {m : Memory} (p : Host.Cell → Bool) (w : m.wf = true) : Memory.wf (m.filter p) = true :=
  Memory.filter_wfFrom p w

theorem Memory.look_put {m : Memory} {lo a : Nat} (b : Byte) (c : Nat) (w : Memory.wfFrom lo m = true) :
    Memory.look (Memory.put m a b) c = if c = a then b else Memory.look m c := by
  induction m generalizing lo with
  | nil => simp only [Memory.put]; split <;> by_cases h : c = a <;> simp_all [Memory.look]
  | cons e t ih =>
    simp only [Memory.wfFrom, Bool.and_eq_true, decide_eq_true_eq] at w
    simp only [Memory.put]
    split
    · next hlt =>
      split
      · next hb =>
        by_cases h : c = a
        · subst h; simp only [if_true, hb, Memory.look]; rw [if_neg (by omega)]
          exact Memory.look_below w.2 (by omega)
        · simp [h]
      · by_cases h : c = a <;> simp [Memory.look, h]
    · split
      · next he =>
        split
        · next hb =>
          by_cases h : c = a
          · rw [if_pos h, hb]; exact Memory.look_below w.2 (by omega)
          · rw [if_neg h]; simp only [Memory.look]; rw [if_neg (by omega)]
        · by_cases h : c = a
          · simp [Memory.look, h]
          · simp only [Memory.look, h, if_false]; rw [if_neg (by omega)]
      · next hne =>
        by_cases h : c = e.1
        · subst h; rw [if_neg (by omega)]; simp [Memory.look]
        · simp only [Memory.look, h, if_false]; exact ih w.2

/-- A byte reads as it was written, and every other byte as before. -/
theorem Memory.byte_put {m : Memory} (a c : Nat) (b : Byte) (w : m.wf = true) :
    Memory.byte (Memory.put m a b) c = if c = a then b else m.byte c := Memory.look_put b c w

/-- A write leaves the bytes outside it alone. -/
theorem Memory.byte_write_outside {m : Memory} {a c : Nat} (bs : List Byte) (w : m.wf = true) (h : c < a ∨ a + bs.length ≤ c) :
    (m.write a bs).byte c = m.byte c := by
  induction bs generalizing m a with
  | nil => rfl
  | cons b t ih =>
    have h' : c < a + 1 ∨ a + 1 + t.length ≤ c := by simp only [List.length_cons] at h; omega
    rw [Memory.write, ih (Memory.put_wf a b w) h', Memory.byte_put a c b w, if_neg (by simp only [List.length_cons] at h; omega)]

/-- Consecutive bytes read back as they were written. -/
theorem Memory.read_write {m : Memory} (a : Nat) (bs : List Byte) (w : m.wf = true) : (m.write a bs).read a bs.length = bs := by
  induction bs generalizing m a with
  | nil => rfl
  | cons b t ih =>
    have w' := Memory.put_wf a b w
    simp only [Memory.write, List.length_cons, Memory.read, ih (a + 1) w']
    rw [Memory.byte_write_outside t w' (by omega), Memory.byte_put a a b w, if_pos rfl]

/-- Reading n bytes gives n bytes. -/
theorem Memory.length_read (m : Memory) (a n : Nat) : (m.read a n).length = n := by
  induction n generalizing a with
  | zero => rfl
  | succ n ih => simp [Memory.read, ih]

/-- The bytes of a value, and the value of the bytes. -/
theorem length_leBytes (n x : Nat) : (leBytes n x).length = n := by
  induction n generalizing x with
  | zero => rfl
  | succ n ih => simp [leBytes, ih]

theorem leNat_leBytes (n x : Nat) : leNat (leBytes n x) = x % 2 ^ (8 * n) := by
  induction n generalizing x with
  | zero => simp [leBytes, leNat, Nat.mod_one]
  | succ n ih =>
    have e : 8 * (n + 1) = 8 + 8 * n := by omega
    simp only [leBytes, leNat, ih, BitVec.toNat_ofNat]
    rw [e, Nat.pow_add, Nat.mod_mul]

/-- Memory right after reset is canonical. -/
theorem reset_mem_wf : State.reset.mem.wf = true := by simp only [State.reset, Memory.wf, Memory.wfFrom]

/-- A line set up under another key keeps the canonical form. -/
theorem State.rekeyLine_wf {s : State} (a k l : Nat) (w : s.mem.wf = true) : (s.rekeyLine a k l).mem.wf = true := by
  unfold State.rekeyLine; split
  · exact w
  · exact Memory.write_wf (64 * l) (s.lineUnder l k) w

theorem State.rekeyLines_wf (a k : Nat) (ls : List Nat) {s : State} (w : s.mem.wf = true) :
    (ls.foldl (fun s l => s.rekeyLine a k l) s).mem.wf = true := by
  induction ls generalizing s with
  | nil => exact w
  | cons l t ih => exact ih (State.rekeyLine_wf a k l w)

theorem State.rekey_wf {s : State} (a n k : Nat) (w : s.mem.wf = true) : (s.rekey a n k).mem.wf = true := by
  unfold State.rekey; split
  · exact w
  · exact State.rekeyLines_wf a k _ w

/-- Every write of bytes to memory keeps the canonical form. -/
theorem State.poke_wf {s : State} (a : Nat) (bs : List Byte) (tag : Option Bool) (k : Nat) (w : s.mem.wf = true) :
    (s.poke a bs tag k).mem.wf = true := Memory.write_wf _ _ (State.rekey_wf _ _ _ w)

/-- Bytes of local memory, or of lines last written under the same key, are all that a write changes. -/
theorem State.poke_outside {s : State} {a c : Nat} (bs : List Byte) (tag : Option Bool) (k : Nat) (w : s.mem.wf = true)
    (hk : s.keyed a bs.length k = true) (h : c < a ∨ a + bs.length ≤ c) : (s.poke a bs tag k).mem.byte c = s.mem.byte c := by
  have e : (s.rekey a bs.length k) = s := by simp [State.rekey, hk]
  have : (s.poke a bs tag k).mem = s.mem.write a bs := by simp only [State.poke, e]
  rw [this]; exact Memory.byte_write_outside bs w h

/-- What a write has written reads back. -/
theorem State.poke_read {s : State} (a : Nat) (bs : List Byte) (tag : Option Bool) (k : Nat) (w : s.mem.wf = true) :
    (s.poke a bs tag k).mem.read a bs.length = bs := Memory.read_write _ _ (State.rekey_wf _ _ _ w)

end Sys2Proof.Machine
end

