-- ==== Sys2Proof/Laws/Ops.lean ====
section
/-! SUPPORT. What the shared operations over memory do, said once: waking, a write at its home, the accesses of the service cores. -/

namespace Sys2Proof.Machine

/-! Waking slots and keeping views change no memory. -/

@[simp] theorem State.wakeLines_mem (s : State) (l : List Nat) : (s.wakeLines l).mem = s.mem := rfl
@[simp] theorem State.wakeLines_tags (s : State) (l : List Nat) : (s.wakeLines l).tags = s.tags := rfl
@[simp] theorem State.wakeKeys_mem (s : State) (p : Nat) (f : Nat → Bool) : (s.wakeKeys p f).mem = s.mem := rfl
@[simp] theorem State.wakeOrder_mem (s : State) : s.wakeOrder.mem = s.mem := rfl
@[simp] theorem State.restart_mem (s : State) (a n : Nat) : (s.restart a n).mem = s.mem := rfl
@[simp] theorem State.tellHost_mem (s : State) (a : Nat) : (s.tellHost a).mem = s.mem := rfl
@[simp] theorem State.postHost_mem (s : State) (d a : Nat) (bs : List Byte) : (s.postHost d a bs).mem = s.mem := rfl
@[simp] theorem State.readHost_mem (s : State) (d a n : Nat) : (s.readHost d a n).mem = s.mem := rfl
@[simp] theorem State.draw_mem (s : State) (w : Nat) : (s.draw w).2.mem = s.mem := rfl

@[simp] theorem State.joinView_mem (s : State) (a : Nat) (l : List Nat) : (s.joinView a l).mem = s.mem := by
  unfold State.joinView; split <;> rfl

@[simp] theorem State.joinView_eager (s : State) (a : Nat) (l : List Nat) : (s.joinView a l).eager = s.eager := by
  unfold State.joinView; split <;> rfl

@[simp] theorem State.record_mem (s : State) (g : Nat) (r : List (Nat × List Nat)) (t : Option Nat) (p : List Nat) (a : Nat)
    (bs : List Byte) (tag : Option Bool) (k : Nat) : (s.record g r t p a bs tag k).mem = s.mem := by simp [State.record]

@[simp] theorem State.recordInitial_mem (s : State) (a n : Nat) : (s.recordInitial a n).mem = s.mem := by
  unfold State.recordInitial
  dsimp only
  generalize (s.fresh _ _).flatMap _ = l
  induction l generalizing s with
  | nil => rfl
  | cons x t ih => rw [List.foldl_cons, ih]

/-! A write at its home (05 R115): memory keeps its canonical form, whichever way the machine runs. -/

theorem State.performWrite_wf {s : State} (a : Nat) (bs : List Byte) (tag : Option Bool) (k : Nat) (w : s.mem.wf = true) :
    (s.performWrite a bs tag k).mem.wf = true := State.poke_wf a bs tag k w

/-- A write at its home reads back. -/
theorem State.performWrite_read {s : State} (a : Nat) (bs : List Byte) (tag : Option Bool) (k : Nat) (w : s.mem.wf = true) :
    (s.performWrite a bs tag k).mem.read a bs.length = bs := State.poke_read a bs tag k w

theorem State.performRec_wf {s : State} (id : Nat) (r : WriteRec) (w : s.mem.wf = true) : (s.performRec id r).mem.wf = true := by
  have h := State.poke_wf r.addr r.bytes r.tag r.keyid (show (s.recordInitial r.addr r.bytes.length).mem.wf = true by simpa using w)
  unfold State.performRec
  dsimp only [State.due, State.wakeOrder]
  split <;> exact h

/-- Writes carried out in their order keep the form. -/
theorem State.force_wf (l : List Nat) {s : State} (w : s.mem.wf = true) : (s.force l).mem.wf = true := by
  unfold State.force
  induction l generalizing s with
  | nil => exact w
  | cons i t ih =>
    rw [List.foldl_cons]
    refine ih ?_
    split
    · split
      · exact w
      · exact State.performRec_wf _ _ w
    · exact w

theorem State.homeWrite_wf {s : State} (g : Nat) (r : List (Nat × List Nat)) (t : Option Nat) (p : WriteRec → Bool) (a : Nat)
    (bs : List Byte) (tag : Option Bool) (k : Nat) (w : s.mem.wf = true) : (s.homeWrite g r t p a bs tag k).mem.wf = true := by
  unfold State.homeWrite
  split
  · exact State.performWrite_wf a bs tag k w
  · dsimp only
    split
    · exact State.performRec_wf _ _ (by simpa using State.force_wf _ (by simpa using w))
    · simpa using State.force_wf _ (by simpa using w)

/-! The service cores (05 R134): reads change no memory, writes keep its form. -/

theorem State.serviceWrite_wf {s : State} (p u a : Nat) (bs : List Byte) (tag : Option Bool) (k : Nat) (w : s.mem.wf = true) :
    (s.serviceWrite p u a bs tag k).mem.wf = true := State.homeWrite_wf _ _ _ _ a bs tag k (by simpa using w)

theorem State.rootWrite_wf {s : State} (p a : Nat) (bs : List Byte) (w : s.mem.wf = true) : (s.rootWrite p a bs).mem.wf = true := by
  unfold State.rootWrite; split
  · exact w
  · exact State.serviceWrite_wf p 0 a bs none 0 w

theorem State.readKey_mem (s : State) (a n k : Nat) : (s.readKey a n k).2.mem = s.mem := by
  unfold State.readKey; split <;> rfl

end Sys2Proof.Machine
end

