-- ==== Sys2Proof/Laws/PerInstr.lean ====
section
/-! SUPPORT. Decoding undoes encoding, one lemma a constructor: the word of a well-formed instruction of the C slot, of the A
slot or of a policy program decodes to the instruction with every operand at every value; a step has no word. -/

namespace Sys2Proof.Laws

/-- The word of an instruction decodes to it, in the slot that it is an instruction of: a C instruction with the L bit and
word 1 that carry its EXT, or with any zero EXT where it takes none. -/
def RoundTrip.Statement (i : Instr) : Prop :=
  i.wf = true →
    (i.isC = true → encodeC i < 2 ^ 28 ∧ ∀ (lone : Bool) (e : Nat),
      (if i.takesExt then i.ext? = (if lone then some (BitVec.ofNat 32 e) else none) else (lone = true → e = 0)) →
      decodeC (encodeC i) lone e = .ok i) ∧
    (i.isA = true → encodeA i < 2 ^ 32 ∧ decodeA (encodeA i) = .ok i) ∧
    (i.isPolicy = true → encodePolicy i < 2 ^ 32 ∧ decodePolicy (encodePolicy i) = some i)

namespace RoundTrip

theorem take_ok {lone r : Bool} {e : Nat} {i : Instr} (h : r = true) (w : i.wf = true) (z : lone = true → e = 0) :
    take lone e r i = .ok i := by
  cases lone <;> simp_all [take]

theorem takeX_ok {r : Bool} {i : Instr} (h : r = true) (w : i.wf = true) : takeX r i = .ok i := by simp [takeX, h, w]

theorem takeA_ok {r : Bool} {i : Instr} (h : r = true) (w : i.wf = true) : takeA r i = .ok i := by simp [takeA, h, w]

theorem pos_of_ne {x : BitVec 5} (h : ¬x = 0) : 0 < x.toNat := by
  have : x.toNat ≠ 0 := fun e => h (BitVec.eq_of_toNat_eq (by simpa using e))
  omega

theorem some_ext {x : BitVec 32} {lone : Bool} {e : Nat}
    (h : some x = if lone then some (BitVec.ofNat 32 e) else none) : lone = true ∧ x = BitVec.ofNat 32 e := by
  cases lone <;> simp_all

theorem Statement.ofStep {i : Instr} (hc : i.isC = false) (ha : i.isA = false) (hp : i.isPolicy = false) : Statement i :=
  fun _ => ⟨fun e => by simp [hc] at e, fun e => by simp [ha] at e, fun e => by simp [hp] at e⟩

theorem Statement.ofA {i : Instr} (hc : i.isC = false) (hp : i.isPolicy = false)
    (h : i.wf = true → encodeA i < 2 ^ 32 ∧ decodeA (encodeA i) = .ok i) : Statement i :=
  fun w => ⟨fun e => by simp [hc] at e, fun _ => h w, fun e => by simp [hp] at e⟩

theorem Statement.ofPolicy {i : Instr} (hc : i.isC = false) (ha : i.isA = false)
    (h : encodePolicy i < 2 ^ 32 ∧ decodePolicy (encodePolicy i) = some i) : Statement i :=
  fun _ => ⟨fun e => by simp [hc] at e, fun e => by simp [ha] at e, fun _ => h⟩

theorem Statement.ofC {i : Instr} (hx : i.takesExt = false) (ha : i.isA = false) (hp : i.isPolicy = false)
    (h : i.wf = true → encodeC i < 2 ^ 28 ∧ ∀ (lone : Bool) (e : Nat), (lone = true → e = 0) →
      decodeC (encodeC i) lone e = .ok i) : Statement i :=
  fun w => ⟨fun _ => ⟨(h w).1, fun l e z => (h w).2 l e (by simpa [hx] using z)⟩, fun e => by simp [ha] at e, fun e => by simp [hp] at e⟩

theorem Statement.ofX {i : Instr} (hx : i.takesExt = true) (ha : i.isA = false) (hp : i.isPolicy = false)
    (h : i.wf = true → encodeC i < 2 ^ 28 ∧ ∀ (lone : Bool) (e : Nat), i.ext? = (if lone then some (BitVec.ofNat 32 e) else none) →
      decodeC (encodeC i) lone e = .ok i) : Statement i :=
  fun w => ⟨fun _ => ⟨(h w).1, fun l e z => (h w).2 l e (by simpa [hx] using z)⟩, fun e => by simp [ha] at e, fun e => by simp [hp] at e⟩

theorem cnop : Statement (.cnop) := .ofC rfl rfl rfl fun wf => by
  obtain ⟨h0, h1, lt⟩ := layout1 (w := encodeC (.cnop)) 0x0 0 0 rfl rfl (by decide)
  refine ⟨lt, fun lone e hx => ?_⟩
  unfold decodeC; rw [h0, h1]; exact take_ok rfl wf hx
theorem br (off : BitVec 22) (ext : Option (BitVec 32)) : Statement (.br off ext) := .ofX rfl rfl rfl fun wf => by
  obtain ⟨h0, e0, lt⟩ := layout2 (w := encodeC (.br off ext)) 0x400000 1 off rfl rfl (by decide)
  refine ⟨lt, fun lone e hx => ?_⟩
  unfold decodeC; rw [h0, e0, ← (show ext = _ from hx)]; exact takeX_ok rfl wf
theorem bcc (cnd : BitVec 3) (a : BitVec 5) (b : BitVec 5) (off : BitVec 9) (ext : Option (BitVec 32)) : Statement (.bcc cnd a b off ext) := .ofX rfl rfl rfl fun wf => by
  obtain ⟨h0, h1, e0, e1, e2, e3, lt⟩ := layout3 (w := encodeC (.bcc cnd a b off ext)) 0x800000 2 cnd a b off rfl rfl (by decide)
  refine ⟨lt, fun lone e hx => ?_⟩
  unfold decodeC; rw [h0, h1, e0, e1, e2, e3, ← (show ext = _ from hx)]; exact (if_pos (by simp only [Instr.wf, Bool.and_eq_true, decide_eq_true_eq] at wf; exact wf.2)).trans (takeX_ok rfl wf)
theorem jal (d : BitVec 5) (off : BitVec 17) (ext : Option (BitVec 32)) : Statement (.jal d off ext) := .ofX rfl rfl rfl fun wf => by
  obtain ⟨h0, e0, e1, lt⟩ := layout4 (w := encodeC (.jal d off ext)) 0xC00000 3 d off rfl rfl (by decide)
  refine ⟨lt, fun lone e hx => ?_⟩
  unfold decodeC; rw [h0, e0, e1, ← (show ext = _ from hx)]; exact takeX_ok rfl wf
theorem jalr (d : BitVec 5) (r : BitVec 5) (off : BitVec 12) : Statement (.jalr d r off) := .ofC rfl rfl rfl fun wf => by
  obtain ⟨h0, e0, e1, e2, lt⟩ := layout5 (w := encodeC (.jalr d r off)) 0x1000000 4 d r off rfl rfl (by decide)
  refine ⟨lt, fun lone e hx => ?_⟩
  unfold decodeC; rw [h0, e0, e1, e2]; exact take_ok rfl wf hx
theorem loop (d : BitVec 5) (off : BitVec 17) (ext : Option (BitVec 32)) : Statement (.loop d off ext) := .ofX rfl rfl rfl fun wf => by
  obtain ⟨h0, h1, e0, e1, lt⟩ := layout6 (w := encodeC (.loop d off ext)) 0x1400000 5 d off rfl rfl (by decide)
  refine ⟨lt, fun lone e hx => ?_⟩
  unfold decodeC; rw [h0, h1, e0, e1, ← (show ext = _ from hx)]; exact (if_pos (by simp only [Instr.wf, Bool.and_eq_true, bne_iff_ne, ne_eq] at wf; exact pos_of_ne wf.2)).trans (takeX_ok rfl wf)
theorem li (d : BitVec 5) (imm : BitVec 16) (ext : Option (BitVec 32)) : Statement (.li d imm ext) := .ofX rfl rfl rfl fun wf => by
  obtain ⟨h0, h1, e0, e1, lt⟩ := layout7 (w := encodeC (.li d imm ext)) 0x1800000 6 0 d imm rfl rfl (by decide)
  refine ⟨lt, fun lone e hx => ?_⟩
  unfold decodeC; rw [h0, h1, e0, e1, ← (show ext = _ from hx)]; exact takeX_ok rfl wf
theorem liHi (d : BitVec 5) (ext : BitVec 32) : Statement (.liHi d ext) := .ofX rfl rfl rfl fun wf => by
  obtain ⟨h0, h1, h2, e0, lt⟩ := layout8 (w := encodeC (.liHi d ext)) 0x1810000 6 1 0 d rfl rfl (by decide)
  refine ⟨lt, fun lone e hx => ?_⟩
  obtain ⟨rfl, rfl⟩ := some_ext hx
  unfold decodeC; rw [h0, h1, h2, e0]; rfl
theorem ldI8 (g : BitVec 5) (cap : BitVec 4) (idx : BitVec 5) (sh : BitVec 2) (disp : BitVec 6) (ext : Option (BitVec 32)) : Statement (.ldI8 g cap idx sh disp ext) := .ofX rfl rfl rfl fun wf => by
  obtain ⟨h0, e0, e1, e2, e3, e4, lt⟩ := layout9 (w := encodeC (.ldI8 g cap idx sh disp ext)) 0x2000000 8 g cap idx sh disp rfl rfl (by decide)
  refine ⟨lt, fun lone e hx => ?_⟩
  unfold decodeC; rw [h0, e0, e1, e2, e3, e4, ← (show ext = _ from hx)]; exact takeX_ok rfl wf
theorem ldN8 (g : BitVec 5) (cap : BitVec 4) (idx : BitVec 5) (sh : BitVec 2) (disp : BitVec 6) (ext : Option (BitVec 32)) : Statement (.ldN8 g cap idx sh disp ext) := .ofX rfl rfl rfl fun wf => by
  obtain ⟨h0, e0, e1, e2, e3, e4, lt⟩ := layout9 (w := encodeC (.ldN8 g cap idx sh disp ext)) 0x2400000 9 g cap idx sh disp rfl rfl (by decide)
  refine ⟨lt, fun lone e hx => ?_⟩
  unfold decodeC; rw [h0, e0, e1, e2, e3, e4, ← (show ext = _ from hx)]; exact takeX_ok rfl wf
theorem ldI16 (g : BitVec 5) (cap : BitVec 4) (idx : BitVec 5) (sh : BitVec 2) (disp : BitVec 6) (ext : Option (BitVec 32)) : Statement (.ldI16 g cap idx sh disp ext) := .ofX rfl rfl rfl fun wf => by
  obtain ⟨h0, e0, e1, e2, e3, e4, lt⟩ := layout9 (w := encodeC (.ldI16 g cap idx sh disp ext)) 0x2800000 10 g cap idx sh disp rfl rfl (by decide)
  refine ⟨lt, fun lone e hx => ?_⟩
  unfold decodeC; rw [h0, e0, e1, e2, e3, e4, ← (show ext = _ from hx)]; exact takeX_ok rfl wf
theorem ldN16 (g : BitVec 5) (cap : BitVec 4) (idx : BitVec 5) (sh : BitVec 2) (disp : BitVec 6) (ext : Option (BitVec 32)) : Statement (.ldN16 g cap idx sh disp ext) := .ofX rfl rfl rfl fun wf => by
  obtain ⟨h0, e0, e1, e2, e3, e4, lt⟩ := layout9 (w := encodeC (.ldN16 g cap idx sh disp ext)) 0x2C00000 11 g cap idx sh disp rfl rfl (by decide)
  refine ⟨lt, fun lone e hx => ?_⟩
  unfold decodeC; rw [h0, e0, e1, e2, e3, e4, ← (show ext = _ from hx)]; exact takeX_ok rfl wf
theorem ldI32 (g : BitVec 5) (cap : BitVec 4) (idx : BitVec 5) (sh : BitVec 2) (disp : BitVec 6) (ext : Option (BitVec 32)) : Statement (.ldI32 g cap idx sh disp ext) := .ofX rfl rfl rfl fun wf => by
  obtain ⟨h0, e0, e1, e2, e3, e4, lt⟩ := layout9 (w := encodeC (.ldI32 g cap idx sh disp ext)) 0x3000000 12 g cap idx sh disp rfl rfl (by decide)
  refine ⟨lt, fun lone e hx => ?_⟩
  unfold decodeC; rw [h0, e0, e1, e2, e3, e4, ← (show ext = _ from hx)]; exact takeX_ok rfl wf
theorem ldN32 (g : BitVec 5) (cap : BitVec 4) (idx : BitVec 5) (sh : BitVec 2) (disp : BitVec 6) (ext : Option (BitVec 32)) : Statement (.ldN32 g cap idx sh disp ext) := .ofX rfl rfl rfl fun wf => by
  obtain ⟨h0, e0, e1, e2, e3, e4, lt⟩ := layout9 (w := encodeC (.ldN32 g cap idx sh disp ext)) 0x3400000 13 g cap idx sh disp rfl rfl (by decide)
  refine ⟨lt, fun lone e hx => ?_⟩
  unfold decodeC; rw [h0, e0, e1, e2, e3, e4, ← (show ext = _ from hx)]; exact takeX_ok rfl wf
theorem ld64 (g : BitVec 5) (cap : BitVec 4) (idx : BitVec 5) (sh : BitVec 2) (disp : BitVec 6) (ext : Option (BitVec 32)) : Statement (.ld64 g cap idx sh disp ext) := .ofX rfl rfl rfl fun wf => by
  obtain ⟨h0, e0, e1, e2, e3, e4, lt⟩ := layout9 (w := encodeC (.ld64 g cap idx sh disp ext)) 0x3800000 14 g cap idx sh disp rfl rfl (by decide)
  refine ⟨lt, fun lone e hx => ?_⟩
  unfold decodeC; rw [h0, e0, e1, e2, e3, e4, ← (show ext = _ from hx)]; exact takeX_ok rfl wf
theorem st8 (g : BitVec 5) (cap : BitVec 4) (idx : BitVec 5) (sh : BitVec 2) (disp : BitVec 6) (ext : Option (BitVec 32)) : Statement (.st8 g cap idx sh disp ext) := .ofX rfl rfl rfl fun wf => by
  obtain ⟨h0, e0, e1, e2, e3, e4, lt⟩ := layout9 (w := encodeC (.st8 g cap idx sh disp ext)) 0x3C00000 15 g cap idx sh disp rfl rfl (by decide)
  refine ⟨lt, fun lone e hx => ?_⟩
  unfold decodeC; rw [h0, e0, e1, e2, e3, e4, ← (show ext = _ from hx)]; exact takeX_ok rfl wf
theorem st16 (g : BitVec 5) (cap : BitVec 4) (idx : BitVec 5) (sh : BitVec 2) (disp : BitVec 6) (ext : Option (BitVec 32)) : Statement (.st16 g cap idx sh disp ext) := .ofX rfl rfl rfl fun wf => by
  obtain ⟨h0, e0, e1, e2, e3, e4, lt⟩ := layout9 (w := encodeC (.st16 g cap idx sh disp ext)) 0x4000000 16 g cap idx sh disp rfl rfl (by decide)
  refine ⟨lt, fun lone e hx => ?_⟩
  unfold decodeC; rw [h0, e0, e1, e2, e3, e4, ← (show ext = _ from hx)]; exact takeX_ok rfl wf
theorem st32 (g : BitVec 5) (cap : BitVec 4) (idx : BitVec 5) (sh : BitVec 2) (disp : BitVec 6) (ext : Option (BitVec 32)) : Statement (.st32 g cap idx sh disp ext) := .ofX rfl rfl rfl fun wf => by
  obtain ⟨h0, e0, e1, e2, e3, e4, lt⟩ := layout9 (w := encodeC (.st32 g cap idx sh disp ext)) 0x4400000 17 g cap idx sh disp rfl rfl (by decide)
  refine ⟨lt, fun lone e hx => ?_⟩
  unfold decodeC; rw [h0, e0, e1, e2, e3, e4, ← (show ext = _ from hx)]; exact takeX_ok rfl wf
theorem st64 (g : BitVec 5) (cap : BitVec 4) (idx : BitVec 5) (sh : BitVec 2) (disp : BitVec 6) (ext : Option (BitVec 32)) : Statement (.st64 g cap idx sh disp ext) := .ofX rfl rfl rfl fun wf => by
  obtain ⟨h0, e0, e1, e2, e3, e4, lt⟩ := layout9 (w := encodeC (.st64 g cap idx sh disp ext)) 0x4800000 18 g cap idx sh disp rfl rfl (by decide)
  refine ⟨lt, fun lone e hx => ?_⟩
  unfold decodeC; rw [h0, e0, e1, e2, e3, e4, ← (show ext = _ from hx)]; exact takeX_ok rfl wf
theorem vld (v : BitVec 5) (cap : BitVec 4) (k : BitVec 3) (idx : BitVec 5) (disp : BitVec 5) (ext : Option (BitVec 32)) : Statement (.vld v cap k idx disp ext) := .ofX rfl rfl rfl fun wf => by
  obtain ⟨h0, e0, e1, e2, e3, e4, lt⟩ := layout10 (w := encodeC (.vld v cap k idx disp ext)) 0x4C00000 19 v cap k idx disp rfl rfl (by decide)
  refine ⟨lt, fun lone e hx => ?_⟩
  unfold decodeC; rw [h0, e0, e1, e2, e3, e4, ← (show ext = _ from hx)]; exact takeX_ok rfl wf
theorem vst (v : BitVec 5) (cap : BitVec 4) (k : BitVec 3) (idx : BitVec 5) (disp : BitVec 5) (ext : Option (BitVec 32)) : Statement (.vst v cap k idx disp ext) := .ofX rfl rfl rfl fun wf => by
  obtain ⟨h0, e0, e1, e2, e3, e4, lt⟩ := layout10 (w := encodeC (.vst v cap k idx disp ext)) 0x5000000 20 v cap k idx disp rfl rfl (by decide)
  refine ⟨lt, fun lone e hx => ?_⟩
  unfold decodeC; rw [h0, e0, e1, e2, e3, e4, ← (show ext = _ from hx)]; exact takeX_ok rfl wf
theorem vlds (d : BitVec 5) (cap : BitVec 4) (r : BitVec 5) (k : BitVec 3) (sz : BitVec 2) (ext : Option (BitVec 32)) : Statement (.vlds d cap r k sz ext) := .ofX rfl rfl rfl fun wf => by
  obtain ⟨h0, h1, e0, e1, e2, e3, e4, lt⟩ := layout11 (w := encodeC (.vlds d cap r k sz ext)) 0x5400000 21 0 d cap r k sz rfl rfl (by decide)
  refine ⟨lt, fun lone e hx => ?_⟩
  unfold decodeC; rw [h0, h1, e0, e1, e2, e3, e4, ← (show ext = _ from hx)]; exact takeX_ok rfl wf
theorem vldx (d : BitVec 5) (cap : BitVec 4) (r : BitVec 5) (k : BitVec 3) (sz : BitVec 2) (ext : Option (BitVec 32)) : Statement (.vldx d cap r k sz ext) := .ofX rfl rfl rfl fun wf => by
  obtain ⟨h0, h1, e0, e1, e2, e3, e4, lt⟩ := layout11 (w := encodeC (.vldx d cap r k sz ext)) 0x5400001 21 1 d cap r k sz rfl rfl (by decide)
  refine ⟨lt, fun lone e hx => ?_⟩
  unfold decodeC; rw [h0, h1, e0, e1, e2, e3, e4, ← (show ext = _ from hx)]; exact takeX_ok rfl wf
theorem vstx (d : BitVec 5) (cap : BitVec 4) (r : BitVec 5) (k : BitVec 3) (sz : BitVec 2) (ext : Option (BitVec 32)) : Statement (.vstx d cap r k sz ext) := .ofX rfl rfl rfl fun wf => by
  obtain ⟨h0, h1, e0, e1, e2, e3, e4, lt⟩ := layout11 (w := encodeC (.vstx d cap r k sz ext)) 0x5400002 21 2 d cap r k sz rfl rfl (by decide)
  refine ⟨lt, fun lone e hx => ?_⟩
  unfold decodeC; rw [h0, h1, e0, e1, e2, e3, e4, ← (show ext = _ from hx)]; exact takeX_ok rfl wf
theorem ldc (d : BitVec 4) (cap : BitVec 4) (r : BitVec 5) (ext : Option (BitVec 32)) : Statement (.ldc d cap r ext) := .ofX rfl rfl rfl fun wf => by
  obtain ⟨h0, h1, h2, h3, e0, e1, e2, lt⟩ := layout12 (w := encodeC (.ldc d cap r ext)) 0x5400003 21 3 0 0 d cap r rfl rfl (by decide)
  refine ⟨lt, fun lone e hx => ?_⟩
  unfold decodeC; rw [h0, h1, h2, h3, e0, e1, e2, ← (show ext = _ from hx)]; exact takeX_ok rfl wf
theorem stc (d : BitVec 4) (cap : BitVec 4) (r : BitVec 5) (ext : Option (BitVec 32)) : Statement (.stc d cap r ext) := .ofX rfl rfl rfl fun wf => by
  obtain ⟨h0, h1, h2, h3, e0, e1, e2, lt⟩ := layout12 (w := encodeC (.stc d cap r ext)) 0x5400004 21 4 0 0 d cap r rfl rfl (by decide)
  refine ⟨lt, fun lone e hx => ?_⟩
  unfold decodeC; rw [h0, h1, h2, h3, e0, e1, e2, ← (show ext = _ from hx)]; exact takeX_ok rfl wf
theorem ldacq (d : BitVec 5) (cap : BitVec 4) (r : BitVec 5) (scope : BitVec 3) (sz : BitVec 2) (ext : Option (BitVec 32)) : Statement (.ldacq d cap r scope sz ext) := .ofX rfl rfl rfl fun wf => by
  obtain ⟨h0, h1, e0, e1, e2, e3, e4, lt⟩ := layout11 (w := encodeC (.ldacq d cap r scope sz ext)) 0x5400005 21 5 d cap r scope sz rfl rfl (by decide)
  refine ⟨lt, fun lone e hx => ?_⟩
  unfold decodeC; rw [h0, h1, e0, e1, e2, e3, e4, ← (show ext = _ from hx)]; exact takeX_ok rfl wf
theorem strel (d : BitVec 5) (cap : BitVec 4) (r : BitVec 5) (scope : BitVec 3) (sz : BitVec 2) (ext : Option (BitVec 32)) : Statement (.strel d cap r scope sz ext) := .ofX rfl rfl rfl fun wf => by
  obtain ⟨h0, h1, e0, e1, e2, e3, e4, lt⟩ := layout11 (w := encodeC (.strel d cap r scope sz ext)) 0x5400006 21 6 d cap r scope sz rfl rfl (by decide)
  refine ⟨lt, fun lone e hx => ?_⟩
  unfold decodeC; rw [h0, h1, e0, e1, e2, e3, e4, ← (show ext = _ from hx)]; exact takeX_ok rfl wf
theorem waita (d : BitVec 5) (cap : BitVec 4) (r : BitVec 5) (sz : BitVec 2) (ext : Option (BitVec 32)) : Statement (.waita d cap r sz ext) := .ofX rfl rfl rfl fun wf => by
  obtain ⟨h0, h1, h2, e0, e1, e2, e3, lt⟩ := layout13 (w := encodeC (.waita d cap r sz ext)) 0x5400007 21 7 0 d cap r sz rfl rfl (by decide)
  refine ⟨lt, fun lone e hx => ?_⟩
  unfold decodeC; rw [h0, h1, h2, e0, e1, e2, e3, ← (show ext = _ from hx)]; exact takeX_ok rfl wf
theorem amo (d : BitVec 5) (cap : BitVec 4) (r : BitVec 5) (op : BitVec 4) (w : BitVec 1) (ord : BitVec 2) (ext : Option (BitVec 32)) : Statement (.amo d cap r op w ord ext) := .ofX rfl rfl rfl fun wf => by
  obtain ⟨h0, h1, h2, e0, e1, e2, e3, e4, e5, lt⟩ := layout14 (w := encodeC (.amo d cap r op w ord ext)) 0x5800000 22 0 d cap r op w ord rfl rfl (by decide)
  refine ⟨lt, fun lone e hx => ?_⟩
  unfold decodeC; rw [h0, h1, h2, e0, e1, e2, e3, e4, e5, ← (show ext = _ from hx)]; exact (if_pos (by simp only [Instr.wf, decide_eq_true_eq] at wf; exact wf)).trans (takeX_ok rfl wf)
theorem cmov (cd : BitVec 4) (cs : BitVec 4) : Statement (.cmov cd cs) := .ofC rfl rfl rfl fun wf => by
  obtain ⟨h0, h1, h2, e0, e1, lt⟩ := layout15 (w := encodeC (.cmov cd cs)) 0x6000000 24 0 0 cd cs rfl rfl (by decide)
  refine ⟨lt, fun lone e hx => ?_⟩
  unfold decodeC; rw [h0, h1, h2, e0, e1]; exact take_ok rfl wf hx
theorem cadd (cd : BitVec 4) (cs : BitVec 4) (g : BitVec 5) (imm : BitVec 7) : Statement (.cadd cd cs g imm) := .ofC rfl rfl rfl fun wf => by
  obtain ⟨h0, h1, e0, e1, e2, e3, lt⟩ := layout16 (w := encodeC (.cadd cd cs g imm)) 0x6000001 24 1 cd cs g imm rfl rfl (by decide)
  refine ⟨lt, fun lone e hx => ?_⟩
  unfold decodeC; rw [h0, h1, e0, e1, e2, e3]; exact take_ok rfl wf hx
theorem cbnd (cd : BitVec 4) (cs : BitVec 4) (g : BitVec 5) (imm : BitVec 7) : Statement (.cbnd cd cs g imm) := .ofC rfl rfl rfl fun wf => by
  obtain ⟨h0, h1, e0, e1, e2, e3, lt⟩ := layout16 (w := encodeC (.cbnd cd cs g imm)) 0x6000002 24 2 cd cs g imm rfl rfl (by decide)
  refine ⟨lt, fun lone e hx => ?_⟩
  unfold decodeC; rw [h0, h1, e0, e1, e2, e3]; exact take_ok rfl wf hx
theorem cprm (cd : BitVec 4) (cs : BitVec 4) (imm : BitVec 7) : Statement (.cprm cd cs imm) := .ofC rfl rfl rfl fun wf => by
  obtain ⟨h0, h1, h2, e0, e1, e2, lt⟩ := layout17 (w := encodeC (.cprm cd cs imm)) 0x6000003 24 3 0 cd cs imm rfl rfl (by decide)
  refine ⟨lt, fun lone e hx => ?_⟩
  unfold decodeC; rw [h0, h1, h2, e0, e1, e2]; exact take_ok rfl wf hx
theorem cspc (d : BitVec 4) (cs : BitVec 4) (spc : BitVec 3) : Statement (.cspc d cs spc) := .ofC rfl rfl rfl fun wf => by
  obtain ⟨h0, h1, h2, h3, e0, e1, e2, lt⟩ := layout18 (w := encodeC (.cspc d cs spc)) 0x6400000 25 0 0 0 d cs spc rfl rfl (by decide)
  refine ⟨lt, fun lone e hx => ?_⟩
  unfold decodeC; rw [h0, h1, h2, h3, e0, e1, e2]; exact take_ok rfl wf hx
theorem cget (d : BitVec 5) (cs : BitVec 4) (fld : BitVec 4) : Statement (.cget d cs fld) := .ofC rfl rfl rfl fun wf => by
  obtain ⟨h0, h1, h2, h3, e0, e1, e2, lt⟩ := layout19 (w := encodeC (.cget d cs fld)) 0x6400001 25 1 0 0 d cs fld rfl rfl (by decide)
  refine ⟨lt, fun lone e hx => ?_⟩
  unfold decodeC; rw [h0, h1, h2, h3, e0, e1, e2]; exact take_ok rfl wf hx
theorem ctag (d : BitVec 4) (cs : BitVec 4) : Statement (.ctag d cs) := .ofC rfl rfl rfl fun wf => by
  obtain ⟨h0, h1, h2, h3, e0, e1, lt⟩ := layout20 (w := encodeC (.ctag d cs)) 0x6400002 25 2 0 0 d cs rfl rfl (by decide)
  refine ⟨lt, fun lone e hx => ?_⟩
  unfold decodeC; rw [h0, h1, h2, h3, e0, e1]; exact take_ok rfl wf hx
theorem map (j : BitVec 5) (cap : BitVec 4) (a : BitVec 5) (b : BitVec 5) (t : BitVec 1) : Statement (.map j cap a b t) := .ofC rfl rfl rfl fun wf => by
  obtain ⟨h0, h1, e0, e1, e2, e3, e4, lt⟩ := layout21 (w := encodeC (.map j cap a b t)) 0x7000000 28 0 j cap a b t rfl rfl (by decide)
  refine ⟨lt, fun lone e hx => ?_⟩
  unfold decodeC; rw [h0, h1, e0, e1, e2, e3, e4]; exact take_ok rfl wf hx
theorem grant (j : BitVec 5) (cap : BitVec 4) (a : BitVec 5) (b : BitVec 5) (t : BitVec 1) : Statement (.grant j cap a b t) := .ofC rfl rfl rfl fun wf => by
  obtain ⟨h0, h1, e0, e1, e2, e3, e4, lt⟩ := layout21 (w := encodeC (.grant j cap a b t)) 0x7000001 28 1 j cap a b t rfl rfl (by decide)
  refine ⟨lt, fun lone e hx => ?_⟩
  unfold decodeC; rw [h0, h1, e0, e1, e2, e3, e4]; exact take_ok rfl wf hx
theorem unmap (j : BitVec 5) (cap : BitVec 4) (b : BitVec 5) (t : BitVec 1) : Statement (.unmap j cap b t) := .ofC rfl rfl rfl fun wf => by
  obtain ⟨h0, h1, h2, e0, e1, e2, e3, lt⟩ := layout22 (w := encodeC (.unmap j cap b t)) 0x7000002 28 2 0 j cap b t rfl rfl (by decide)
  refine ⟨lt, fun lone e hx => ?_⟩
  unfold decodeC; rw [h0, h1, h2, e0, e1, e2, e3]; exact take_ok rfl wf hx
theorem rwin (j : BitVec 5) (cap : BitVec 4) (a : BitVec 5) (b : BitVec 5) : Statement (.rwin j cap a b) := .ofC rfl rfl rfl fun wf => by
  obtain ⟨h0, h1, h2, e0, e1, e2, e3, lt⟩ := layout23 (w := encodeC (.rwin j cap a b)) 0x7000003 28 3 0 j cap a b rfl rfl (by decide)
  refine ⟨lt, fun lone e hx => ?_⟩
  unfold decodeC; rw [h0, h1, h2, e0, e1, e2, e3]; exact take_ok rfl wf hx
theorem mq (j : BitVec 5) (cap : BitVec 4) (a : BitVec 5) (b : BitVec 5) : Statement (.mq j cap a b) := .ofC rfl rfl rfl fun wf => by
  obtain ⟨h0, h1, h2, e0, e1, e2, e3, lt⟩ := layout23 (w := encodeC (.mq j cap a b)) 0x7400000 29 0 0 j cap a b rfl rfl (by decide)
  refine ⟨lt, fun lone e hx => ?_⟩
  unfold decodeC; rw [h0, h1, h2, e0, e1, e2, e3]; exact take_ok rfl wf hx
theorem dharv (j : BitVec 5) (cap : BitVec 4) (a : BitVec 5) (b : BitVec 5) : Statement (.dharv j cap a b) := .ofC rfl rfl rfl fun wf => by
  obtain ⟨h0, h1, h2, e0, e1, e2, e3, lt⟩ := layout23 (w := encodeC (.dharv j cap a b)) 0x7400001 29 1 0 j cap a b rfl rfl (by decide)
  refine ⟨lt, fun lone e hx => ?_⟩
  unfold decodeC; rw [h0, h1, h2, e0, e1, e2, e3]; exact take_ok rfl wf hx
theorem pkset (a : BitVec 5) : Statement (.pkset a) := .ofC rfl rfl rfl fun wf => by
  obtain ⟨h0, h1, h2, h3, h4, e0, lt⟩ := layout24 (w := encodeC (.pkset a)) 0x7400002 29 2 0 0 0 a rfl rfl (by decide)
  refine ⟨lt, fun lone e hx => ?_⟩
  unfold decodeC; rw [h0, h1, h2, h3, h4, e0]; exact take_ok rfl wf hx
theorem pksetKey (j : BitVec 5) (a : BitVec 5) : Statement (.pksetKey j a) := .ofC rfl rfl rfl fun wf => by
  obtain ⟨h0, h1, h2, h3, e0, e1, lt⟩ := layout25 (w := encodeC (.pksetKey j a)) 0x7402002 29 2 1 0 j a rfl rfl (by decide)
  refine ⟨lt, fun lone e hx => ?_⟩
  unfold decodeC; rw [h0, h1, h2, h3, e0, e1]; exact take_ok rfl wf hx
theorem send (a : BitVec 5) (v : BitVec 5) (un : BitVec 2) : Statement (.send a v un) := .ofC rfl rfl rfl fun wf => by
  obtain ⟨h0, h1, e0, e1, e2, lt⟩ := layout26 (w := encodeC (.send a v un)) 0x8000000 32 0 a v un rfl rfl (by decide)
  refine ⟨lt, fun lone e hx => ?_⟩
  unfold decodeC; rw [h0, h1, e0, e1, e2]; exact take_ok rfl wf hx
theorem sendt (a : BitVec 5) (v : BitVec 5) (un : BitVec 2) (t : BitVec 5) : Statement (.sendt a v un t) := .ofC rfl rfl rfl fun wf => by
  obtain ⟨h0, h1, e0, e1, e2, e3, lt⟩ := layout27 (w := encodeC (.sendt a v un t)) 0x8400000 33 0 a v un t rfl rfl (by decide)
  refine ⟨lt, fun lone e hx => ?_⟩
  unfold decodeC; rw [h0, h1, e0, e1, e2, e3]; exact take_ok rfl wf hx
theorem ctrarm (a : BitVec 5) (n : BitVec 5) (g : BitVec 5) : Statement (.ctrarm a n g) := .ofC rfl rfl rfl fun wf => by
  obtain ⟨h0, h1, e0, e1, e2, lt⟩ := layout28 (w := encodeC (.ctrarm a n g)) 0x8800000 34 0 a n g rfl rfl (by decide)
  refine ⟨lt, fun lone e hx => ?_⟩
  unfold decodeC; rw [h0, h1, e0, e1, e2]; exact take_ok rfl wf hx
theorem done : Statement (.done) := .ofC rfl rfl rfl fun wf => by
  obtain ⟨h0, h1, h2, lt⟩ := layout29 (w := encodeC (.done)) 0x8C00000 35 0 0 rfl rfl (by decide)
  refine ⟨lt, fun lone e hx => ?_⟩
  unfold decodeC; rw [h0, h1, h2]; exact take_ok rfl wf hx
theorem yield : Statement (.yield) := .ofC rfl rfl rfl fun wf => by
  obtain ⟨h0, h1, h2, lt⟩ := layout29 (w := encodeC (.yield)) 0x8C00001 35 1 0 rfl rfl (by decide)
  refine ⟨lt, fun lone e hx => ?_⟩
  unfold decodeC; rw [h0, h1, h2]; exact take_ok rfl wf hx
theorem qstat (d : BitVec 5) : Statement (.qstat d) := .ofC rfl rfl rfl fun wf => by
  obtain ⟨h0, h1, h2, e0, lt⟩ := layout30 (w := encodeC (.qstat d)) 0x8C00002 35 2 0 d rfl rfl (by decide)
  refine ⟨lt, fun lone e hx => ?_⟩
  unfold decodeC; rw [h0, h1, h2, e0]; exact take_ok rfl wf hx
theorem abort (m : BitVec 1) : Statement (.abort m) := .ofC rfl rfl rfl fun wf => by
  obtain ⟨h0, h1, h2, e0, lt⟩ := layout31 (w := encodeC (.abort m)) 0x8C00003 35 3 0 m rfl rfl (by decide)
  refine ⟨lt, fun lone e hx => ?_⟩
  unfold decodeC; rw [h0, h1, h2, e0]; exact take_ok rfl wf hx
theorem gvtrd (d : BitVec 5) : Statement (.gvtrd d) := .ofC rfl rfl rfl fun wf => by
  obtain ⟨h0, h1, h2, e0, lt⟩ := layout30 (w := encodeC (.gvtrd d)) 0x8C00004 35 4 0 d rfl rfl (by decide)
  refine ⟨lt, fun lone e hx => ?_⟩
  unfold decodeC; rw [h0, h1, h2, e0]; exact take_ok rfl wf hx
theorem lvtrd (d : BitVec 5) : Statement (.lvtrd d) := .ofC rfl rfl rfl fun wf => by
  obtain ⟨h0, h1, h2, e0, lt⟩ := layout30 (w := encodeC (.lvtrd d)) 0x8C00005 35 5 0 d rfl rfl (by decide)
  refine ⟨lt, fun lone e hx => ?_⟩
  unfold decodeC; rw [h0, h1, h2, e0]; exact take_ok rfl wf hx
theorem stdef (g : BitVec 5) (cap : BitVec 4) (idx : BitVec 5) (sh : BitVec 2) (disp : BitVec 6) (ext : Option (BitVec 32)) : Statement (.stdef g cap idx sh disp ext) := .ofX rfl rfl rfl fun wf => by
  obtain ⟨h0, e0, e1, e2, e3, e4, lt⟩ := layout9 (w := encodeC (.stdef g cap idx sh disp ext)) 0x9000000 36 g cap idx sh disp rfl rfl (by decide)
  refine ⟨lt, fun lone e hx => ?_⟩
  unfold decodeC; rw [h0, e0, e1, e2, e3, e4, ← (show ext = _ from hx)]; exact takeX_ok rfl wf
theorem jobwait (d : BitVec 5) (j : BitVec 5) : Statement (.jobwait d j) := .ofC rfl rfl rfl fun wf => by
  obtain ⟨h0, h1, h2, e0, e1, lt⟩ := layout32 (w := encodeC (.jobwait d j)) 0xA000000 40 0 0 d j rfl rfl (by decide)
  refine ⟨lt, fun lone e hx => ?_⟩
  unfold decodeC; rw [h0, h1, h2, e0, e1]; exact take_ok rfl wf hx
theorem jobq (d : BitVec 5) (j : BitVec 5) : Statement (.jobq d j) := .ofC rfl rfl rfl fun wf => by
  obtain ⟨h0, h1, h2, e0, e1, lt⟩ := layout32 (w := encodeC (.jobq d j)) 0xA000001 40 1 0 d j rfl rfl (by decide)
  refine ⟨lt, fun lone e hx => ?_⟩
  unfold decodeC; rw [h0, h1, h2, e0, e1]; exact take_ok rfl wf hx
theorem copygo (j : BitVec 5) (cap : BitVec 4) : Statement (.copygo j cap) := .ofC rfl rfl rfl fun wf => by
  obtain ⟨h0, h1, e0, e1, lt⟩ := layout33 (w := encodeC (.copygo j cap)) 0xA400000 41 0 j cap rfl rfl (by decide)
  refine ⟨lt, fun lone e hx => ?_⟩
  unfold decodeC; rw [h0, h1, e0, e1]; exact take_ok rfl wf hx
theorem clgo (j : BitVec 5) (cap : BitVec 4) : Statement (.clgo j cap) := .ofC rfl rfl rfl fun wf => by
  obtain ⟨h0, h1, e0, e1, lt⟩ := layout33 (w := encodeC (.clgo j cap)) 0xA800000 42 0 j cap rfl rfl (by decide)
  refine ⟨lt, fun lone e hx => ?_⟩
  unfold decodeC; rw [h0, h1, e0, e1]; exact take_ok rfl wf hx
theorem skeep (a : BitVec 5) : Statement (.skeep a) := .ofC rfl rfl rfl fun wf => by
  obtain ⟨h0, h1, h2, e0, lt⟩ := layout34 (w := encodeC (.skeep a)) 0xAC00000 43 0 0 a rfl rfl (by decide)
  refine ⟨lt, fun lone e hx => ?_⟩
  unfold decodeC; rw [h0, h1, h2, e0]; exact take_ok rfl wf hx
theorem sksum (a : BitVec 5) (b : BitVec 5) : Statement (.sksum a b) := .ofC rfl rfl rfl fun wf => by
  obtain ⟨h0, h1, h2, e0, e1, lt⟩ := layout32 (w := encodeC (.sksum a b)) 0xAC00001 43 1 0 a b rfl rfl (by decide)
  refine ⟨lt, fun lone e hx => ?_⟩
  unfold decodeC; rw [h0, h1, h2, e0, e1]; exact take_ok rfl wf hx
theorem gang (d : BitVec 5) (sz : BitVec 2) : Statement (.gang d sz) := .ofC rfl rfl rfl fun wf => by
  obtain ⟨h0, h1, e0, e1, lt⟩ := layout35 (w := encodeC (.gang d sz)) 0xB000000 44 0 d sz rfl rfl (by decide)
  refine ⟨lt, fun lone e hx => ?_⟩
  unfold decodeC; rw [h0, h1, e0, e1]; exact take_ok rfl wf hx
theorem disband : Statement (.disband) := .ofC rfl rfl rfl fun wf => by
  obtain ⟨h0, h1, lt⟩ := layout1 (w := encodeC (.disband)) 0xB400000 45 0 rfl rfl (by decide)
  refine ⟨lt, fun lone e hx => ?_⟩
  unfold decodeC; rw [h0, h1]; exact take_ok rfl wf hx
theorem xchg (vd : BitVec 5) (vs : BitVec 5) (esz : BitVec 2) : Statement (.xchg vd vs esz) := .ofC rfl rfl rfl fun wf => by
  obtain ⟨h0, h1, e0, e1, e2, lt⟩ := layout26 (w := encodeC (.xchg vd vs esz)) 0xB800000 46 0 vd vs esz rfl rfl (by decide)
  refine ⟨lt, fun lone e hx => ?_⟩
  unfold decodeC; rw [h0, h1, e0, e1, e2]; exact take_ok rfl wf hx
theorem bar (lvl : BitVec 2) : Statement (.bar lvl) := .ofC rfl rfl rfl fun wf => by
  obtain ⟨h0, h1, e0, lt⟩ := layout36 (w := encodeC (.bar lvl)) 0xBC00000 47 0 lvl rfl rfl (by decide)
  refine ⟨lt, fun lone e hx => ?_⟩
  unfold decodeC; rw [h0, h1, e0]; exact take_ok rfl wf hx
theorem glaunch (j : BitVec 5) (cap : BitVec 4) : Statement (.glaunch j cap) := .ofC rfl rfl rfl fun wf => by
  obtain ⟨h0, h1, e0, e1, lt⟩ := layout33 (w := encodeC (.glaunch j cap)) 0xC000000 48 0 j cap rfl rfl (by decide)
  refine ⟨lt, fun lone e hx => ?_⟩
  unfold decodeC; rw [h0, h1, e0, e1]; exact take_ok rfl wf hx
theorem gtrig : Statement (.gtrig) := .ofC rfl rfl rfl fun wf => by
  obtain ⟨h0, h1, h2, lt⟩ := layout37 (w := encodeC (.gtrig)) 0xC400000 49 0 0 rfl rfl (by decide)
  refine ⟨lt, fun lone e hx => ?_⟩
  unfold decodeC; rw [h0, h1, h2]; exact take_ok rfl wf hx
theorem gexit (g : BitVec 5) : Statement (.gexit g) := .ofC rfl rfl rfl fun wf => by
  obtain ⟨h0, h1, h2, e0, lt⟩ := layout34 (w := encodeC (.gexit g)) 0xC400001 49 1 0 g rfl rfl (by decide)
  refine ⟨lt, fun lone e hx => ?_⟩
  unfold decodeC; rw [h0, h1, h2, e0]; exact take_ok rfl wf hx
theorem gid (d : BitVec 5) (sel : BitVec 3) : Statement (.gid d sel) := .ofC rfl rfl rfl fun wf => by
  obtain ⟨h0, h1, h2, e0, e1, lt⟩ := layout38 (w := encodeC (.gid d sel)) 0xC400002 49 2 0 d sel rfl rfl (by decide)
  refine ⟨lt, fun lone e hx => ?_⟩
  unfold decodeC; rw [h0, h1, h2, e0, e1]; exact take_ok rfl wf hx
theorem gcancel (g : BitVec 5) : Statement (.gcancel g) := .ofC rfl rfl rfl fun wf => by
  obtain ⟨h0, h1, e0, lt⟩ := layout39 (w := encodeC (.gcancel g)) 0xC800000 50 0 g rfl rfl (by decide)
  refine ⟨lt, fun lone e hx => ?_⟩
  unfold decodeC; rw [h0, h1, e0]; exact take_ok rfl wf hx
theorem trap (imm : BitVec 12) : Statement (.trap imm) := .ofC rfl rfl rfl fun wf => by
  obtain ⟨h0, h1, h2, e0, lt⟩ := layout40 (w := encodeC (.trap imm)) 0xD000000 52 0 0 imm rfl rfl (by decide)
  refine ⟨lt, fun lone e hx => ?_⟩
  unfold decodeC; rw [h0, h1, h2, e0]; exact take_ok rfl wf hx
theorem xret : Statement (.xret) := .ofC rfl rfl rfl fun wf => by
  obtain ⟨h0, h1, h2, lt⟩ := layout29 (w := encodeC (.xret)) 0xD000001 52 1 0 rfl rfl (by decide)
  refine ⟨lt, fun lone e hx => ?_⟩
  unfold decodeC; rw [h0, h1, h2]; exact take_ok rfl wf hx
theorem brk (imm : BitVec 12) : Statement (.brk imm) := .ofC rfl rfl rfl fun wf => by
  obtain ⟨h0, h1, h2, e0, lt⟩ := layout40 (w := encodeC (.brk imm)) 0xD000002 52 2 0 imm rfl rfl (by decide)
  refine ⟨lt, fun lone e hx => ?_⟩
  unfold decodeC; rw [h0, h1, h2, e0]; exact take_ok rfl wf hx
theorem idle : Statement (.idle) := .ofC rfl rfl rfl fun wf => by
  obtain ⟨h0, h1, h2, lt⟩ := layout29 (w := encodeC (.idle)) 0xD000003 52 3 0 rfl rfl (by decide)
  refine ⟨lt, fun lone e hx => ?_⟩
  unfold decodeC; rw [h0, h1, h2]; exact take_ok rfl wf hx
theorem fence (kind : BitVec 2) (scope : BitVec 3) : Statement (.fence kind scope) := .ofC rfl rfl rfl fun wf => by
  obtain ⟨h0, h1, h2, e0, e1, lt⟩ := layout41 (w := encodeC (.fence kind scope)) 0xD000004 52 4 0 kind scope rfl rfl (by decide)
  refine ⟨lt, fun lone e hx => ?_⟩
  unfold decodeC; rw [h0, h1, h2, e0, e1]; exact take_ok rfl wf hx
theorem csrr (d : BitVec 5) (csr : BitVec 10) : Statement (.csrr d csr) := .ofC rfl rfl rfl fun wf => by
  obtain ⟨h0, h1, h2, e0, e1, lt⟩ := layout42 (w := encodeC (.csrr d csr)) 0xD400000 53 0 0 d csr rfl rfl (by decide)
  refine ⟨lt, fun lone e hx => ?_⟩
  unfold decodeC; rw [h0, h1, h2, e0, e1]; exact take_ok rfl wf hx
theorem csrw (d : BitVec 5) (r : BitVec 5) (csr : BitVec 10) : Statement (.csrw d r csr) := .ofC rfl rfl rfl fun wf => by
  obtain ⟨h0, h1, e0, e1, e2, lt⟩ := layout43 (w := encodeC (.csrw d r csr)) 0xD400001 53 1 d r csr rfl rfl (by decide)
  refine ⟨lt, fun lone e hx => ?_⟩
  unfold decodeC; rw [h0, h1, e0, e1, e2]; exact take_ok rfl wf hx
theorem csrs (d : BitVec 5) (r : BitVec 5) (csr : BitVec 10) : Statement (.csrs d r csr) := .ofC rfl rfl rfl fun wf => by
  obtain ⟨h0, h1, e0, e1, e2, lt⟩ := layout43 (w := encodeC (.csrs d r csr)) 0xD400002 53 2 d r csr rfl rfl (by decide)
  refine ⟨lt, fun lone e hx => ?_⟩
  unfold decodeC; rw [h0, h1, e0, e1, e2]; exact take_ok rfl wf hx
theorem csrc (d : BitVec 5) (r : BitVec 5) (csr : BitVec 10) : Statement (.csrc d r csr) := .ofC rfl rfl rfl fun wf => by
  obtain ⟨h0, h1, e0, e1, e2, lt⟩ := layout43 (w := encodeC (.csrc d r csr)) 0xD400003 53 3 d r csr rfl rfl (by decide)
  refine ⟨lt, fun lone e hx => ?_⟩
  unfold decodeC; rw [h0, h1, e0, e1, e2]; exact take_ok rfl wf hx
theorem anop : Statement (.anop) := .ofA rfl rfl fun wf => by
  obtain ⟨h0, h1, lt⟩ := layout44 (w := encodeA (.anop)) 0x0 0 0 rfl rfl (by decide)
  refine ⟨lt, ?_⟩
  unfold decodeA; rw [h0, h1]; exact takeA_ok rfl wf
theorem add (d : BitVec 5) (a : BitVec 5) (b : BitVec 5) : Statement (.add d a b) := .ofA rfl rfl fun wf => by
  obtain ⟨h0, h1, h2, e0, e1, e2, lt⟩ := layout45 (w := encodeA (.add d a b)) 0x4000000 1 0 0 d a b rfl rfl (by decide)
  refine ⟨lt, ?_⟩
  unfold decodeA; rw [h0, h1, h2, e0, e1, e2]; exact takeA_ok rfl wf
theorem sub (d : BitVec 5) (a : BitVec 5) (b : BitVec 5) : Statement (.sub d a b) := .ofA rfl rfl fun wf => by
  obtain ⟨h0, h1, h2, e0, e1, e2, lt⟩ := layout45 (w := encodeA (.sub d a b)) 0x4000001 1 1 0 d a b rfl rfl (by decide)
  refine ⟨lt, ?_⟩
  unfold decodeA; rw [h0, h1, h2, e0, e1, e2]; exact takeA_ok rfl wf
theorem and (d : BitVec 5) (a : BitVec 5) (b : BitVec 5) : Statement (.and d a b) := .ofA rfl rfl fun wf => by
  obtain ⟨h0, h1, h2, e0, e1, e2, lt⟩ := layout45 (w := encodeA (.and d a b)) 0x4000002 1 2 0 d a b rfl rfl (by decide)
  refine ⟨lt, ?_⟩
  unfold decodeA; rw [h0, h1, h2, e0, e1, e2]; exact takeA_ok rfl wf
theorem or (d : BitVec 5) (a : BitVec 5) (b : BitVec 5) : Statement (.or d a b) := .ofA rfl rfl fun wf => by
  obtain ⟨h0, h1, h2, e0, e1, e2, lt⟩ := layout45 (w := encodeA (.or d a b)) 0x4000003 1 3 0 d a b rfl rfl (by decide)
  refine ⟨lt, ?_⟩
  unfold decodeA; rw [h0, h1, h2, e0, e1, e2]; exact takeA_ok rfl wf
theorem xor (d : BitVec 5) (a : BitVec 5) (b : BitVec 5) : Statement (.xor d a b) := .ofA rfl rfl fun wf => by
  obtain ⟨h0, h1, h2, e0, e1, e2, lt⟩ := layout45 (w := encodeA (.xor d a b)) 0x4000004 1 4 0 d a b rfl rfl (by decide)
  refine ⟨lt, ?_⟩
  unfold decodeA; rw [h0, h1, h2, e0, e1, e2]; exact takeA_ok rfl wf
theorem shl (d : BitVec 5) (a : BitVec 5) (b : BitVec 5) : Statement (.shl d a b) := .ofA rfl rfl fun wf => by
  obtain ⟨h0, h1, h2, e0, e1, e2, lt⟩ := layout45 (w := encodeA (.shl d a b)) 0x4000005 1 5 0 d a b rfl rfl (by decide)
  refine ⟨lt, ?_⟩
  unfold decodeA; rw [h0, h1, h2, e0, e1, e2]; exact takeA_ok rfl wf
theorem shr (d : BitVec 5) (a : BitVec 5) (b : BitVec 5) : Statement (.shr d a b) := .ofA rfl rfl fun wf => by
  obtain ⟨h0, h1, h2, e0, e1, e2, lt⟩ := layout45 (w := encodeA (.shr d a b)) 0x4000006 1 6 0 d a b rfl rfl (by decide)
  refine ⟨lt, ?_⟩
  unfold decodeA; rw [h0, h1, h2, e0, e1, e2]; exact takeA_ok rfl wf
theorem sra (d : BitVec 5) (a : BitVec 5) (b : BitVec 5) : Statement (.sra d a b) := .ofA rfl rfl fun wf => by
  obtain ⟨h0, h1, h2, e0, e1, e2, lt⟩ := layout45 (w := encodeA (.sra d a b)) 0x4000007 1 7 0 d a b rfl rfl (by decide)
  refine ⟨lt, ?_⟩
  unfold decodeA; rw [h0, h1, h2, e0, e1, e2]; exact takeA_ok rfl wf
theorem slt (d : BitVec 5) (a : BitVec 5) (b : BitVec 5) : Statement (.slt d a b) := .ofA rfl rfl fun wf => by
  obtain ⟨h0, h1, h2, e0, e1, e2, lt⟩ := layout45 (w := encodeA (.slt d a b)) 0x4000008 1 8 0 d a b rfl rfl (by decide)
  refine ⟨lt, ?_⟩
  unfold decodeA; rw [h0, h1, h2, e0, e1, e2]; exact takeA_ok rfl wf
theorem sltn (d : BitVec 5) (a : BitVec 5) (b : BitVec 5) : Statement (.sltn d a b) := .ofA rfl rfl fun wf => by
  obtain ⟨h0, h1, h2, e0, e1, e2, lt⟩ := layout45 (w := encodeA (.sltn d a b)) 0x4000009 1 9 0 d a b rfl rfl (by decide)
  refine ⟨lt, ?_⟩
  unfold decodeA; rw [h0, h1, h2, e0, e1, e2]; exact takeA_ok rfl wf
theorem min (d : BitVec 5) (a : BitVec 5) (b : BitVec 5) : Statement (.min d a b) := .ofA rfl rfl fun wf => by
  obtain ⟨h0, h1, h2, e0, e1, e2, lt⟩ := layout45 (w := encodeA (.min d a b)) 0x400000A 1 10 0 d a b rfl rfl (by decide)
  refine ⟨lt, ?_⟩
  unfold decodeA; rw [h0, h1, h2, e0, e1, e2]; exact takeA_ok rfl wf
theorem max (d : BitVec 5) (a : BitVec 5) (b : BitVec 5) : Statement (.max d a b) := .ofA rfl rfl fun wf => by
  obtain ⟨h0, h1, h2, e0, e1, e2, lt⟩ := layout45 (w := encodeA (.max d a b)) 0x400000B 1 11 0 d a b rfl rfl (by decide)
  refine ⟨lt, ?_⟩
  unfold decodeA; rw [h0, h1, h2, e0, e1, e2]; exact takeA_ok rfl wf
theorem minn (d : BitVec 5) (a : BitVec 5) (b : BitVec 5) : Statement (.minn d a b) := .ofA rfl rfl fun wf => by
  obtain ⟨h0, h1, h2, e0, e1, e2, lt⟩ := layout45 (w := encodeA (.minn d a b)) 0x400000C 1 12 0 d a b rfl rfl (by decide)
  refine ⟨lt, ?_⟩
  unfold decodeA; rw [h0, h1, h2, e0, e1, e2]; exact takeA_ok rfl wf
theorem maxn (d : BitVec 5) (a : BitVec 5) (b : BitVec 5) : Statement (.maxn d a b) := .ofA rfl rfl fun wf => by
  obtain ⟨h0, h1, h2, e0, e1, e2, lt⟩ := layout45 (w := encodeA (.maxn d a b)) 0x400000D 1 13 0 d a b rfl rfl (by decide)
  refine ⟨lt, ?_⟩
  unfold decodeA; rw [h0, h1, h2, e0, e1, e2]; exact takeA_ok rfl wf
theorem mul (d : BitVec 5) (a : BitVec 5) (b : BitVec 5) : Statement (.mul d a b) := .ofA rfl rfl fun wf => by
  obtain ⟨h0, h1, h2, e0, e1, e2, lt⟩ := layout45 (w := encodeA (.mul d a b)) 0x400000E 1 14 0 d a b rfl rfl (by decide)
  refine ⟨lt, ?_⟩
  unfold decodeA; rw [h0, h1, h2, e0, e1, e2]; exact takeA_ok rfl wf
theorem mulh (d : BitVec 5) (a : BitVec 5) (b : BitVec 5) : Statement (.mulh d a b) := .ofA rfl rfl fun wf => by
  obtain ⟨h0, h1, h2, e0, e1, e2, lt⟩ := layout45 (w := encodeA (.mulh d a b)) 0x400000F 1 15 0 d a b rfl rfl (by decide)
  refine ⟨lt, ?_⟩
  unfold decodeA; rw [h0, h1, h2, e0, e1, e2]; exact takeA_ok rfl wf
theorem mulhn (d : BitVec 5) (a : BitVec 5) (b : BitVec 5) : Statement (.mulhn d a b) := .ofA rfl rfl fun wf => by
  obtain ⟨h0, h1, h2, e0, e1, e2, lt⟩ := layout45 (w := encodeA (.mulhn d a b)) 0x4000010 1 16 0 d a b rfl rfl (by decide)
  refine ⟨lt, ?_⟩
  unfold decodeA; rw [h0, h1, h2, e0, e1, e2]; exact takeA_ok rfl wf
theorem div (d : BitVec 5) (a : BitVec 5) (b : BitVec 5) : Statement (.div d a b) := .ofA rfl rfl fun wf => by
  obtain ⟨h0, h1, h2, e0, e1, e2, lt⟩ := layout45 (w := encodeA (.div d a b)) 0x4000011 1 17 0 d a b rfl rfl (by decide)
  refine ⟨lt, ?_⟩
  unfold decodeA; rw [h0, h1, h2, e0, e1, e2]; exact takeA_ok rfl wf
theorem divn (d : BitVec 5) (a : BitVec 5) (b : BitVec 5) : Statement (.divn d a b) := .ofA rfl rfl fun wf => by
  obtain ⟨h0, h1, h2, e0, e1, e2, lt⟩ := layout45 (w := encodeA (.divn d a b)) 0x4000012 1 18 0 d a b rfl rfl (by decide)
  refine ⟨lt, ?_⟩
  unfold decodeA; rw [h0, h1, h2, e0, e1, e2]; exact takeA_ok rfl wf
theorem rem (d : BitVec 5) (a : BitVec 5) (b : BitVec 5) : Statement (.rem d a b) := .ofA rfl rfl fun wf => by
  obtain ⟨h0, h1, h2, e0, e1, e2, lt⟩ := layout45 (w := encodeA (.rem d a b)) 0x4000013 1 19 0 d a b rfl rfl (by decide)
  refine ⟨lt, ?_⟩
  unfold decodeA; rw [h0, h1, h2, e0, e1, e2]; exact takeA_ok rfl wf
theorem remn (d : BitVec 5) (a : BitVec 5) (b : BitVec 5) : Statement (.remn d a b) := .ofA rfl rfl fun wf => by
  obtain ⟨h0, h1, h2, e0, e1, e2, lt⟩ := layout45 (w := encodeA (.remn d a b)) 0x4000014 1 20 0 d a b rfl rfl (by decide)
  refine ⟨lt, ?_⟩
  unfold decodeA; rw [h0, h1, h2, e0, e1, e2]; exact takeA_ok rfl wf
theorem clz (d : BitVec 5) (a : BitVec 5) : Statement (.clz d a) := .ofA rfl rfl fun wf => by
  obtain ⟨h0, h1, h2, e0, e1, lt⟩ := layout46 (w := encodeA (.clz d a)) 0x4000015 1 21 0 d a rfl rfl (by decide)
  refine ⟨lt, ?_⟩
  unfold decodeA; rw [h0, h1, h2, e0, e1]; exact takeA_ok rfl wf
theorem ctz (d : BitVec 5) (a : BitVec 5) : Statement (.ctz d a) := .ofA rfl rfl fun wf => by
  obtain ⟨h0, h1, h2, e0, e1, lt⟩ := layout46 (w := encodeA (.ctz d a)) 0x4000016 1 22 0 d a rfl rfl (by decide)
  refine ⟨lt, ?_⟩
  unfold decodeA; rw [h0, h1, h2, e0, e1]; exact takeA_ok rfl wf
theorem popc (d : BitVec 5) (a : BitVec 5) : Statement (.popc d a) := .ofA rfl rfl fun wf => by
  obtain ⟨h0, h1, h2, e0, e1, lt⟩ := layout46 (w := encodeA (.popc d a)) 0x4000017 1 23 0 d a rfl rfl (by decide)
  refine ⟨lt, ?_⟩
  unfold decodeA; rw [h0, h1, h2, e0, e1]; exact takeA_ok rfl wf
theorem addi (d : BitVec 5) (a : BitVec 5) (imm : BitVec 16) : Statement (.addi d a imm) := .ofA rfl rfl fun wf => by
  obtain ⟨h0, e0, e1, e2, lt⟩ := layout47 (w := encodeA (.addi d a imm)) 0x8000000 2 d a imm rfl rfl (by decide)
  refine ⟨lt, ?_⟩
  unfold decodeA; rw [h0, e0, e1, e2]; exact takeA_ok rfl wf
theorem andi (d : BitVec 5) (a : BitVec 5) (imm : BitVec 16) : Statement (.andi d a imm) := .ofA rfl rfl fun wf => by
  obtain ⟨h0, e0, e1, e2, lt⟩ := layout47 (w := encodeA (.andi d a imm)) 0xC000000 3 d a imm rfl rfl (by decide)
  refine ⟨lt, ?_⟩
  unfold decodeA; rw [h0, e0, e1, e2]; exact takeA_ok rfl wf
theorem ori (d : BitVec 5) (a : BitVec 5) (imm : BitVec 16) : Statement (.ori d a imm) := .ofA rfl rfl fun wf => by
  obtain ⟨h0, e0, e1, e2, lt⟩ := layout47 (w := encodeA (.ori d a imm)) 0x10000000 4 d a imm rfl rfl (by decide)
  refine ⟨lt, ?_⟩
  unfold decodeA; rw [h0, e0, e1, e2]; exact takeA_ok rfl wf
theorem xori (d : BitVec 5) (a : BitVec 5) (imm : BitVec 16) : Statement (.xori d a imm) := .ofA rfl rfl fun wf => by
  obtain ⟨h0, e0, e1, e2, lt⟩ := layout47 (w := encodeA (.xori d a imm)) 0x14000000 5 d a imm rfl rfl (by decide)
  refine ⟨lt, ?_⟩
  unfold decodeA; rw [h0, e0, e1, e2]; exact takeA_ok rfl wf
theorem shli (d : BitVec 5) (a : BitVec 5) (imm : BitVec 6) : Statement (.shli d a imm) := .ofA rfl rfl fun wf => by
  obtain ⟨h0, h1, e0, e1, e2, lt⟩ := layout48 (w := encodeA (.shli d a imm)) 0x18000000 6 0 d a imm rfl rfl (by decide)
  refine ⟨lt, ?_⟩
  unfold decodeA; rw [h0, h1, e0, e1, e2]; exact takeA_ok rfl wf
theorem shri (d : BitVec 5) (a : BitVec 5) (imm : BitVec 6) : Statement (.shri d a imm) := .ofA rfl rfl fun wf => by
  obtain ⟨h0, h1, e0, e1, e2, lt⟩ := layout48 (w := encodeA (.shri d a imm)) 0x1C000000 7 0 d a imm rfl rfl (by decide)
  refine ⟨lt, ?_⟩
  unfold decodeA; rw [h0, h1, e0, e1, e2]; exact takeA_ok rfl wf
theorem srai (d : BitVec 5) (a : BitVec 5) (imm : BitVec 6) : Statement (.srai d a imm) := .ofA rfl rfl fun wf => by
  obtain ⟨h0, h1, e0, e1, e2, lt⟩ := layout48 (w := encodeA (.srai d a imm)) 0x20000000 8 0 d a imm rfl rfl (by decide)
  refine ⟨lt, ?_⟩
  unfold decodeA; rw [h0, h1, e0, e1, e2]; exact takeA_ok rfl wf
theorem slti (d : BitVec 5) (a : BitVec 5) (imm : BitVec 16) : Statement (.slti d a imm) := .ofA rfl rfl fun wf => by
  obtain ⟨h0, e0, e1, e2, lt⟩ := layout47 (w := encodeA (.slti d a imm)) 0x24000000 9 d a imm rfl rfl (by decide)
  refine ⟨lt, ?_⟩
  unfold decodeA; rw [h0, e0, e1, e2]; exact takeA_ok rfl wf
theorem fadd (d : BitVec 5) (a : BitVec 5) (b : BitVec 5) (rnd : BitVec 3) (ty : BitVec 1) : Statement (.fadd d a b rnd ty) := .ofA rfl rfl fun wf => by
  obtain ⟨h0, h1, h2, e0, e1, e2, e3, e4, lt⟩ := layout49 (w := encodeA (.fadd d a b rnd ty)) 0x40000000 16 0 0 d a b rnd ty rfl rfl (by decide)
  refine ⟨lt, ?_⟩
  unfold decodeA; rw [h0, h1, h2, e0, e1, e2, e3, e4]; exact takeA_ok rfl wf
theorem fsub (d : BitVec 5) (a : BitVec 5) (b : BitVec 5) (rnd : BitVec 3) (ty : BitVec 1) : Statement (.fsub d a b rnd ty) := .ofA rfl rfl fun wf => by
  obtain ⟨h0, h1, h2, e0, e1, e2, e3, e4, lt⟩ := layout49 (w := encodeA (.fsub d a b rnd ty)) 0x40000001 16 1 0 d a b rnd ty rfl rfl (by decide)
  refine ⟨lt, ?_⟩
  unfold decodeA; rw [h0, h1, h2, e0, e1, e2, e3, e4]; exact takeA_ok rfl wf
theorem fmul (d : BitVec 5) (a : BitVec 5) (b : BitVec 5) (rnd : BitVec 3) (ty : BitVec 1) : Statement (.fmul d a b rnd ty) := .ofA rfl rfl fun wf => by
  obtain ⟨h0, h1, h2, e0, e1, e2, e3, e4, lt⟩ := layout49 (w := encodeA (.fmul d a b rnd ty)) 0x40000002 16 2 0 d a b rnd ty rfl rfl (by decide)
  refine ⟨lt, ?_⟩
  unfold decodeA; rw [h0, h1, h2, e0, e1, e2, e3, e4]; exact takeA_ok rfl wf
theorem ffma (d : BitVec 5) (a : BitVec 5) (b : BitVec 5) (c : BitVec 5) (rnd : BitVec 3) (ty : BitVec 1) : Statement (.ffma d a b c rnd ty) := .ofA rfl rfl fun wf => by
  obtain ⟨h0, h1, e0, e1, e2, e3, e4, e5, lt⟩ := layout50 (w := encodeA (.ffma d a b c rnd ty)) 0x40000003 16 3 d a b c rnd ty rfl rfl (by decide)
  refine ⟨lt, ?_⟩
  unfold decodeA; rw [h0, h1, e0, e1, e2, e3, e4, e5]; exact takeA_ok rfl wf
theorem fmin (d : BitVec 5) (a : BitVec 5) (b : BitVec 5) (ty : BitVec 1) : Statement (.fmin d a b ty) := .ofA rfl rfl fun wf => by
  obtain ⟨h0, h1, h2, e0, e1, e2, e3, lt⟩ := layout51 (w := encodeA (.fmin d a b ty)) 0x44000000 17 0 0 d a b ty rfl rfl (by decide)
  refine ⟨lt, ?_⟩
  unfold decodeA; rw [h0, h1, h2, e0, e1, e2, e3]; exact takeA_ok rfl wf
theorem fmax (d : BitVec 5) (a : BitVec 5) (b : BitVec 5) (ty : BitVec 1) : Statement (.fmax d a b ty) := .ofA rfl rfl fun wf => by
  obtain ⟨h0, h1, h2, e0, e1, e2, e3, lt⟩ := layout51 (w := encodeA (.fmax d a b ty)) 0x44000001 17 1 0 d a b ty rfl rfl (by decide)
  refine ⟨lt, ?_⟩
  unfold decodeA; rw [h0, h1, h2, e0, e1, e2, e3]; exact takeA_ok rfl wf
theorem fsgn (d : BitVec 5) (a : BitVec 5) (b : BitVec 5) (sbf : BitVec 3) (ty : BitVec 1) : Statement (.fsgn d a b sbf ty) := .ofA rfl rfl fun wf => by
  obtain ⟨h0, h1, h2, e0, e1, e2, e3, e4, lt⟩ := layout52 (w := encodeA (.fsgn d a b sbf ty)) 0x44000002 17 2 0 d a b sbf ty rfl rfl (by decide)
  refine ⟨lt, ?_⟩
  unfold decodeA; rw [h0, h1, h2, e0, e1, e2, e3, e4]; exact takeA_ok rfl wf
theorem fcmp (d : BitVec 5) (a : BitVec 5) (b : BitVec 5) (sbf : BitVec 3) (ty : BitVec 1) : Statement (.fcmp d a b sbf ty) := .ofA rfl rfl fun wf => by
  obtain ⟨h0, h1, h2, e0, e1, e2, e3, e4, lt⟩ := layout52 (w := encodeA (.fcmp d a b sbf ty)) 0x44000003 17 3 0 d a b sbf ty rfl rfl (by decide)
  refine ⟨lt, ?_⟩
  unfold decodeA; rw [h0, h1, h2, e0, e1, e2, e3, e4]; exact takeA_ok rfl wf
theorem fclass (d : BitVec 5) (a : BitVec 5) (ty : BitVec 1) : Statement (.fclass d a ty) := .ofA rfl rfl fun wf => by
  obtain ⟨h0, h1, h2, e0, e1, e2, lt⟩ := layout53 (w := encodeA (.fclass d a ty)) 0x44000004 17 4 0 d a ty rfl rfl (by decide)
  refine ⟨lt, ?_⟩
  unfold decodeA; rw [h0, h1, h2, e0, e1, e2]; exact takeA_ok rfl wf
theorem fcvt (d : BitVec 5) (a : BitVec 5) (tof : BitVec 5) (frf : BitVec 5) (rnd : BitVec 3) (sat : BitVec 1) : Statement (.fcvt d a tof frf rnd sat) := .ofA rfl rfl fun wf => by
  obtain ⟨h0, h1, e0, e1, e2, e3, e4, e5, lt⟩ := layout50 (w := encodeA (.fcvt d a tof frf rnd sat)) 0x48000000 18 0 d a tof frf rnd sat rfl rfl (by decide)
  refine ⟨lt, ?_⟩
  unfold decodeA; rw [h0, h1, e0, e1, e2, e3, e4, e5]; exact takeA_ok rfl wf
theorem vadd (d : BitVec 5) (a : BitVec 5) (b : BitVec 5) (k : BitVec 3) (ty : BitVec 4) (sat : BitVec 1) (rnd : BitVec 3) : Statement (.vadd d a b k ty sat rnd) := .ofA rfl rfl fun wf => by
  obtain ⟨h0, e0, e1, e2, e3, e4, e5, e6, lt⟩ := layout54 (w := encodeA (.vadd d a b k ty sat rnd)) 0x60000000 24 d a b k ty sat rnd rfl rfl (by decide)
  refine ⟨lt, ?_⟩
  unfold decodeA; rw [h0, e0, e1, e2, e3, e4, e5, e6]; exact takeA_ok rfl wf
theorem vsub (d : BitVec 5) (a : BitVec 5) (b : BitVec 5) (k : BitVec 3) (ty : BitVec 4) (sat : BitVec 1) (rnd : BitVec 3) : Statement (.vsub d a b k ty sat rnd) := .ofA rfl rfl fun wf => by
  obtain ⟨h0, e0, e1, e2, e3, e4, e5, e6, lt⟩ := layout54 (w := encodeA (.vsub d a b k ty sat rnd)) 0x64000000 25 d a b k ty sat rnd rfl rfl (by decide)
  refine ⟨lt, ?_⟩
  unfold decodeA; rw [h0, e0, e1, e2, e3, e4, e5, e6]; exact takeA_ok rfl wf
theorem vmul (d : BitVec 5) (a : BitVec 5) (b : BitVec 5) (k : BitVec 3) (ty : BitVec 4) (sat : BitVec 1) (rnd : BitVec 3) : Statement (.vmul d a b k ty sat rnd) := .ofA rfl rfl fun wf => by
  obtain ⟨h0, e0, e1, e2, e3, e4, e5, e6, lt⟩ := layout54 (w := encodeA (.vmul d a b k ty sat rnd)) 0x68000000 26 d a b k ty sat rnd rfl rfl (by decide)
  refine ⟨lt, ?_⟩
  unfold decodeA; rw [h0, e0, e1, e2, e3, e4, e5, e6]; exact takeA_ok rfl wf
theorem vfma (d : BitVec 5) (a : BitVec 5) (b : BitVec 5) (k : BitVec 3) (ty : BitVec 4) (sat : BitVec 1) (rnd : BitVec 3) : Statement (.vfma d a b k ty sat rnd) := .ofA rfl rfl fun wf => by
  obtain ⟨h0, e0, e1, e2, e3, e4, e5, e6, lt⟩ := layout54 (w := encodeA (.vfma d a b k ty sat rnd)) 0x6C000000 27 d a b k ty sat rnd rfl rfl (by decide)
  refine ⟨lt, ?_⟩
  unfold decodeA; rw [h0, e0, e1, e2, e3, e4, e5, e6]; exact takeA_ok rfl wf
theorem vmin (d : BitVec 5) (a : BitVec 5) (b : BitVec 5) (k : BitVec 3) (ty : BitVec 4) (rnd : BitVec 3) : Statement (.vmin d a b k ty rnd) := .ofA rfl rfl fun wf => by
  obtain ⟨h0, h1, e0, e1, e2, e3, e4, e5, lt⟩ := layout55 (w := encodeA (.vmin d a b k ty rnd)) 0x70000000 28 0 d a b k ty rnd rfl rfl (by decide)
  refine ⟨lt, ?_⟩
  unfold decodeA; rw [h0, h1, e0, e1, e2, e3, e4, e5]; exact takeA_ok rfl wf
theorem vmax (d : BitVec 5) (a : BitVec 5) (b : BitVec 5) (k : BitVec 3) (ty : BitVec 4) (rnd : BitVec 3) : Statement (.vmax d a b k ty rnd) := .ofA rfl rfl fun wf => by
  obtain ⟨h0, h1, e0, e1, e2, e3, e4, e5, lt⟩ := layout55 (w := encodeA (.vmax d a b k ty rnd)) 0x74000000 29 0 d a b k ty rnd rfl rfl (by decide)
  refine ⟨lt, ?_⟩
  unfold decodeA; rw [h0, h1, e0, e1, e2, e3, e4, e5]; exact takeA_ok rfl wf
theorem vabs (d : BitVec 5) (a : BitVec 5) (k : BitVec 3) (ty : BitVec 4) (sat : BitVec 1) (rnd : BitVec 3) : Statement (.vabs d a k ty sat rnd) := .ofA rfl rfl fun wf => by
  obtain ⟨h0, h1, e0, e1, e2, e3, e4, e5, lt⟩ := layout56 (w := encodeA (.vabs d a k ty sat rnd)) 0x78000000 30 0 d a k ty sat rnd rfl rfl (by decide)
  refine ⟨lt, ?_⟩
  unfold decodeA; rw [h0, h1, e0, e1, e2, e3, e4, e5]; exact takeA_ok rfl wf
theorem vneg (d : BitVec 5) (a : BitVec 5) (k : BitVec 3) (ty : BitVec 4) (sat : BitVec 1) (rnd : BitVec 3) : Statement (.vneg d a k ty sat rnd) := .ofA rfl rfl fun wf => by
  obtain ⟨h0, h1, e0, e1, e2, e3, e4, e5, lt⟩ := layout56 (w := encodeA (.vneg d a k ty sat rnd)) 0x7C000000 31 0 d a k ty sat rnd rfl rfl (by decide)
  refine ⟨lt, ?_⟩
  unfold decodeA; rw [h0, h1, e0, e1, e2, e3, e4, e5]; exact takeA_ok rfl wf
theorem vand (d : BitVec 5) (a : BitVec 5) (b : BitVec 5) (k : BitVec 3) : Statement (.vand d a b k) := .ofA rfl rfl fun wf => by
  obtain ⟨h0, h1, h2, e0, e1, e2, e3, lt⟩ := layout57 (w := encodeA (.vand d a b k)) 0x80000000 32 0 0 d a b k rfl rfl (by decide)
  refine ⟨lt, ?_⟩
  unfold decodeA; rw [h0, h1, h2, e0, e1, e2, e3]; exact takeA_ok rfl wf
theorem vor (d : BitVec 5) (a : BitVec 5) (b : BitVec 5) (k : BitVec 3) : Statement (.vor d a b k) := .ofA rfl rfl fun wf => by
  obtain ⟨h0, h1, h2, e0, e1, e2, e3, lt⟩ := layout57 (w := encodeA (.vor d a b k)) 0x80000001 32 1 0 d a b k rfl rfl (by decide)
  refine ⟨lt, ?_⟩
  unfold decodeA; rw [h0, h1, h2, e0, e1, e2, e3]; exact takeA_ok rfl wf
theorem vxor (d : BitVec 5) (a : BitVec 5) (b : BitVec 5) (k : BitVec 3) : Statement (.vxor d a b k) := .ofA rfl rfl fun wf => by
  obtain ⟨h0, h1, h2, e0, e1, e2, e3, lt⟩ := layout57 (w := encodeA (.vxor d a b k)) 0x80000002 32 2 0 d a b k rfl rfl (by decide)
  refine ⟨lt, ?_⟩
  unfold decodeA; rw [h0, h1, h2, e0, e1, e2, e3]; exact takeA_ok rfl wf
theorem vshl (d : BitVec 5) (a : BitVec 5) (b : BitVec 5) (k : BitVec 3) (ty : BitVec 4) : Statement (.vshl d a b k ty) := .ofA rfl rfl fun wf => by
  obtain ⟨h0, h1, h2, e0, e1, e2, e3, e4, lt⟩ := layout58 (w := encodeA (.vshl d a b k ty)) 0x84000000 33 0 0 d a b k ty rfl rfl (by decide)
  refine ⟨lt, ?_⟩
  unfold decodeA; rw [h0, h1, h2, e0, e1, e2, e3, e4]; exact takeA_ok rfl wf
theorem vshr (d : BitVec 5) (a : BitVec 5) (b : BitVec 5) (k : BitVec 3) (ty : BitVec 4) : Statement (.vshr d a b k ty) := .ofA rfl rfl fun wf => by
  obtain ⟨h0, h1, h2, e0, e1, e2, e3, e4, lt⟩ := layout58 (w := encodeA (.vshr d a b k ty)) 0x84000001 33 1 0 d a b k ty rfl rfl (by decide)
  refine ⟨lt, ?_⟩
  unfold decodeA; rw [h0, h1, h2, e0, e1, e2, e3, e4]; exact takeA_ok rfl wf
theorem vsra (d : BitVec 5) (a : BitVec 5) (b : BitVec 5) (k : BitVec 3) (ty : BitVec 4) : Statement (.vsra d a b k ty) := .ofA rfl rfl fun wf => by
  obtain ⟨h0, h1, h2, e0, e1, e2, e3, e4, lt⟩ := layout58 (w := encodeA (.vsra d a b k ty)) 0x84000002 33 2 0 d a b k ty rfl rfl (by decide)
  refine ⟨lt, ?_⟩
  unfold decodeA; rw [h0, h1, h2, e0, e1, e2, e3, e4]; exact takeA_ok rfl wf
theorem vclamp (d : BitVec 5) (a : BitVec 5) (b : BitVec 5) (k : BitVec 3) (ty : BitVec 4) (rnd : BitVec 3) : Statement (.vclamp d a b k ty rnd) := .ofA rfl rfl fun wf => by
  obtain ⟨h0, h1, e0, e1, e2, e3, e4, e5, lt⟩ := layout55 (w := encodeA (.vclamp d a b k ty rnd)) 0x88000000 34 0 d a b k ty rnd rfl rfl (by decide)
  refine ⟨lt, ?_⟩
  unfold decodeA; rw [h0, h1, e0, e1, e2, e3, e4, e5]; exact takeA_ok rfl wf
theorem vcmp (kd : BitVec 3) (a : BitVec 5) (b : BitVec 5) (k : BitVec 3) (ty : BitVec 4) (cnd : BitVec 3) : Statement (.vcmp kd a b k ty cnd) := .ofA rfl rfl fun wf => by
  obtain ⟨h0, h1, h2, e0, e1, e2, e3, e4, e5, lt⟩ := layout59 (w := encodeA (.vcmp kd a b k ty cnd)) 0x8C000000 35 0 0 kd a b k ty cnd rfl rfl (by decide)
  refine ⟨lt, ?_⟩
  unfold decodeA; rw [h0, h1, h2, e0, e1, e2, e3, e4, e5]; exact takeA_ok rfl wf
theorem vsel (d : BitVec 5) (a : BitVec 5) (b : BitVec 5) (k : BitVec 3) (ty : BitVec 4) (rnd : BitVec 3) : Statement (.vsel d a b k ty rnd) := .ofA rfl rfl fun wf => by
  obtain ⟨h0, h1, e0, e1, e2, e3, e4, e5, lt⟩ := layout55 (w := encodeA (.vsel d a b k ty rnd)) 0x90000000 36 0 d a b k ty rnd rfl rfl (by decide)
  refine ⟨lt, ?_⟩
  unfold decodeA; rw [h0, h1, e0, e1, e2, e3, e4, e5]; exact takeA_ok rfl wf
theorem vcvt (d : BitVec 5) (a : BitVec 5) (tof : BitVec 5) (k : BitVec 3) (frf : BitVec 5) (rnd : BitVec 3) : Statement (.vcvt d a tof k frf rnd) := .ofA rfl rfl fun wf => by
  obtain ⟨h0, e0, e1, e2, e3, e4, e5, lt⟩ := layout60 (w := encodeA (.vcvt d a tof k frf rnd)) 0x94000000 37 d a tof k frf rnd rfl rfl (by decide)
  refine ⟨lt, ?_⟩
  unfold decodeA; rw [h0, e0, e1, e2, e3, e4, e5]; exact takeA_ok rfl wf
theorem vcvtSat (d : BitVec 5) (a : BitVec 5) (tof : BitVec 5) (k : BitVec 3) (frf : BitVec 5) (rnd : BitVec 3) : Statement (.vcvtSat d a tof k frf rnd) := .ofA rfl rfl fun wf => by
  obtain ⟨h0, e0, e1, e2, e3, e4, e5, lt⟩ := layout60 (w := encodeA (.vcvtSat d a tof k frf rnd)) 0x98000000 38 d a tof k frf rnd rfl rfl (by decide)
  refine ⟨lt, ?_⟩
  unfold decodeA; rw [h0, e0, e1, e2, e3, e4, e5]; exact takeA_ok rfl wf
theorem vsfu (d : BitVec 5) (a : BitVec 5) (fn : BitVec 5) (k : BitVec 3) (ty : BitVec 4) (rnd : BitVec 3) : Statement (.vsfu d a fn k ty rnd) := .ofA rfl rfl fun wf => by
  obtain ⟨h0, h1, h2, e0, e1, e2, e3, e4, e5, lt⟩ := layout61 (w := encodeA (.vsfu d a fn k ty rnd)) 0x9C000000 39 0 d a fn k ty rnd rfl rfl (by decide)
  refine ⟨lt, ?_⟩
  unfold decodeA; rw [h0, h1, h2, e0, e1, e2, e3, e4, e5]; exact (if_pos (by simp only [Instr.wf, Bool.and_eq_true, decide_eq_true_eq] at wf; exact wf.1.1)).trans (takeA_ok rfl wf)
theorem vred (d : BitVec 5) (a : BitVec 5) (fn : BitVec 5) (k : BitVec 3) (ty : BitVec 4) (rnd : BitVec 3) : Statement (.vred d a fn k ty rnd) := .ofA rfl rfl fun wf => by
  obtain ⟨h0, h1, h2, e0, e1, e2, e3, e4, e5, lt⟩ := layout61 (w := encodeA (.vred d a fn k ty rnd)) 0xA0000000 40 0 d a fn k ty rnd rfl rfl (by decide)
  refine ⟨lt, ?_⟩
  unfold decodeA; rw [h0, h1, h2, e0, e1, e2, e3, e4, e5]; exact (if_pos (by simp only [Instr.wf, Bool.and_eq_true, decide_eq_true_eq] at wf; exact wf.1.1)).trans (takeA_ok rfl wf)
theorem vdot (d : BitVec 5) (a : BitVec 5) (b : BitVec 5) (k : BitVec 3) (ty : BitVec 4) (rnd : BitVec 3) : Statement (.vdot d a b k ty rnd) := .ofA rfl rfl fun wf => by
  obtain ⟨h0, h1, e0, e1, e2, e3, e4, e5, lt⟩ := layout55 (w := encodeA (.vdot d a b k ty rnd)) 0xA4000000 41 0 d a b k ty rnd rfl rfl (by decide)
  refine ⟨lt, ?_⟩
  unfold decodeA; rw [h0, h1, e0, e1, e2, e3, e4, e5]; exact takeA_ok rfl wf
theorem vperm (d : BitVec 5) (a : BitVec 5) (b : BitVec 5) (k : BitVec 3) (ty : BitVec 4) (rnd : BitVec 3) : Statement (.vperm d a b k ty rnd) := .ofA rfl rfl fun wf => by
  obtain ⟨h0, h1, e0, e1, e2, e3, e4, e5, lt⟩ := layout55 (w := encodeA (.vperm d a b k ty rnd)) 0xA8000000 42 0 d a b k ty rnd rfl rfl (by decide)
  refine ⟨lt, ?_⟩
  unfold decodeA; rw [h0, h1, e0, e1, e2, e3, e4, e5]; exact takeA_ok rfl wf
theorem vsplat (d : BitVec 5) (a : BitVec 5) (k : BitVec 3) (ty : BitVec 4) (rnd : BitVec 3) : Statement (.vsplat d a k ty rnd) := .ofA rfl rfl fun wf => by
  obtain ⟨h0, h1, h2, e0, e1, e2, e3, e4, lt⟩ := layout62 (w := encodeA (.vsplat d a k ty rnd)) 0xAC000000 43 0 0 d a k ty rnd rfl rfl (by decide)
  refine ⟨lt, ?_⟩
  unfold decodeA; rw [h0, h1, h2, e0, e1, e2, e3, e4]; exact takeA_ok rfl wf
theorem vmovg (d : BitVec 5) (r : BitVec 5) (idx : BitVec 6) (ty : BitVec 4) : Statement (.vmovg d r idx ty) := .ofA rfl rfl fun wf => by
  obtain ⟨h0, h1, h2, e0, e1, e2, e3, lt⟩ := layout63 (w := encodeA (.vmovg d r idx ty)) 0xB0000000 44 0 0 d r idx ty rfl rfl (by decide)
  refine ⟨lt, ?_⟩
  unfold decodeA; rw [h0, h1, h2, e0, e1, e2, e3]; exact takeA_ok rfl wf
theorem vmovl (d : BitVec 5) (r : BitVec 5) (idx : BitVec 6) (ty : BitVec 4) : Statement (.vmovl d r idx ty) := .ofA rfl rfl fun wf => by
  obtain ⟨h0, h1, h2, e0, e1, e2, e3, lt⟩ := layout63 (w := encodeA (.vmovl d r idx ty)) 0xB4000000 45 0 0 d r idx ty rfl rfl (by decide)
  refine ⟨lt, ?_⟩
  unfold decodeA; rw [h0, h1, h2, e0, e1, e2, e3]; exact takeA_ok rfl wf
theorem kand (d : BitVec 3) (a : BitVec 3) (b : BitVec 3) : Statement (.kand d a b) := .ofA rfl rfl fun wf => by
  obtain ⟨h0, h1, h2, e0, e1, e2, lt⟩ := layout64 (w := encodeA (.kand d a b)) 0xC0000000 48 0 0 d a b rfl rfl (by decide)
  refine ⟨lt, ?_⟩
  unfold decodeA; rw [h0, h1, h2, e0, e1, e2]; exact takeA_ok rfl wf
theorem kor (d : BitVec 3) (a : BitVec 3) (b : BitVec 3) : Statement (.kor d a b) := .ofA rfl rfl fun wf => by
  obtain ⟨h0, h1, h2, e0, e1, e2, lt⟩ := layout64 (w := encodeA (.kor d a b)) 0xC0000001 48 1 0 d a b rfl rfl (by decide)
  refine ⟨lt, ?_⟩
  unfold decodeA; rw [h0, h1, h2, e0, e1, e2]; exact takeA_ok rfl wf
theorem kxor (d : BitVec 3) (a : BitVec 3) (b : BitVec 3) : Statement (.kxor d a b) := .ofA rfl rfl fun wf => by
  obtain ⟨h0, h1, h2, e0, e1, e2, lt⟩ := layout64 (w := encodeA (.kxor d a b)) 0xC0000002 48 2 0 d a b rfl rfl (by decide)
  refine ⟨lt, ?_⟩
  unfold decodeA; rw [h0, h1, h2, e0, e1, e2]; exact takeA_ok rfl wf
theorem knot (d : BitVec 3) (a : BitVec 3) : Statement (.knot d a) := .ofA rfl rfl fun wf => by
  obtain ⟨h0, h1, h2, e0, e1, lt⟩ := layout65 (w := encodeA (.knot d a)) 0xC0000003 48 3 0 d a rfl rfl (by decide)
  refine ⟨lt, ?_⟩
  unfold decodeA; rw [h0, h1, h2, e0, e1]; exact takeA_ok rfl wf
theorem kmovK (d : BitVec 3) (a : BitVec 3) : Statement (.kmovK d a) := .ofA rfl rfl fun wf => by
  obtain ⟨h0, h1, h2, e0, e1, lt⟩ := layout65 (w := encodeA (.kmovK d a)) 0xC0000004 48 4 0 d a rfl rfl (by decide)
  refine ⟨lt, ?_⟩
  unfold decodeA; rw [h0, h1, h2, e0, e1]; exact takeA_ok rfl wf
theorem kpop (g : BitVec 5) (k : BitVec 3) : Statement (.kpop g k) := .ofA rfl rfl fun wf => by
  obtain ⟨h0, h1, h2, e0, e1, lt⟩ := layout66 (w := encodeA (.kpop g k)) 0xC4000000 49 0 0 g k rfl rfl (by decide)
  refine ⟨lt, ?_⟩
  unfold decodeA; rw [h0, h1, h2, e0, e1]; exact takeA_ok rfl wf
theorem kmovKg (g : BitVec 5) (k : BitVec 3) : Statement (.kmovKg g k) := .ofA rfl rfl fun wf => by
  obtain ⟨h0, h1, h2, e0, e1, lt⟩ := layout66 (w := encodeA (.kmovKg g k)) 0xC4000001 49 1 0 g k rfl rfl (by decide)
  refine ⟨lt, ?_⟩
  unfold decodeA; rw [h0, h1, h2, e0, e1]; exact takeA_ok rfl wf
theorem kmovGk (g : BitVec 5) (k : BitVec 3) : Statement (.kmovGk g k) := .ofA rfl rfl fun wf => by
  obtain ⟨h0, h1, h2, e0, e1, lt⟩ := layout66 (w := encodeA (.kmovGk g k)) 0xC4000002 49 2 0 g k rfl rfl (by decide)
  refine ⟨lt, ?_⟩
  unfold decodeA; rw [h0, h1, h2, e0, e1]; exact takeA_ok rfl wf
theorem policyRet (a : BitVec 3) : Statement (.policyRet a) := .ofPolicy rfl rfl <| by
  obtain ⟨h0, h1, h2, e0, lt⟩ := layout67 (w := encodePolicy (.policyRet a)) 0x0 0 0 0 a rfl rfl (by decide)
  refine ⟨lt, ?_⟩
  unfold decodePolicy; rw [h0, h1, h2, e0]; rfl
theorem policyLi (d : BitVec 3) (imm : BitVec 17) : Statement (.policyLi d imm) := .ofPolicy rfl rfl <| by
  obtain ⟨h0, h1, e0, e1, lt⟩ := layout68 (w := encodePolicy (.policyLi d imm)) 0x4000000 1 0 d imm rfl rfl (by decide)
  refine ⟨lt, ?_⟩
  unfold decodePolicy; rw [h0, h1, e0, e1]; rfl
theorem policyAdd (d : BitVec 3) (a : BitVec 3) (b : BitVec 3) : Statement (.policyAdd d a b) := .ofPolicy rfl rfl <| by
  obtain ⟨h0, h1, e0, e1, e2, lt⟩ := layout69 (w := encodePolicy (.policyAdd d a b)) 0x8000000 2 0 d a b rfl rfl (by decide)
  refine ⟨lt, ?_⟩
  unfold decodePolicy; rw [h0, h1, e0, e1, e2]; rfl
theorem policySub (d : BitVec 3) (a : BitVec 3) (b : BitVec 3) : Statement (.policySub d a b) := .ofPolicy rfl rfl <| by
  obtain ⟨h0, h1, e0, e1, e2, lt⟩ := layout69 (w := encodePolicy (.policySub d a b)) 0xC000000 3 0 d a b rfl rfl (by decide)
  refine ⟨lt, ?_⟩
  unfold decodePolicy; rw [h0, h1, e0, e1, e2]; rfl
theorem policyAnd (d : BitVec 3) (a : BitVec 3) (b : BitVec 3) : Statement (.policyAnd d a b) := .ofPolicy rfl rfl <| by
  obtain ⟨h0, h1, e0, e1, e2, lt⟩ := layout69 (w := encodePolicy (.policyAnd d a b)) 0x10000000 4 0 d a b rfl rfl (by decide)
  refine ⟨lt, ?_⟩
  unfold decodePolicy; rw [h0, h1, e0, e1, e2]; rfl
theorem policyOr (d : BitVec 3) (a : BitVec 3) (b : BitVec 3) : Statement (.policyOr d a b) := .ofPolicy rfl rfl <| by
  obtain ⟨h0, h1, e0, e1, e2, lt⟩ := layout69 (w := encodePolicy (.policyOr d a b)) 0x14000000 5 0 d a b rfl rfl (by decide)
  refine ⟨lt, ?_⟩
  unfold decodePolicy; rw [h0, h1, e0, e1, e2]; rfl
theorem policyShli (d : BitVec 3) (a : BitVec 3) (imm : BitVec 17) : Statement (.policyShli d a imm) := .ofPolicy rfl rfl <| by
  obtain ⟨h0, h1, e0, e1, e2, lt⟩ := layout70 (w := encodePolicy (.policyShli d a imm)) 0x18000000 6 0 d a imm rfl rfl (by decide)
  refine ⟨lt, ?_⟩
  unfold decodePolicy; rw [h0, h1, e0, e1, e2]; rfl
theorem policyShri (d : BitVec 3) (a : BitVec 3) (imm : BitVec 17) : Statement (.policyShri d a imm) := .ofPolicy rfl rfl <| by
  obtain ⟨h0, h1, e0, e1, e2, lt⟩ := layout70 (w := encodePolicy (.policyShri d a imm)) 0x1C000000 7 0 d a imm rfl rfl (by decide)
  refine ⟨lt, ?_⟩
  unfold decodePolicy; rw [h0, h1, e0, e1, e2]; rfl
theorem policyMinn (d : BitVec 3) (a : BitVec 3) (b : BitVec 3) : Statement (.policyMinn d a b) := .ofPolicy rfl rfl <| by
  obtain ⟨h0, h1, e0, e1, e2, lt⟩ := layout69 (w := encodePolicy (.policyMinn d a b)) 0x20000000 8 0 d a b rfl rfl (by decide)
  refine ⟨lt, ?_⟩
  unfold decodePolicy; rw [h0, h1, e0, e1, e2]; rfl
theorem policyMaxn (d : BitVec 3) (a : BitVec 3) (b : BitVec 3) : Statement (.policyMaxn d a b) := .ofPolicy rfl rfl <| by
  obtain ⟨h0, h1, e0, e1, e2, lt⟩ := layout69 (w := encodePolicy (.policyMaxn d a b)) 0x24000000 9 0 d a b rfl rfl (by decide)
  refine ⟨lt, ?_⟩
  unfold decodePolicy; rw [h0, h1, e0, e1, e2]; rfl
theorem policyLdf (d : BitVec 3) (a : BitVec 3) (imm : BitVec 17) : Statement (.policyLdf d a imm) := .ofPolicy rfl rfl <| by
  obtain ⟨h0, h1, e0, e1, e2, lt⟩ := layout70 (w := encodePolicy (.policyLdf d a imm)) 0x28000000 10 0 d a imm rfl rfl (by decide)
  refine ⟨lt, ?_⟩
  unfold decodePolicy; rw [h0, h1, e0, e1, e2]; rfl
theorem policyLds (d : BitVec 3) (imm : BitVec 17) : Statement (.policyLds d imm) := .ofPolicy rfl rfl <| by
  obtain ⟨h0, h1, e0, e1, lt⟩ := layout68 (w := encodePolicy (.policyLds d imm)) 0x2C000000 11 0 d imm rfl rfl (by decide)
  refine ⟨lt, ?_⟩
  unfold decodePolicy; rw [h0, h1, e0, e1]; rfl
theorem policySts (a : BitVec 3) (imm : BitVec 17) : Statement (.policySts a imm) := .ofPolicy rfl rfl <| by
  obtain ⟨h0, h1, h2, e0, e1, lt⟩ := layout71 (w := encodePolicy (.policySts a imm)) 0x30000000 12 0 0 a imm rfl rfl (by decide)
  refine ⟨lt, ?_⟩
  unfold decodePolicy; rw [h0, h1, h2, e0, e1]; rfl
theorem policyBltn (a : BitVec 3) (b : BitVec 3) (imm : BitVec 17) : Statement (.policyBltn a b imm) := .ofPolicy rfl rfl <| by
  obtain ⟨h0, h1, e0, e1, e2, lt⟩ := layout72 (w := encodePolicy (.policyBltn a b imm)) 0x34000000 13 0 a b imm rfl rfl (by decide)
  refine ⟨lt, ?_⟩
  unfold decodePolicy; rw [h0, h1, e0, e1, e2]; rfl
theorem policyBeq (a : BitVec 3) (b : BitVec 3) (imm : BitVec 17) : Statement (.policyBeq a b imm) := .ofPolicy rfl rfl <| by
  obtain ⟨h0, h1, e0, e1, e2, lt⟩ := layout72 (w := encodePolicy (.policyBeq a b imm)) 0x38000000 14 0 a b imm rfl rfl (by decide)
  refine ⟨lt, ?_⟩
  unfold decodePolicy; rw [h0, h1, e0, e1, e2]; rfl
theorem policyArgmax (d : BitVec 3) (imm : BitVec 17) : Statement (.policyArgmax d imm) := .ofPolicy rfl rfl <| by
  obtain ⟨h0, h1, e0, e1, lt⟩ := layout68 (w := encodePolicy (.policyArgmax d imm)) 0x3C000000 15 0 d imm rfl rfl (by decide)
  refine ⟨lt, ?_⟩
  unfold decodePolicy; rw [h0, h1, e0, e1]; rfl
theorem policyArgmin (d : BitVec 3) (imm : BitVec 17) : Statement (.policyArgmin d imm) := .ofPolicy rfl rfl <| by
  obtain ⟨h0, h1, e0, e1, lt⟩ := layout68 (w := encodePolicy (.policyArgmin d imm)) 0x40000000 16 0 d imm rfl rfl (by decide)
  refine ⟨lt, ?_⟩
  unfold decodePolicy; rw [h0, h1, e0, e1]; rfl
theorem stallExpire : Statement .stallExpire := .ofStep rfl rfl rfl
theorem fixedLatencyWriteback : Statement .fixedLatencyWriteback := .ofStep rfl rfl rfl
theorem variableResultLand : Statement .variableResultLand := .ofStep rfl rfl rfl
theorem activate : Statement .activate := .ofStep rfl rfl rfl
theorem hwdogExpire : Statement .hwdogExpire := .ofStep rfl rfl rfl
theorem spuriousWake : Statement .spuriousWake := .ofStep rfl rfl rfl
theorem memoryIssue : Statement .memoryIssue := .ofStep rfl rfl rfl
theorem writeReach : Statement .writeReach := .ofStep rfl rfl rfl
theorem writePerform : Statement .writePerform := .ofStep rfl rfl rfl
theorem readReturn : Statement .readReturn := .ofStep rfl rfl rfl
theorem viewAdd : Statement .viewAdd := .ofStep rfl rfl rfl
theorem hostCompletion : Statement .hostCompletion := .ofStep rfl rfl rfl
theorem walkStart : Statement .walkStart := .ofStep rfl rfl rfl
theorem walkComplete : Statement .walkComplete := .ofStep rfl rfl rfl
theorem outboundDepart : Statement .outboundDepart := .ofStep rfl rfl rfl
theorem messageArrive : Statement .messageArrive := .ofStep rfl rfl rfl
theorem ejectAccept : Statement .ejectAccept := .ofStep rfl rfl rfl
theorem antiMessageArrive : Statement .antiMessageArrive := .ofStep rfl rfl rfl
theorem gangDecision : Statement .gangDecision := .ofStep rfl rfl rfl
theorem barrierComplete : Statement .barrierComplete := .ofStep rfl rfl rfl
theorem gvtRoundStart : Statement .gvtRoundStart := .ofStep rfl rfl rfl
theorem gvtPass : Statement .gvtPass := .ofStep rfl rfl rfl
theorem gvtAdopt : Statement .gvtAdopt := .ofStep rfl rfl rfl
theorem commit : Statement .commit := .ofStep rfl rfl rfl
theorem mapRequest : Statement .mapRequest := .ofStep rfl rfl rfl
theorem grantRequest : Statement .grantRequest := .ofStep rfl rfl rfl
theorem grantComplete : Statement .grantComplete := .ofStep rfl rfl rfl
theorem unmapRequest : Statement .unmapRequest := .ofStep rfl rfl rfl
theorem shootdownAck : Statement .shootdownAck := .ofStep rfl rfl rfl
theorem unmapComplete : Statement .unmapComplete := .ofStep rfl rfl rfl
theorem reservation : Statement .reservation := .ofStep rfl rfl rfl
theorem reservationDrop : Statement .reservationDrop := .ofStep rfl rfl rfl
theorem windowUpdate : Statement .windowUpdate := .ofStep rfl rfl rfl
theorem mqQuery : Statement .mqQuery := .ofStep rfl rfl rfl
theorem mapResult : Statement .mapResult := .ofStep rfl rfl rfl
theorem contextFree : Statement .contextFree := .ofStep rfl rfl rfl
theorem harvestSwap : Statement .harvestSwap := .ofStep rfl rfl rfl
theorem harvestComplete : Statement .harvestComplete := .ofStep rfl rfl rfl
theorem trackEnableComplete : Statement .trackEnableComplete := .ofStep rfl rfl rfl
theorem matrixAccept : Statement .matrixAccept := .ofStep rfl rfl rfl
theorem mma : Statement .mma := .ofStep rfl rfl rfl
theorem mmz : Statement .mmz := .ofStep rfl rfl rfl
theorem kStep : Statement .kStep := .ofStep rfl rfl rfl
theorem accld : Statement .accld := .ofStep rfl rfl rfl
theorem accst : Statement .accst := .ofStep rfl rfl rfl
theorem wld : Statement .wld := .ofStep rfl rfl rfl
theorem fctx : Statement .fctx := .ofStep rfl rfl rfl
theorem stab : Statement .stab := .ofStep rfl rfl rfl
theorem atab : Statement .atab := .ofStep rfl rfl rfl
theorem msync : Statement .msync := .ofStep rfl rfl rfl
theorem stageEmptyWrite : Statement .stageEmptyWrite := .ofStep rfl rfl rfl
theorem matrixCommandComplete : Statement .matrixCommandComplete := .ofStep rfl rfl rfl
theorem mctlResume : Statement .mctlResume := .ofStep rfl rfl rfl
theorem mctlCancel : Statement .mctlCancel := .ofStep rfl rfl rfl
theorem cukick : Statement .cukick := .ofStep rfl rfl rfl
theorem clkick : Statement .clkick := .ofStep rfl rfl rfl
theorem chainStart : Statement .chainStart := .ofStep rfl rfl rfl
theorem copy : Statement .copy := .ofStep rfl rfl rfl
theorem deal : Statement .deal := .ofStep rfl rfl rfl
theorem gath : Statement .gath := .ofStep rfl rfl rfl
theorem loopEntry : Statement .loopEntry := .ofStep rfl rfl rfl
theorem cond : Statement .cond := .ofStep rfl rfl rfl
theorem jump : Statement .jump := .ofStep rfl rfl rfl
theorem flag : Statement .flag := .ofStep rfl rfl rfl
theorem note : Statement .note := .ofStep rfl rfl rfl
theorem stop : Statement .stop := .ofStep rfl rfl rfl
theorem chainCarryOnStop : Statement .chainCarryOnStop := .ofStep rfl rfl rfl
theorem collectiveRendezvous : Statement .collectiveRendezvous := .ofStep rfl rfl rfl
theorem rendezvousTimeout : Statement .rendezvousTimeout := .ofStep rfl rfl rfl
theorem allreduce : Statement .allreduce := .ofStep rfl rfl rfl
theorem reduceScatter : Statement .reduceScatter := .ofStep rfl rfl rfl
theorem allgather : Statement .allgather := .ofStep rfl rfl rfl
theorem broadcast : Statement .broadcast := .ofStep rfl rfl rfl
theorem allToAll : Statement .allToAll := .ofStep rfl rfl rfl
theorem collectiveComplete : Statement .collectiveComplete := .ofStep rfl rfl rfl
theorem launchAccept : Statement .launchAccept := .ofStep rfl rfl rfl
theorem roomRequest : Statement .roomRequest := .ofStep rfl rfl rfl
theorem blockGrant : Statement .blockGrant := .ofStep rfl rfl rfl
theorem blockRelease : Statement .blockRelease := .ofStep rfl rfl rfl
theorem blockRetire : Statement .blockRetire := .ofStep rfl rfl rfl
theorem blockFaultReport : Statement .blockFaultReport := .ofStep rfl rfl rfl
theorem gridTrigger : Statement .gridTrigger := .ofStep rfl rfl rfl
theorem gridComplete : Statement .gridComplete := .ofStep rfl rfl rfl
theorem gridCancelPoint : Statement .gridCancelPoint := .ofStep rfl rfl rfl
theorem cancelArrive : Statement .cancelArrive := .ofStep rfl rfl rfl
theorem cancelAck : Statement .cancelAck := .ofStep rfl rfl rfl
theorem blockStop : Statement .blockStop := .ofStep rfl rfl rfl
theorem graphGridNode : Statement .graphGridNode := .ofStep rfl rfl rfl
theorem graphCopyNode : Statement .graphCopyNode := .ofStep rfl rfl rfl
theorem graphSignalNode : Statement .graphSignalNode := .ofStep rfl rfl rfl
theorem graphConditionalNode : Statement .graphConditionalNode := .ofStep rfl rfl rfl
theorem graphLoopNode : Statement .graphLoopNode := .ofStep rfl rfl rfl
theorem graphSwitchNode : Statement .graphSwitchNode := .ofStep rfl rfl rfl
theorem graphFinish : Statement .graphFinish := .ofStep rfl rfl rfl
theorem tailWrite : Statement .tailWrite := .ofStep rfl rfl rfl
theorem policyPick : Statement .policyPick := .ofStep rfl rfl rfl
theorem nop : Statement .nop := .ofStep rfl rfl rfl
theorem grid : Statement .grid := .ofStep rfl rfl rfl
theorem graph : Statement .graph := .ofStep rfl rfl rfl
theorem signal : Statement .signal := .ofStep rfl rfl rfl
theorem wait : Statement .wait := .ofStep rfl rfl rfl
theorem queueRelease : Statement .queueRelease := .ofStep rfl rfl rfl
theorem sliceEnd : Statement .sliceEnd := .ofStep rfl rfl rfl
theorem stAgreement : Statement .stAgreement := .ofStep rfl rfl rfl
theorem switchPoint : Statement .switchPoint := .ofStep rfl rfl rfl
theorem overrunStop : Statement .overrunStop := .ofStep rfl rfl rfl
theorem coreSectionSave : Statement .coreSectionSave := .ofStep rfl rfl rfl
theorem switchOutComplete : Statement .switchOutComplete := .ofStep rfl rfl rfl
theorem switchIn : Statement .switchIn := .ofStep rfl rfl rfl
theorem dumpStart : Statement .dumpStart := .ofStep rfl rfl rfl
theorem dumpComplete : Statement .dumpComplete := .ofStep rfl rfl rfl
theorem heartbeat : Statement .heartbeat := .ofStep rfl rfl rfl
theorem commandProcessorRestart : Statement .commandProcessorRestart := .ofStep rfl rfl rfl
theorem garretReload : Statement .garretReload := .ofStep rfl rfl rfl
theorem contextPreservingEngineReset : Statement .contextPreservingEngineReset := .ofStep rfl rfl rfl
theorem dieReset : Statement .dieReset := .ofStep rfl rfl rfl
theorem packageReset : Statement .packageReset := .ofStep rfl rfl rfl
theorem firmwareImageStage : Statement .firmwareImageStage := .ofStep rfl rfl rfl
theorem liveUpdate : Statement .liveUpdate := .ofStep rfl rfl rfl
theorem liveUpdateRollback : Statement .liveUpdateRollback := .ofStep rfl rfl rfl
theorem create : Statement .create := .ofStep rfl rfl rfl
theorem reset : Statement .reset := .ofStep rfl rfl rfl
theorem reinit : Statement .reinit := .ofStep rfl rfl rfl
theorem destroy : Statement .destroy := .ofStep rfl rfl rfl
theorem freeze : Statement .freeze := .ofStep rfl rfl rfl
theorem unfreeze : Statement .unfreeze := .ofStep rfl rfl rfl
theorem keyload : Statement .keyload := .ofStep rfl rfl rfl
theorem keyclear : Statement .keyclear := .ofStep rfl rfl rfl
theorem track : Statement .track := .ofStep rfl rfl rfl
theorem timelineAllocate : Statement .timelineAllocate := .ofStep rfl rfl rfl
theorem timelineFree : Statement .timelineFree := .ofStep rfl rfl rfl
theorem partition : Statement .partition := .ofStep rfl rfl rfl
theorem loft : Statement .loft := .ofStep rfl rfl rfl
theorem attic : Statement .attic := .ofStep rfl rfl rfl
theorem atticrearm : Statement .atticrearm := .ofStep rfl rfl rfl
theorem qcreate : Statement .qcreate := .ofStep rfl rfl rfl
theorem qdestroy : Statement .qdestroy := .ofStep rfl rfl rfl
theorem policy : Statement .policy := .ofStep rfl rfl rfl
theorem timeoff : Statement .timeoff := .ofStep rfl rfl rfl
theorem sample : Statement .sample := .ofStep rfl rfl rfl
theorem sampleLatch : Statement .sampleLatch := .ofStep rfl rfl rfl
theorem dbgHalt : Statement .dbgHalt := .ofStep rfl rfl rfl
theorem dbgResume : Statement .dbgResume := .ofStep rfl rfl rfl
theorem dbgStep : Statement .dbgStep := .ofStep rfl rfl rfl
theorem dbgBrken : Statement .dbgBrken := .ofStep rfl rfl rfl
theorem dbgTrace : Statement .dbgTrace := .ofStep rfl rfl rfl
theorem unlock : Statement .unlock := .ofStep rfl rfl rfl
theorem spacereq : Statement .spacereq := .ofStep rfl rfl rfl
theorem noderead : Statement .noderead := .ofStep rfl rfl rfl
theorem htwrite : Statement .htwrite := .ofStep rfl rfl rfl
theorem htwriteBase : Statement .htwriteBase := .ofStep rfl rfl rfl
theorem mailboxUnassignedCode : Statement .mailboxUnassignedCode := .ofStep rfl rfl rfl
theorem pmreq : Statement .pmreq := .ofStep rfl rfl rfl
theorem pmAnswer : Statement .pmAnswer := .ofStep rfl rfl rfl
theorem halfReadLatch : Statement .halfReadLatch := .ofStep rfl rfl rfl
theorem controlRegisterWrite : Statement .controlRegisterWrite := .ofStep rfl rfl rfl
theorem hostPostedWrite : Statement .hostPostedWrite := .ofStep rfl rfl rfl
theorem hostRead : Statement .hostRead := .ofStep rfl rfl rfl
theorem getVersion : Statement .getVersion := .ofStep rfl rfl rfl
theorem getCapabilities : Statement .getCapabilities := .ofStep rfl rfl rfl
theorem negotiateAlgorithms : Statement .negotiateAlgorithms := .ofStep rfl rfl rfl
theorem getDigests : Statement .getDigests := .ofStep rfl rfl rfl
theorem getCertificate : Statement .getCertificate := .ofStep rfl rfl rfl
theorem challenge : Statement .challenge := .ofStep rfl rfl rfl
theorem getMeasurements : Statement .getMeasurements := .ofStep rfl rfl rfl
theorem clusterResetRelease : Statement .clusterResetRelease := .ofStep rfl rfl rfl
theorem matrixRampStep : Statement .matrixRampStep := .ofStep rfl rfl rfl
theorem matrixIdleTimeout : Statement .matrixIdleTimeout := .ofStep rfl rfl rfl
theorem thermalThrottleStep : Statement .thermalThrottleStep := .ofStep rfl rfl rfl
theorem thermalFatal : Statement .thermalFatal := .ofStep rfl rfl rfl
theorem pcieLinkReset : Statement .pcieLinkReset := .ofStep rfl rfl rfl
theorem reservationAnswer : Statement .reservationAnswer := .ofStep rfl rfl rfl
theorem reservationRelease : Statement .reservationRelease := .ofStep rfl rfl rfl

end RoundTrip

end Sys2Proof.Laws
end

