-- ==== Sys2Proof/Laws/State.lean ====
section
/-! SUPPORT. What each update of the state leaves alone, one lemma for each field: true by definition, for `simp`. -/

namespace Sys2Proof.Machine

/-! `setCore` changes `cores` alone. -/

@[simp] theorem State.mem_setCore (s : State) (i : Nat) (c : Core) : (s.setCore i c).mem = s.mem := rfl
@[simp] theorem State.tags_setCore (s : State) (i : Nat) (c : Core) : (s.setCore i c).tags = s.tags := rfl
@[simp] theorem State.stamps_setCore (s : State) (i : Nat) (c : Core) : (s.setCore i c).stamps = s.stamps := rfl
@[simp] theorem State.poison_setCore (s : State) (i : Nat) (c : Core) : (s.setCore i c).poison = s.poison := rfl
@[simp] theorem State.clusters_setCore (s : State) (i : Nat) (c : Core) : (s.setCore i c).clusters = s.clusters := rfl
@[simp] theorem State.dies_setCore (s : State) (i : Nat) (c : Core) : (s.setCore i c).dies = s.dies := rfl
@[simp] theorem State.pkgs_setCore (s : State) (i : Nat) (c : Core) : (s.setCore i c).pkgs = s.pkgs := rfl
@[simp] theorem State.ctxs_setCore (s : State) (i : Nat) (c : Core) : (s.setCore i c).ctxs = s.ctxs := rfl
@[simp] theorem State.timelines_setCore (s : State) (i : Nat) (c : Core) : (s.setCore i c).timelines = s.timelines := rfl
@[simp] theorem State.blocks_setCore (s : State) (i : Nat) (c : Core) : (s.setCore i c).blocks = s.blocks := rfl
@[simp] theorem State.nextBlock_setCore (s : State) (i : Nat) (c : Core) : (s.setCore i c).nextBlock = s.nextBlock := rfl
@[simp] theorem State.dirs_setCore (s : State) (i : Nat) (c : Core) : (s.setCore i c).dirs = s.dirs := rfl
@[simp] theorem State.channels_setCore (s : State) (i : Nat) (c : Core) : (s.setCore i c).channels = s.channels := rfl
@[simp] theorem State.outbox_setCore (s : State) (i : Nat) (c : Core) : (s.setCore i c).outbox = s.outbox := rfl
@[simp] theorem State.hostAnswer_setCore (s : State) (i : Nat) (c : Core) : (s.setCore i c).hostAnswer = s.hostAnswer := rfl
@[simp] theorem State.notices_setCore (s : State) (i : Nat) (c : Core) : (s.setCore i c).notices = s.notices := rfl
@[simp] theorem State.eager_setCore (s : State) (i : Nat) (c : Core) : (s.setCore i c).eager = s.eager := rfl
@[simp] theorem State.writes_setCore (s : State) (i : Nat) (c : Core) : (s.setCore i c).writes = s.writes := rfl
@[simp] theorem State.views_setCore (s : State) (i : Nat) (c : Core) : (s.setCore i c).views = s.views := rfl
@[simp] theorem State.arrivals_setCore (s : State) (i : Nat) (c : Core) : (s.setCore i c).arrivals = s.arrivals := rfl
@[simp] theorem State.nextWrite_setCore (s : State) (i : Nat) (c : Core) : (s.setCore i c).nextWrite = s.nextWrite := rfl
@[simp] theorem State.polRun_setCore (s : State) (i : Nat) (c : Core) : (s.setCore i c).polRun = s.polRun := rfl
@[simp] theorem State.reply_setCore (s : State) (i : Nat) (c : Core) : (s.setCore i c).reply = s.reply := rfl
@[simp] theorem State.agenda_setCore (s : State) (i : Nat) (c : Core) : (s.setCore i c).agenda = s.agenda := rfl
@[simp] theorem State.args_setCore (s : State) (i : Nat) (c : Core) : (s.setCore i c).args = s.args := rfl
@[simp] theorem State.cur_setCore (s : State) (i : Nat) (c : Core) : (s.setCore i c).cur = s.cur := rfl
@[simp] theorem State.focus_setCore (s : State) (i : Nat) (c : Core) : (s.setCore i c).focus = s.focus := rfl
@[simp] theorem State.bundle_setCore (s : State) (i : Nat) (c : Core) : (s.setCore i c).bundle = s.bundle := rfl
@[simp] theorem State.performed_setCore (s : State) (i : Nat) (c : Core) : (s.setCore i c).performed = s.performed := rfl
@[simp] theorem State.clock_setCore (s : State) (i : Nat) (c : Core) : (s.setCore i c).clock = s.clock := rfl
@[simp] theorem State.podTime_setCore (s : State) (i : Nat) (c : Core) : (s.setCore i c).podTime = s.podTime := rfl
@[simp] theorem State.free_setCore (s : State) (i : Nat) (c : Core) : (s.setCore i c).free = s.free := rfl

/-! `modCore` changes `cores` alone. -/

@[simp] theorem State.mem_modCore (s : State) (i : Nat) (f : Core → Core) : (s.modCore i f).mem = s.mem := rfl
@[simp] theorem State.tags_modCore (s : State) (i : Nat) (f : Core → Core) : (s.modCore i f).tags = s.tags := rfl
@[simp] theorem State.stamps_modCore (s : State) (i : Nat) (f : Core → Core) : (s.modCore i f).stamps = s.stamps := rfl
@[simp] theorem State.poison_modCore (s : State) (i : Nat) (f : Core → Core) : (s.modCore i f).poison = s.poison := rfl
@[simp] theorem State.clusters_modCore (s : State) (i : Nat) (f : Core → Core) : (s.modCore i f).clusters = s.clusters := rfl
@[simp] theorem State.dies_modCore (s : State) (i : Nat) (f : Core → Core) : (s.modCore i f).dies = s.dies := rfl
@[simp] theorem State.pkgs_modCore (s : State) (i : Nat) (f : Core → Core) : (s.modCore i f).pkgs = s.pkgs := rfl
@[simp] theorem State.ctxs_modCore (s : State) (i : Nat) (f : Core → Core) : (s.modCore i f).ctxs = s.ctxs := rfl
@[simp] theorem State.timelines_modCore (s : State) (i : Nat) (f : Core → Core) : (s.modCore i f).timelines = s.timelines := rfl
@[simp] theorem State.blocks_modCore (s : State) (i : Nat) (f : Core → Core) : (s.modCore i f).blocks = s.blocks := rfl
@[simp] theorem State.nextBlock_modCore (s : State) (i : Nat) (f : Core → Core) : (s.modCore i f).nextBlock = s.nextBlock := rfl
@[simp] theorem State.dirs_modCore (s : State) (i : Nat) (f : Core → Core) : (s.modCore i f).dirs = s.dirs := rfl
@[simp] theorem State.channels_modCore (s : State) (i : Nat) (f : Core → Core) : (s.modCore i f).channels = s.channels := rfl
@[simp] theorem State.outbox_modCore (s : State) (i : Nat) (f : Core → Core) : (s.modCore i f).outbox = s.outbox := rfl
@[simp] theorem State.hostAnswer_modCore (s : State) (i : Nat) (f : Core → Core) : (s.modCore i f).hostAnswer = s.hostAnswer := rfl
@[simp] theorem State.notices_modCore (s : State) (i : Nat) (f : Core → Core) : (s.modCore i f).notices = s.notices := rfl
@[simp] theorem State.eager_modCore (s : State) (i : Nat) (f : Core → Core) : (s.modCore i f).eager = s.eager := rfl
@[simp] theorem State.writes_modCore (s : State) (i : Nat) (f : Core → Core) : (s.modCore i f).writes = s.writes := rfl
@[simp] theorem State.views_modCore (s : State) (i : Nat) (f : Core → Core) : (s.modCore i f).views = s.views := rfl
@[simp] theorem State.arrivals_modCore (s : State) (i : Nat) (f : Core → Core) : (s.modCore i f).arrivals = s.arrivals := rfl
@[simp] theorem State.nextWrite_modCore (s : State) (i : Nat) (f : Core → Core) : (s.modCore i f).nextWrite = s.nextWrite := rfl
@[simp] theorem State.polRun_modCore (s : State) (i : Nat) (f : Core → Core) : (s.modCore i f).polRun = s.polRun := rfl
@[simp] theorem State.reply_modCore (s : State) (i : Nat) (f : Core → Core) : (s.modCore i f).reply = s.reply := rfl
@[simp] theorem State.agenda_modCore (s : State) (i : Nat) (f : Core → Core) : (s.modCore i f).agenda = s.agenda := rfl
@[simp] theorem State.args_modCore (s : State) (i : Nat) (f : Core → Core) : (s.modCore i f).args = s.args := rfl
@[simp] theorem State.cur_modCore (s : State) (i : Nat) (f : Core → Core) : (s.modCore i f).cur = s.cur := rfl
@[simp] theorem State.focus_modCore (s : State) (i : Nat) (f : Core → Core) : (s.modCore i f).focus = s.focus := rfl
@[simp] theorem State.bundle_modCore (s : State) (i : Nat) (f : Core → Core) : (s.modCore i f).bundle = s.bundle := rfl
@[simp] theorem State.performed_modCore (s : State) (i : Nat) (f : Core → Core) : (s.modCore i f).performed = s.performed := rfl
@[simp] theorem State.clock_modCore (s : State) (i : Nat) (f : Core → Core) : (s.modCore i f).clock = s.clock := rfl
@[simp] theorem State.podTime_modCore (s : State) (i : Nat) (f : Core → Core) : (s.modCore i f).podTime = s.podTime := rfl
@[simp] theorem State.free_modCore (s : State) (i : Nat) (f : Core → Core) : (s.modCore i f).free = s.free := rfl

/-! `setSlotAt` changes `cores` alone. -/

@[simp] theorem State.mem_setSlotAt (s : State) (c i : Nat) (x : Slot) : (s.setSlotAt c i x).mem = s.mem := rfl
@[simp] theorem State.tags_setSlotAt (s : State) (c i : Nat) (x : Slot) : (s.setSlotAt c i x).tags = s.tags := rfl
@[simp] theorem State.stamps_setSlotAt (s : State) (c i : Nat) (x : Slot) : (s.setSlotAt c i x).stamps = s.stamps := rfl
@[simp] theorem State.poison_setSlotAt (s : State) (c i : Nat) (x : Slot) : (s.setSlotAt c i x).poison = s.poison := rfl
@[simp] theorem State.clusters_setSlotAt (s : State) (c i : Nat) (x : Slot) : (s.setSlotAt c i x).clusters = s.clusters := rfl
@[simp] theorem State.dies_setSlotAt (s : State) (c i : Nat) (x : Slot) : (s.setSlotAt c i x).dies = s.dies := rfl
@[simp] theorem State.pkgs_setSlotAt (s : State) (c i : Nat) (x : Slot) : (s.setSlotAt c i x).pkgs = s.pkgs := rfl
@[simp] theorem State.ctxs_setSlotAt (s : State) (c i : Nat) (x : Slot) : (s.setSlotAt c i x).ctxs = s.ctxs := rfl
@[simp] theorem State.timelines_setSlotAt (s : State) (c i : Nat) (x : Slot) : (s.setSlotAt c i x).timelines = s.timelines := rfl
@[simp] theorem State.blocks_setSlotAt (s : State) (c i : Nat) (x : Slot) : (s.setSlotAt c i x).blocks = s.blocks := rfl
@[simp] theorem State.nextBlock_setSlotAt (s : State) (c i : Nat) (x : Slot) : (s.setSlotAt c i x).nextBlock = s.nextBlock := rfl
@[simp] theorem State.dirs_setSlotAt (s : State) (c i : Nat) (x : Slot) : (s.setSlotAt c i x).dirs = s.dirs := rfl
@[simp] theorem State.channels_setSlotAt (s : State) (c i : Nat) (x : Slot) : (s.setSlotAt c i x).channels = s.channels := rfl
@[simp] theorem State.outbox_setSlotAt (s : State) (c i : Nat) (x : Slot) : (s.setSlotAt c i x).outbox = s.outbox := rfl
@[simp] theorem State.hostAnswer_setSlotAt (s : State) (c i : Nat) (x : Slot) : (s.setSlotAt c i x).hostAnswer = s.hostAnswer := rfl
@[simp] theorem State.notices_setSlotAt (s : State) (c i : Nat) (x : Slot) : (s.setSlotAt c i x).notices = s.notices := rfl
@[simp] theorem State.eager_setSlotAt (s : State) (c i : Nat) (x : Slot) : (s.setSlotAt c i x).eager = s.eager := rfl
@[simp] theorem State.writes_setSlotAt (s : State) (c i : Nat) (x : Slot) : (s.setSlotAt c i x).writes = s.writes := rfl
@[simp] theorem State.views_setSlotAt (s : State) (c i : Nat) (x : Slot) : (s.setSlotAt c i x).views = s.views := rfl
@[simp] theorem State.arrivals_setSlotAt (s : State) (c i : Nat) (x : Slot) : (s.setSlotAt c i x).arrivals = s.arrivals := rfl
@[simp] theorem State.nextWrite_setSlotAt (s : State) (c i : Nat) (x : Slot) : (s.setSlotAt c i x).nextWrite = s.nextWrite := rfl
@[simp] theorem State.polRun_setSlotAt (s : State) (c i : Nat) (x : Slot) : (s.setSlotAt c i x).polRun = s.polRun := rfl
@[simp] theorem State.reply_setSlotAt (s : State) (c i : Nat) (x : Slot) : (s.setSlotAt c i x).reply = s.reply := rfl
@[simp] theorem State.agenda_setSlotAt (s : State) (c i : Nat) (x : Slot) : (s.setSlotAt c i x).agenda = s.agenda := rfl
@[simp] theorem State.args_setSlotAt (s : State) (c i : Nat) (x : Slot) : (s.setSlotAt c i x).args = s.args := rfl
@[simp] theorem State.cur_setSlotAt (s : State) (c i : Nat) (x : Slot) : (s.setSlotAt c i x).cur = s.cur := rfl
@[simp] theorem State.focus_setSlotAt (s : State) (c i : Nat) (x : Slot) : (s.setSlotAt c i x).focus = s.focus := rfl
@[simp] theorem State.bundle_setSlotAt (s : State) (c i : Nat) (x : Slot) : (s.setSlotAt c i x).bundle = s.bundle := rfl
@[simp] theorem State.performed_setSlotAt (s : State) (c i : Nat) (x : Slot) : (s.setSlotAt c i x).performed = s.performed := rfl
@[simp] theorem State.clock_setSlotAt (s : State) (c i : Nat) (x : Slot) : (s.setSlotAt c i x).clock = s.clock := rfl
@[simp] theorem State.podTime_setSlotAt (s : State) (c i : Nat) (x : Slot) : (s.setSlotAt c i x).podTime = s.podTime := rfl
@[simp] theorem State.free_setSlotAt (s : State) (c i : Nat) (x : Slot) : (s.setSlotAt c i x).free = s.free := rfl

/-! `modSlotAt` changes `cores` alone. -/

@[simp] theorem State.mem_modSlotAt (s : State) (c i : Nat) (f : Slot → Slot) : (s.modSlotAt c i f).mem = s.mem := rfl
@[simp] theorem State.tags_modSlotAt (s : State) (c i : Nat) (f : Slot → Slot) : (s.modSlotAt c i f).tags = s.tags := rfl
@[simp] theorem State.stamps_modSlotAt (s : State) (c i : Nat) (f : Slot → Slot) : (s.modSlotAt c i f).stamps = s.stamps := rfl
@[simp] theorem State.poison_modSlotAt (s : State) (c i : Nat) (f : Slot → Slot) : (s.modSlotAt c i f).poison = s.poison := rfl
@[simp] theorem State.clusters_modSlotAt (s : State) (c i : Nat) (f : Slot → Slot) : (s.modSlotAt c i f).clusters = s.clusters := rfl
@[simp] theorem State.dies_modSlotAt (s : State) (c i : Nat) (f : Slot → Slot) : (s.modSlotAt c i f).dies = s.dies := rfl
@[simp] theorem State.pkgs_modSlotAt (s : State) (c i : Nat) (f : Slot → Slot) : (s.modSlotAt c i f).pkgs = s.pkgs := rfl
@[simp] theorem State.ctxs_modSlotAt (s : State) (c i : Nat) (f : Slot → Slot) : (s.modSlotAt c i f).ctxs = s.ctxs := rfl
@[simp] theorem State.timelines_modSlotAt (s : State) (c i : Nat) (f : Slot → Slot) : (s.modSlotAt c i f).timelines = s.timelines := rfl
@[simp] theorem State.blocks_modSlotAt (s : State) (c i : Nat) (f : Slot → Slot) : (s.modSlotAt c i f).blocks = s.blocks := rfl
@[simp] theorem State.nextBlock_modSlotAt (s : State) (c i : Nat) (f : Slot → Slot) : (s.modSlotAt c i f).nextBlock = s.nextBlock := rfl
@[simp] theorem State.dirs_modSlotAt (s : State) (c i : Nat) (f : Slot → Slot) : (s.modSlotAt c i f).dirs = s.dirs := rfl
@[simp] theorem State.channels_modSlotAt (s : State) (c i : Nat) (f : Slot → Slot) : (s.modSlotAt c i f).channels = s.channels := rfl
@[simp] theorem State.outbox_modSlotAt (s : State) (c i : Nat) (f : Slot → Slot) : (s.modSlotAt c i f).outbox = s.outbox := rfl
@[simp] theorem State.hostAnswer_modSlotAt (s : State) (c i : Nat) (f : Slot → Slot) : (s.modSlotAt c i f).hostAnswer = s.hostAnswer := rfl
@[simp] theorem State.notices_modSlotAt (s : State) (c i : Nat) (f : Slot → Slot) : (s.modSlotAt c i f).notices = s.notices := rfl
@[simp] theorem State.eager_modSlotAt (s : State) (c i : Nat) (f : Slot → Slot) : (s.modSlotAt c i f).eager = s.eager := rfl
@[simp] theorem State.writes_modSlotAt (s : State) (c i : Nat) (f : Slot → Slot) : (s.modSlotAt c i f).writes = s.writes := rfl
@[simp] theorem State.views_modSlotAt (s : State) (c i : Nat) (f : Slot → Slot) : (s.modSlotAt c i f).views = s.views := rfl
@[simp] theorem State.arrivals_modSlotAt (s : State) (c i : Nat) (f : Slot → Slot) : (s.modSlotAt c i f).arrivals = s.arrivals := rfl
@[simp] theorem State.nextWrite_modSlotAt (s : State) (c i : Nat) (f : Slot → Slot) : (s.modSlotAt c i f).nextWrite = s.nextWrite := rfl
@[simp] theorem State.polRun_modSlotAt (s : State) (c i : Nat) (f : Slot → Slot) : (s.modSlotAt c i f).polRun = s.polRun := rfl
@[simp] theorem State.reply_modSlotAt (s : State) (c i : Nat) (f : Slot → Slot) : (s.modSlotAt c i f).reply = s.reply := rfl
@[simp] theorem State.agenda_modSlotAt (s : State) (c i : Nat) (f : Slot → Slot) : (s.modSlotAt c i f).agenda = s.agenda := rfl
@[simp] theorem State.args_modSlotAt (s : State) (c i : Nat) (f : Slot → Slot) : (s.modSlotAt c i f).args = s.args := rfl
@[simp] theorem State.cur_modSlotAt (s : State) (c i : Nat) (f : Slot → Slot) : (s.modSlotAt c i f).cur = s.cur := rfl
@[simp] theorem State.focus_modSlotAt (s : State) (c i : Nat) (f : Slot → Slot) : (s.modSlotAt c i f).focus = s.focus := rfl
@[simp] theorem State.bundle_modSlotAt (s : State) (c i : Nat) (f : Slot → Slot) : (s.modSlotAt c i f).bundle = s.bundle := rfl
@[simp] theorem State.performed_modSlotAt (s : State) (c i : Nat) (f : Slot → Slot) : (s.modSlotAt c i f).performed = s.performed := rfl
@[simp] theorem State.clock_modSlotAt (s : State) (c i : Nat) (f : Slot → Slot) : (s.modSlotAt c i f).clock = s.clock := rfl
@[simp] theorem State.podTime_modSlotAt (s : State) (c i : Nat) (f : Slot → Slot) : (s.modSlotAt c i f).podTime = s.podTime := rfl
@[simp] theorem State.free_modSlotAt (s : State) (c i : Nat) (f : Slot → Slot) : (s.modSlotAt c i f).free = s.free := rfl

/-! `setMe` changes `cores` alone. -/

@[simp] theorem State.mem_setMe (s : State) (x : Slot) : (s.setMe x).mem = s.mem := rfl
@[simp] theorem State.tags_setMe (s : State) (x : Slot) : (s.setMe x).tags = s.tags := rfl
@[simp] theorem State.stamps_setMe (s : State) (x : Slot) : (s.setMe x).stamps = s.stamps := rfl
@[simp] theorem State.poison_setMe (s : State) (x : Slot) : (s.setMe x).poison = s.poison := rfl
@[simp] theorem State.clusters_setMe (s : State) (x : Slot) : (s.setMe x).clusters = s.clusters := rfl
@[simp] theorem State.dies_setMe (s : State) (x : Slot) : (s.setMe x).dies = s.dies := rfl
@[simp] theorem State.pkgs_setMe (s : State) (x : Slot) : (s.setMe x).pkgs = s.pkgs := rfl
@[simp] theorem State.ctxs_setMe (s : State) (x : Slot) : (s.setMe x).ctxs = s.ctxs := rfl
@[simp] theorem State.timelines_setMe (s : State) (x : Slot) : (s.setMe x).timelines = s.timelines := rfl
@[simp] theorem State.blocks_setMe (s : State) (x : Slot) : (s.setMe x).blocks = s.blocks := rfl
@[simp] theorem State.nextBlock_setMe (s : State) (x : Slot) : (s.setMe x).nextBlock = s.nextBlock := rfl
@[simp] theorem State.dirs_setMe (s : State) (x : Slot) : (s.setMe x).dirs = s.dirs := rfl
@[simp] theorem State.channels_setMe (s : State) (x : Slot) : (s.setMe x).channels = s.channels := rfl
@[simp] theorem State.outbox_setMe (s : State) (x : Slot) : (s.setMe x).outbox = s.outbox := rfl
@[simp] theorem State.hostAnswer_setMe (s : State) (x : Slot) : (s.setMe x).hostAnswer = s.hostAnswer := rfl
@[simp] theorem State.notices_setMe (s : State) (x : Slot) : (s.setMe x).notices = s.notices := rfl
@[simp] theorem State.eager_setMe (s : State) (x : Slot) : (s.setMe x).eager = s.eager := rfl
@[simp] theorem State.writes_setMe (s : State) (x : Slot) : (s.setMe x).writes = s.writes := rfl
@[simp] theorem State.views_setMe (s : State) (x : Slot) : (s.setMe x).views = s.views := rfl
@[simp] theorem State.arrivals_setMe (s : State) (x : Slot) : (s.setMe x).arrivals = s.arrivals := rfl
@[simp] theorem State.nextWrite_setMe (s : State) (x : Slot) : (s.setMe x).nextWrite = s.nextWrite := rfl
@[simp] theorem State.polRun_setMe (s : State) (x : Slot) : (s.setMe x).polRun = s.polRun := rfl
@[simp] theorem State.reply_setMe (s : State) (x : Slot) : (s.setMe x).reply = s.reply := rfl
@[simp] theorem State.agenda_setMe (s : State) (x : Slot) : (s.setMe x).agenda = s.agenda := rfl
@[simp] theorem State.args_setMe (s : State) (x : Slot) : (s.setMe x).args = s.args := rfl
@[simp] theorem State.cur_setMe (s : State) (x : Slot) : (s.setMe x).cur = s.cur := rfl
@[simp] theorem State.focus_setMe (s : State) (x : Slot) : (s.setMe x).focus = s.focus := rfl
@[simp] theorem State.bundle_setMe (s : State) (x : Slot) : (s.setMe x).bundle = s.bundle := rfl
@[simp] theorem State.performed_setMe (s : State) (x : Slot) : (s.setMe x).performed = s.performed := rfl
@[simp] theorem State.clock_setMe (s : State) (x : Slot) : (s.setMe x).clock = s.clock := rfl
@[simp] theorem State.podTime_setMe (s : State) (x : Slot) : (s.setMe x).podTime = s.podTime := rfl
@[simp] theorem State.free_setMe (s : State) (x : Slot) : (s.setMe x).free = s.free := rfl

/-! `modMe` changes `cores` alone. -/

@[simp] theorem State.mem_modMe (s : State) (f : Slot → Slot) : (s.modMe f).mem = s.mem := rfl
@[simp] theorem State.tags_modMe (s : State) (f : Slot → Slot) : (s.modMe f).tags = s.tags := rfl
@[simp] theorem State.stamps_modMe (s : State) (f : Slot → Slot) : (s.modMe f).stamps = s.stamps := rfl
@[simp] theorem State.poison_modMe (s : State) (f : Slot → Slot) : (s.modMe f).poison = s.poison := rfl
@[simp] theorem State.clusters_modMe (s : State) (f : Slot → Slot) : (s.modMe f).clusters = s.clusters := rfl
@[simp] theorem State.dies_modMe (s : State) (f : Slot → Slot) : (s.modMe f).dies = s.dies := rfl
@[simp] theorem State.pkgs_modMe (s : State) (f : Slot → Slot) : (s.modMe f).pkgs = s.pkgs := rfl
@[simp] theorem State.ctxs_modMe (s : State) (f : Slot → Slot) : (s.modMe f).ctxs = s.ctxs := rfl
@[simp] theorem State.timelines_modMe (s : State) (f : Slot → Slot) : (s.modMe f).timelines = s.timelines := rfl
@[simp] theorem State.blocks_modMe (s : State) (f : Slot → Slot) : (s.modMe f).blocks = s.blocks := rfl
@[simp] theorem State.nextBlock_modMe (s : State) (f : Slot → Slot) : (s.modMe f).nextBlock = s.nextBlock := rfl
@[simp] theorem State.dirs_modMe (s : State) (f : Slot → Slot) : (s.modMe f).dirs = s.dirs := rfl
@[simp] theorem State.channels_modMe (s : State) (f : Slot → Slot) : (s.modMe f).channels = s.channels := rfl
@[simp] theorem State.outbox_modMe (s : State) (f : Slot → Slot) : (s.modMe f).outbox = s.outbox := rfl
@[simp] theorem State.hostAnswer_modMe (s : State) (f : Slot → Slot) : (s.modMe f).hostAnswer = s.hostAnswer := rfl
@[simp] theorem State.notices_modMe (s : State) (f : Slot → Slot) : (s.modMe f).notices = s.notices := rfl
@[simp] theorem State.eager_modMe (s : State) (f : Slot → Slot) : (s.modMe f).eager = s.eager := rfl
@[simp] theorem State.writes_modMe (s : State) (f : Slot → Slot) : (s.modMe f).writes = s.writes := rfl
@[simp] theorem State.views_modMe (s : State) (f : Slot → Slot) : (s.modMe f).views = s.views := rfl
@[simp] theorem State.arrivals_modMe (s : State) (f : Slot → Slot) : (s.modMe f).arrivals = s.arrivals := rfl
@[simp] theorem State.nextWrite_modMe (s : State) (f : Slot → Slot) : (s.modMe f).nextWrite = s.nextWrite := rfl
@[simp] theorem State.polRun_modMe (s : State) (f : Slot → Slot) : (s.modMe f).polRun = s.polRun := rfl
@[simp] theorem State.reply_modMe (s : State) (f : Slot → Slot) : (s.modMe f).reply = s.reply := rfl
@[simp] theorem State.agenda_modMe (s : State) (f : Slot → Slot) : (s.modMe f).agenda = s.agenda := rfl
@[simp] theorem State.args_modMe (s : State) (f : Slot → Slot) : (s.modMe f).args = s.args := rfl
@[simp] theorem State.cur_modMe (s : State) (f : Slot → Slot) : (s.modMe f).cur = s.cur := rfl
@[simp] theorem State.focus_modMe (s : State) (f : Slot → Slot) : (s.modMe f).focus = s.focus := rfl
@[simp] theorem State.bundle_modMe (s : State) (f : Slot → Slot) : (s.modMe f).bundle = s.bundle := rfl
@[simp] theorem State.performed_modMe (s : State) (f : Slot → Slot) : (s.modMe f).performed = s.performed := rfl
@[simp] theorem State.clock_modMe (s : State) (f : Slot → Slot) : (s.modMe f).clock = s.clock := rfl
@[simp] theorem State.podTime_modMe (s : State) (f : Slot → Slot) : (s.modMe f).podTime = s.podTime := rfl
@[simp] theorem State.free_modMe (s : State) (f : Slot → Slot) : (s.modMe f).free = s.free := rfl

/-! `wrG` changes `cores` alone. -/

@[simp] theorem State.mem_wrG (s : State) (i : BitVec 5) (y : Word) : (s.wrG i y).mem = s.mem := rfl
@[simp] theorem State.tags_wrG (s : State) (i : BitVec 5) (y : Word) : (s.wrG i y).tags = s.tags := rfl
@[simp] theorem State.stamps_wrG (s : State) (i : BitVec 5) (y : Word) : (s.wrG i y).stamps = s.stamps := rfl
@[simp] theorem State.poison_wrG (s : State) (i : BitVec 5) (y : Word) : (s.wrG i y).poison = s.poison := rfl
@[simp] theorem State.clusters_wrG (s : State) (i : BitVec 5) (y : Word) : (s.wrG i y).clusters = s.clusters := rfl
@[simp] theorem State.dies_wrG (s : State) (i : BitVec 5) (y : Word) : (s.wrG i y).dies = s.dies := rfl
@[simp] theorem State.pkgs_wrG (s : State) (i : BitVec 5) (y : Word) : (s.wrG i y).pkgs = s.pkgs := rfl
@[simp] theorem State.ctxs_wrG (s : State) (i : BitVec 5) (y : Word) : (s.wrG i y).ctxs = s.ctxs := rfl
@[simp] theorem State.timelines_wrG (s : State) (i : BitVec 5) (y : Word) : (s.wrG i y).timelines = s.timelines := rfl
@[simp] theorem State.blocks_wrG (s : State) (i : BitVec 5) (y : Word) : (s.wrG i y).blocks = s.blocks := rfl
@[simp] theorem State.nextBlock_wrG (s : State) (i : BitVec 5) (y : Word) : (s.wrG i y).nextBlock = s.nextBlock := rfl
@[simp] theorem State.dirs_wrG (s : State) (i : BitVec 5) (y : Word) : (s.wrG i y).dirs = s.dirs := rfl
@[simp] theorem State.channels_wrG (s : State) (i : BitVec 5) (y : Word) : (s.wrG i y).channels = s.channels := rfl
@[simp] theorem State.outbox_wrG (s : State) (i : BitVec 5) (y : Word) : (s.wrG i y).outbox = s.outbox := rfl
@[simp] theorem State.hostAnswer_wrG (s : State) (i : BitVec 5) (y : Word) : (s.wrG i y).hostAnswer = s.hostAnswer := rfl
@[simp] theorem State.notices_wrG (s : State) (i : BitVec 5) (y : Word) : (s.wrG i y).notices = s.notices := rfl
@[simp] theorem State.eager_wrG (s : State) (i : BitVec 5) (y : Word) : (s.wrG i y).eager = s.eager := rfl
@[simp] theorem State.writes_wrG (s : State) (i : BitVec 5) (y : Word) : (s.wrG i y).writes = s.writes := rfl
@[simp] theorem State.views_wrG (s : State) (i : BitVec 5) (y : Word) : (s.wrG i y).views = s.views := rfl
@[simp] theorem State.arrivals_wrG (s : State) (i : BitVec 5) (y : Word) : (s.wrG i y).arrivals = s.arrivals := rfl
@[simp] theorem State.nextWrite_wrG (s : State) (i : BitVec 5) (y : Word) : (s.wrG i y).nextWrite = s.nextWrite := rfl
@[simp] theorem State.polRun_wrG (s : State) (i : BitVec 5) (y : Word) : (s.wrG i y).polRun = s.polRun := rfl
@[simp] theorem State.reply_wrG (s : State) (i : BitVec 5) (y : Word) : (s.wrG i y).reply = s.reply := rfl
@[simp] theorem State.agenda_wrG (s : State) (i : BitVec 5) (y : Word) : (s.wrG i y).agenda = s.agenda := rfl
@[simp] theorem State.args_wrG (s : State) (i : BitVec 5) (y : Word) : (s.wrG i y).args = s.args := rfl
@[simp] theorem State.cur_wrG (s : State) (i : BitVec 5) (y : Word) : (s.wrG i y).cur = s.cur := rfl
@[simp] theorem State.focus_wrG (s : State) (i : BitVec 5) (y : Word) : (s.wrG i y).focus = s.focus := rfl
@[simp] theorem State.bundle_wrG (s : State) (i : BitVec 5) (y : Word) : (s.wrG i y).bundle = s.bundle := rfl
@[simp] theorem State.performed_wrG (s : State) (i : BitVec 5) (y : Word) : (s.wrG i y).performed = s.performed := rfl
@[simp] theorem State.clock_wrG (s : State) (i : BitVec 5) (y : Word) : (s.wrG i y).clock = s.clock := rfl
@[simp] theorem State.podTime_wrG (s : State) (i : BitVec 5) (y : Word) : (s.wrG i y).podTime = s.podTime := rfl
@[simp] theorem State.free_wrG (s : State) (i : BitVec 5) (y : Word) : (s.wrG i y).free = s.free := rfl

/-! `wrK` changes `cores` alone. -/

@[simp] theorem State.mem_wrK (s : State) (i : BitVec 3) (y : Word) : (s.wrK i y).mem = s.mem := rfl
@[simp] theorem State.tags_wrK (s : State) (i : BitVec 3) (y : Word) : (s.wrK i y).tags = s.tags := rfl
@[simp] theorem State.stamps_wrK (s : State) (i : BitVec 3) (y : Word) : (s.wrK i y).stamps = s.stamps := rfl
@[simp] theorem State.poison_wrK (s : State) (i : BitVec 3) (y : Word) : (s.wrK i y).poison = s.poison := rfl
@[simp] theorem State.clusters_wrK (s : State) (i : BitVec 3) (y : Word) : (s.wrK i y).clusters = s.clusters := rfl
@[simp] theorem State.dies_wrK (s : State) (i : BitVec 3) (y : Word) : (s.wrK i y).dies = s.dies := rfl
@[simp] theorem State.pkgs_wrK (s : State) (i : BitVec 3) (y : Word) : (s.wrK i y).pkgs = s.pkgs := rfl
@[simp] theorem State.ctxs_wrK (s : State) (i : BitVec 3) (y : Word) : (s.wrK i y).ctxs = s.ctxs := rfl
@[simp] theorem State.timelines_wrK (s : State) (i : BitVec 3) (y : Word) : (s.wrK i y).timelines = s.timelines := rfl
@[simp] theorem State.blocks_wrK (s : State) (i : BitVec 3) (y : Word) : (s.wrK i y).blocks = s.blocks := rfl
@[simp] theorem State.nextBlock_wrK (s : State) (i : BitVec 3) (y : Word) : (s.wrK i y).nextBlock = s.nextBlock := rfl
@[simp] theorem State.dirs_wrK (s : State) (i : BitVec 3) (y : Word) : (s.wrK i y).dirs = s.dirs := rfl
@[simp] theorem State.channels_wrK (s : State) (i : BitVec 3) (y : Word) : (s.wrK i y).channels = s.channels := rfl
@[simp] theorem State.outbox_wrK (s : State) (i : BitVec 3) (y : Word) : (s.wrK i y).outbox = s.outbox := rfl
@[simp] theorem State.hostAnswer_wrK (s : State) (i : BitVec 3) (y : Word) : (s.wrK i y).hostAnswer = s.hostAnswer := rfl
@[simp] theorem State.notices_wrK (s : State) (i : BitVec 3) (y : Word) : (s.wrK i y).notices = s.notices := rfl
@[simp] theorem State.eager_wrK (s : State) (i : BitVec 3) (y : Word) : (s.wrK i y).eager = s.eager := rfl
@[simp] theorem State.writes_wrK (s : State) (i : BitVec 3) (y : Word) : (s.wrK i y).writes = s.writes := rfl
@[simp] theorem State.views_wrK (s : State) (i : BitVec 3) (y : Word) : (s.wrK i y).views = s.views := rfl
@[simp] theorem State.arrivals_wrK (s : State) (i : BitVec 3) (y : Word) : (s.wrK i y).arrivals = s.arrivals := rfl
@[simp] theorem State.nextWrite_wrK (s : State) (i : BitVec 3) (y : Word) : (s.wrK i y).nextWrite = s.nextWrite := rfl
@[simp] theorem State.polRun_wrK (s : State) (i : BitVec 3) (y : Word) : (s.wrK i y).polRun = s.polRun := rfl
@[simp] theorem State.reply_wrK (s : State) (i : BitVec 3) (y : Word) : (s.wrK i y).reply = s.reply := rfl
@[simp] theorem State.agenda_wrK (s : State) (i : BitVec 3) (y : Word) : (s.wrK i y).agenda = s.agenda := rfl
@[simp] theorem State.args_wrK (s : State) (i : BitVec 3) (y : Word) : (s.wrK i y).args = s.args := rfl
@[simp] theorem State.cur_wrK (s : State) (i : BitVec 3) (y : Word) : (s.wrK i y).cur = s.cur := rfl
@[simp] theorem State.focus_wrK (s : State) (i : BitVec 3) (y : Word) : (s.wrK i y).focus = s.focus := rfl
@[simp] theorem State.bundle_wrK (s : State) (i : BitVec 3) (y : Word) : (s.wrK i y).bundle = s.bundle := rfl
@[simp] theorem State.performed_wrK (s : State) (i : BitVec 3) (y : Word) : (s.wrK i y).performed = s.performed := rfl
@[simp] theorem State.clock_wrK (s : State) (i : BitVec 3) (y : Word) : (s.wrK i y).clock = s.clock := rfl
@[simp] theorem State.podTime_wrK (s : State) (i : BitVec 3) (y : Word) : (s.wrK i y).podTime = s.podTime := rfl
@[simp] theorem State.free_wrK (s : State) (i : BitVec 3) (y : Word) : (s.wrK i y).free = s.free := rfl

/-! `wrV` changes `cores` alone. -/

@[simp] theorem State.mem_wrV (s : State) (i : BitVec 5) (y : VWord) : (s.wrV i y).mem = s.mem := rfl
@[simp] theorem State.tags_wrV (s : State) (i : BitVec 5) (y : VWord) : (s.wrV i y).tags = s.tags := rfl
@[simp] theorem State.stamps_wrV (s : State) (i : BitVec 5) (y : VWord) : (s.wrV i y).stamps = s.stamps := rfl
@[simp] theorem State.poison_wrV (s : State) (i : BitVec 5) (y : VWord) : (s.wrV i y).poison = s.poison := rfl
@[simp] theorem State.clusters_wrV (s : State) (i : BitVec 5) (y : VWord) : (s.wrV i y).clusters = s.clusters := rfl
@[simp] theorem State.dies_wrV (s : State) (i : BitVec 5) (y : VWord) : (s.wrV i y).dies = s.dies := rfl
@[simp] theorem State.pkgs_wrV (s : State) (i : BitVec 5) (y : VWord) : (s.wrV i y).pkgs = s.pkgs := rfl
@[simp] theorem State.ctxs_wrV (s : State) (i : BitVec 5) (y : VWord) : (s.wrV i y).ctxs = s.ctxs := rfl
@[simp] theorem State.timelines_wrV (s : State) (i : BitVec 5) (y : VWord) : (s.wrV i y).timelines = s.timelines := rfl
@[simp] theorem State.blocks_wrV (s : State) (i : BitVec 5) (y : VWord) : (s.wrV i y).blocks = s.blocks := rfl
@[simp] theorem State.nextBlock_wrV (s : State) (i : BitVec 5) (y : VWord) : (s.wrV i y).nextBlock = s.nextBlock := rfl
@[simp] theorem State.dirs_wrV (s : State) (i : BitVec 5) (y : VWord) : (s.wrV i y).dirs = s.dirs := rfl
@[simp] theorem State.channels_wrV (s : State) (i : BitVec 5) (y : VWord) : (s.wrV i y).channels = s.channels := rfl
@[simp] theorem State.outbox_wrV (s : State) (i : BitVec 5) (y : VWord) : (s.wrV i y).outbox = s.outbox := rfl
@[simp] theorem State.hostAnswer_wrV (s : State) (i : BitVec 5) (y : VWord) : (s.wrV i y).hostAnswer = s.hostAnswer := rfl
@[simp] theorem State.notices_wrV (s : State) (i : BitVec 5) (y : VWord) : (s.wrV i y).notices = s.notices := rfl
@[simp] theorem State.eager_wrV (s : State) (i : BitVec 5) (y : VWord) : (s.wrV i y).eager = s.eager := rfl
@[simp] theorem State.writes_wrV (s : State) (i : BitVec 5) (y : VWord) : (s.wrV i y).writes = s.writes := rfl
@[simp] theorem State.views_wrV (s : State) (i : BitVec 5) (y : VWord) : (s.wrV i y).views = s.views := rfl
@[simp] theorem State.arrivals_wrV (s : State) (i : BitVec 5) (y : VWord) : (s.wrV i y).arrivals = s.arrivals := rfl
@[simp] theorem State.nextWrite_wrV (s : State) (i : BitVec 5) (y : VWord) : (s.wrV i y).nextWrite = s.nextWrite := rfl
@[simp] theorem State.polRun_wrV (s : State) (i : BitVec 5) (y : VWord) : (s.wrV i y).polRun = s.polRun := rfl
@[simp] theorem State.reply_wrV (s : State) (i : BitVec 5) (y : VWord) : (s.wrV i y).reply = s.reply := rfl
@[simp] theorem State.agenda_wrV (s : State) (i : BitVec 5) (y : VWord) : (s.wrV i y).agenda = s.agenda := rfl
@[simp] theorem State.args_wrV (s : State) (i : BitVec 5) (y : VWord) : (s.wrV i y).args = s.args := rfl
@[simp] theorem State.cur_wrV (s : State) (i : BitVec 5) (y : VWord) : (s.wrV i y).cur = s.cur := rfl
@[simp] theorem State.focus_wrV (s : State) (i : BitVec 5) (y : VWord) : (s.wrV i y).focus = s.focus := rfl
@[simp] theorem State.bundle_wrV (s : State) (i : BitVec 5) (y : VWord) : (s.wrV i y).bundle = s.bundle := rfl
@[simp] theorem State.performed_wrV (s : State) (i : BitVec 5) (y : VWord) : (s.wrV i y).performed = s.performed := rfl
@[simp] theorem State.clock_wrV (s : State) (i : BitVec 5) (y : VWord) : (s.wrV i y).clock = s.clock := rfl
@[simp] theorem State.podTime_wrV (s : State) (i : BitVec 5) (y : VWord) : (s.wrV i y).podTime = s.podTime := rfl
@[simp] theorem State.free_wrV (s : State) (i : BitVec 5) (y : VWord) : (s.wrV i y).free = s.free := rfl

/-! `wrC` changes `cores` alone. -/

@[simp] theorem State.mem_wrC (s : State) (i : BitVec 4) (y : Cap) : (s.wrC i y).mem = s.mem := rfl
@[simp] theorem State.tags_wrC (s : State) (i : BitVec 4) (y : Cap) : (s.wrC i y).tags = s.tags := rfl
@[simp] theorem State.stamps_wrC (s : State) (i : BitVec 4) (y : Cap) : (s.wrC i y).stamps = s.stamps := rfl
@[simp] theorem State.poison_wrC (s : State) (i : BitVec 4) (y : Cap) : (s.wrC i y).poison = s.poison := rfl
@[simp] theorem State.clusters_wrC (s : State) (i : BitVec 4) (y : Cap) : (s.wrC i y).clusters = s.clusters := rfl
@[simp] theorem State.dies_wrC (s : State) (i : BitVec 4) (y : Cap) : (s.wrC i y).dies = s.dies := rfl
@[simp] theorem State.pkgs_wrC (s : State) (i : BitVec 4) (y : Cap) : (s.wrC i y).pkgs = s.pkgs := rfl
@[simp] theorem State.ctxs_wrC (s : State) (i : BitVec 4) (y : Cap) : (s.wrC i y).ctxs = s.ctxs := rfl
@[simp] theorem State.timelines_wrC (s : State) (i : BitVec 4) (y : Cap) : (s.wrC i y).timelines = s.timelines := rfl
@[simp] theorem State.blocks_wrC (s : State) (i : BitVec 4) (y : Cap) : (s.wrC i y).blocks = s.blocks := rfl
@[simp] theorem State.nextBlock_wrC (s : State) (i : BitVec 4) (y : Cap) : (s.wrC i y).nextBlock = s.nextBlock := rfl
@[simp] theorem State.dirs_wrC (s : State) (i : BitVec 4) (y : Cap) : (s.wrC i y).dirs = s.dirs := rfl
@[simp] theorem State.channels_wrC (s : State) (i : BitVec 4) (y : Cap) : (s.wrC i y).channels = s.channels := rfl
@[simp] theorem State.outbox_wrC (s : State) (i : BitVec 4) (y : Cap) : (s.wrC i y).outbox = s.outbox := rfl
@[simp] theorem State.hostAnswer_wrC (s : State) (i : BitVec 4) (y : Cap) : (s.wrC i y).hostAnswer = s.hostAnswer := rfl
@[simp] theorem State.notices_wrC (s : State) (i : BitVec 4) (y : Cap) : (s.wrC i y).notices = s.notices := rfl
@[simp] theorem State.eager_wrC (s : State) (i : BitVec 4) (y : Cap) : (s.wrC i y).eager = s.eager := rfl
@[simp] theorem State.writes_wrC (s : State) (i : BitVec 4) (y : Cap) : (s.wrC i y).writes = s.writes := rfl
@[simp] theorem State.views_wrC (s : State) (i : BitVec 4) (y : Cap) : (s.wrC i y).views = s.views := rfl
@[simp] theorem State.arrivals_wrC (s : State) (i : BitVec 4) (y : Cap) : (s.wrC i y).arrivals = s.arrivals := rfl
@[simp] theorem State.nextWrite_wrC (s : State) (i : BitVec 4) (y : Cap) : (s.wrC i y).nextWrite = s.nextWrite := rfl
@[simp] theorem State.polRun_wrC (s : State) (i : BitVec 4) (y : Cap) : (s.wrC i y).polRun = s.polRun := rfl
@[simp] theorem State.reply_wrC (s : State) (i : BitVec 4) (y : Cap) : (s.wrC i y).reply = s.reply := rfl
@[simp] theorem State.agenda_wrC (s : State) (i : BitVec 4) (y : Cap) : (s.wrC i y).agenda = s.agenda := rfl
@[simp] theorem State.args_wrC (s : State) (i : BitVec 4) (y : Cap) : (s.wrC i y).args = s.args := rfl
@[simp] theorem State.cur_wrC (s : State) (i : BitVec 4) (y : Cap) : (s.wrC i y).cur = s.cur := rfl
@[simp] theorem State.focus_wrC (s : State) (i : BitVec 4) (y : Cap) : (s.wrC i y).focus = s.focus := rfl
@[simp] theorem State.bundle_wrC (s : State) (i : BitVec 4) (y : Cap) : (s.wrC i y).bundle = s.bundle := rfl
@[simp] theorem State.performed_wrC (s : State) (i : BitVec 4) (y : Cap) : (s.wrC i y).performed = s.performed := rfl
@[simp] theorem State.clock_wrC (s : State) (i : BitVec 4) (y : Cap) : (s.wrC i y).clock = s.clock := rfl
@[simp] theorem State.podTime_wrC (s : State) (i : BitVec 4) (y : Cap) : (s.wrC i y).podTime = s.podTime := rfl
@[simp] theorem State.free_wrC (s : State) (i : BitVec 4) (y : Cap) : (s.wrC i y).free = s.free := rfl

/-! `modCluster` changes `clusters` alone. -/

@[simp] theorem State.mem_modCluster (s : State) (i : Nat) (f : Cluster → Cluster) : (s.modCluster i f).mem = s.mem := rfl
@[simp] theorem State.tags_modCluster (s : State) (i : Nat) (f : Cluster → Cluster) : (s.modCluster i f).tags = s.tags := rfl
@[simp] theorem State.stamps_modCluster (s : State) (i : Nat) (f : Cluster → Cluster) : (s.modCluster i f).stamps = s.stamps := rfl
@[simp] theorem State.poison_modCluster (s : State) (i : Nat) (f : Cluster → Cluster) : (s.modCluster i f).poison = s.poison := rfl
@[simp] theorem State.cores_modCluster (s : State) (i : Nat) (f : Cluster → Cluster) : (s.modCluster i f).cores = s.cores := rfl
@[simp] theorem State.dies_modCluster (s : State) (i : Nat) (f : Cluster → Cluster) : (s.modCluster i f).dies = s.dies := rfl
@[simp] theorem State.pkgs_modCluster (s : State) (i : Nat) (f : Cluster → Cluster) : (s.modCluster i f).pkgs = s.pkgs := rfl
@[simp] theorem State.ctxs_modCluster (s : State) (i : Nat) (f : Cluster → Cluster) : (s.modCluster i f).ctxs = s.ctxs := rfl
@[simp] theorem State.timelines_modCluster (s : State) (i : Nat) (f : Cluster → Cluster) : (s.modCluster i f).timelines = s.timelines := rfl
@[simp] theorem State.blocks_modCluster (s : State) (i : Nat) (f : Cluster → Cluster) : (s.modCluster i f).blocks = s.blocks := rfl
@[simp] theorem State.nextBlock_modCluster (s : State) (i : Nat) (f : Cluster → Cluster) : (s.modCluster i f).nextBlock = s.nextBlock := rfl
@[simp] theorem State.dirs_modCluster (s : State) (i : Nat) (f : Cluster → Cluster) : (s.modCluster i f).dirs = s.dirs := rfl
@[simp] theorem State.channels_modCluster (s : State) (i : Nat) (f : Cluster → Cluster) : (s.modCluster i f).channels = s.channels := rfl
@[simp] theorem State.outbox_modCluster (s : State) (i : Nat) (f : Cluster → Cluster) : (s.modCluster i f).outbox = s.outbox := rfl
@[simp] theorem State.hostAnswer_modCluster (s : State) (i : Nat) (f : Cluster → Cluster) : (s.modCluster i f).hostAnswer = s.hostAnswer := rfl
@[simp] theorem State.notices_modCluster (s : State) (i : Nat) (f : Cluster → Cluster) : (s.modCluster i f).notices = s.notices := rfl
@[simp] theorem State.eager_modCluster (s : State) (i : Nat) (f : Cluster → Cluster) : (s.modCluster i f).eager = s.eager := rfl
@[simp] theorem State.writes_modCluster (s : State) (i : Nat) (f : Cluster → Cluster) : (s.modCluster i f).writes = s.writes := rfl
@[simp] theorem State.views_modCluster (s : State) (i : Nat) (f : Cluster → Cluster) : (s.modCluster i f).views = s.views := rfl
@[simp] theorem State.arrivals_modCluster (s : State) (i : Nat) (f : Cluster → Cluster) : (s.modCluster i f).arrivals = s.arrivals := rfl
@[simp] theorem State.nextWrite_modCluster (s : State) (i : Nat) (f : Cluster → Cluster) : (s.modCluster i f).nextWrite = s.nextWrite := rfl
@[simp] theorem State.polRun_modCluster (s : State) (i : Nat) (f : Cluster → Cluster) : (s.modCluster i f).polRun = s.polRun := rfl
@[simp] theorem State.reply_modCluster (s : State) (i : Nat) (f : Cluster → Cluster) : (s.modCluster i f).reply = s.reply := rfl
@[simp] theorem State.agenda_modCluster (s : State) (i : Nat) (f : Cluster → Cluster) : (s.modCluster i f).agenda = s.agenda := rfl
@[simp] theorem State.args_modCluster (s : State) (i : Nat) (f : Cluster → Cluster) : (s.modCluster i f).args = s.args := rfl
@[simp] theorem State.cur_modCluster (s : State) (i : Nat) (f : Cluster → Cluster) : (s.modCluster i f).cur = s.cur := rfl
@[simp] theorem State.focus_modCluster (s : State) (i : Nat) (f : Cluster → Cluster) : (s.modCluster i f).focus = s.focus := rfl
@[simp] theorem State.bundle_modCluster (s : State) (i : Nat) (f : Cluster → Cluster) : (s.modCluster i f).bundle = s.bundle := rfl
@[simp] theorem State.performed_modCluster (s : State) (i : Nat) (f : Cluster → Cluster) : (s.modCluster i f).performed = s.performed := rfl
@[simp] theorem State.clock_modCluster (s : State) (i : Nat) (f : Cluster → Cluster) : (s.modCluster i f).clock = s.clock := rfl
@[simp] theorem State.podTime_modCluster (s : State) (i : Nat) (f : Cluster → Cluster) : (s.modCluster i f).podTime = s.podTime := rfl
@[simp] theorem State.free_modCluster (s : State) (i : Nat) (f : Cluster → Cluster) : (s.modCluster i f).free = s.free := rfl

/-! `modDie` changes `dies` alone. -/

@[simp] theorem State.mem_modDie (s : State) (i : Nat) (f : Die → Die) : (s.modDie i f).mem = s.mem := rfl
@[simp] theorem State.tags_modDie (s : State) (i : Nat) (f : Die → Die) : (s.modDie i f).tags = s.tags := rfl
@[simp] theorem State.stamps_modDie (s : State) (i : Nat) (f : Die → Die) : (s.modDie i f).stamps = s.stamps := rfl
@[simp] theorem State.poison_modDie (s : State) (i : Nat) (f : Die → Die) : (s.modDie i f).poison = s.poison := rfl
@[simp] theorem State.cores_modDie (s : State) (i : Nat) (f : Die → Die) : (s.modDie i f).cores = s.cores := rfl
@[simp] theorem State.clusters_modDie (s : State) (i : Nat) (f : Die → Die) : (s.modDie i f).clusters = s.clusters := rfl
@[simp] theorem State.pkgs_modDie (s : State) (i : Nat) (f : Die → Die) : (s.modDie i f).pkgs = s.pkgs := rfl
@[simp] theorem State.ctxs_modDie (s : State) (i : Nat) (f : Die → Die) : (s.modDie i f).ctxs = s.ctxs := rfl
@[simp] theorem State.timelines_modDie (s : State) (i : Nat) (f : Die → Die) : (s.modDie i f).timelines = s.timelines := rfl
@[simp] theorem State.blocks_modDie (s : State) (i : Nat) (f : Die → Die) : (s.modDie i f).blocks = s.blocks := rfl
@[simp] theorem State.nextBlock_modDie (s : State) (i : Nat) (f : Die → Die) : (s.modDie i f).nextBlock = s.nextBlock := rfl
@[simp] theorem State.dirs_modDie (s : State) (i : Nat) (f : Die → Die) : (s.modDie i f).dirs = s.dirs := rfl
@[simp] theorem State.channels_modDie (s : State) (i : Nat) (f : Die → Die) : (s.modDie i f).channels = s.channels := rfl
@[simp] theorem State.outbox_modDie (s : State) (i : Nat) (f : Die → Die) : (s.modDie i f).outbox = s.outbox := rfl
@[simp] theorem State.hostAnswer_modDie (s : State) (i : Nat) (f : Die → Die) : (s.modDie i f).hostAnswer = s.hostAnswer := rfl
@[simp] theorem State.notices_modDie (s : State) (i : Nat) (f : Die → Die) : (s.modDie i f).notices = s.notices := rfl
@[simp] theorem State.eager_modDie (s : State) (i : Nat) (f : Die → Die) : (s.modDie i f).eager = s.eager := rfl
@[simp] theorem State.writes_modDie (s : State) (i : Nat) (f : Die → Die) : (s.modDie i f).writes = s.writes := rfl
@[simp] theorem State.views_modDie (s : State) (i : Nat) (f : Die → Die) : (s.modDie i f).views = s.views := rfl
@[simp] theorem State.arrivals_modDie (s : State) (i : Nat) (f : Die → Die) : (s.modDie i f).arrivals = s.arrivals := rfl
@[simp] theorem State.nextWrite_modDie (s : State) (i : Nat) (f : Die → Die) : (s.modDie i f).nextWrite = s.nextWrite := rfl
@[simp] theorem State.polRun_modDie (s : State) (i : Nat) (f : Die → Die) : (s.modDie i f).polRun = s.polRun := rfl
@[simp] theorem State.reply_modDie (s : State) (i : Nat) (f : Die → Die) : (s.modDie i f).reply = s.reply := rfl
@[simp] theorem State.agenda_modDie (s : State) (i : Nat) (f : Die → Die) : (s.modDie i f).agenda = s.agenda := rfl
@[simp] theorem State.args_modDie (s : State) (i : Nat) (f : Die → Die) : (s.modDie i f).args = s.args := rfl
@[simp] theorem State.cur_modDie (s : State) (i : Nat) (f : Die → Die) : (s.modDie i f).cur = s.cur := rfl
@[simp] theorem State.focus_modDie (s : State) (i : Nat) (f : Die → Die) : (s.modDie i f).focus = s.focus := rfl
@[simp] theorem State.bundle_modDie (s : State) (i : Nat) (f : Die → Die) : (s.modDie i f).bundle = s.bundle := rfl
@[simp] theorem State.performed_modDie (s : State) (i : Nat) (f : Die → Die) : (s.modDie i f).performed = s.performed := rfl
@[simp] theorem State.clock_modDie (s : State) (i : Nat) (f : Die → Die) : (s.modDie i f).clock = s.clock := rfl
@[simp] theorem State.podTime_modDie (s : State) (i : Nat) (f : Die → Die) : (s.modDie i f).podTime = s.podTime := rfl
@[simp] theorem State.free_modDie (s : State) (i : Nat) (f : Die → Die) : (s.modDie i f).free = s.free := rfl

/-! `modPkg` changes `pkgs` alone. -/

@[simp] theorem State.mem_modPkg (s : State) (i : Nat) (f : Package → Package) : (s.modPkg i f).mem = s.mem := rfl
@[simp] theorem State.tags_modPkg (s : State) (i : Nat) (f : Package → Package) : (s.modPkg i f).tags = s.tags := rfl
@[simp] theorem State.stamps_modPkg (s : State) (i : Nat) (f : Package → Package) : (s.modPkg i f).stamps = s.stamps := rfl
@[simp] theorem State.poison_modPkg (s : State) (i : Nat) (f : Package → Package) : (s.modPkg i f).poison = s.poison := rfl
@[simp] theorem State.cores_modPkg (s : State) (i : Nat) (f : Package → Package) : (s.modPkg i f).cores = s.cores := rfl
@[simp] theorem State.clusters_modPkg (s : State) (i : Nat) (f : Package → Package) : (s.modPkg i f).clusters = s.clusters := rfl
@[simp] theorem State.dies_modPkg (s : State) (i : Nat) (f : Package → Package) : (s.modPkg i f).dies = s.dies := rfl
@[simp] theorem State.ctxs_modPkg (s : State) (i : Nat) (f : Package → Package) : (s.modPkg i f).ctxs = s.ctxs := rfl
@[simp] theorem State.timelines_modPkg (s : State) (i : Nat) (f : Package → Package) : (s.modPkg i f).timelines = s.timelines := rfl
@[simp] theorem State.blocks_modPkg (s : State) (i : Nat) (f : Package → Package) : (s.modPkg i f).blocks = s.blocks := rfl
@[simp] theorem State.nextBlock_modPkg (s : State) (i : Nat) (f : Package → Package) : (s.modPkg i f).nextBlock = s.nextBlock := rfl
@[simp] theorem State.dirs_modPkg (s : State) (i : Nat) (f : Package → Package) : (s.modPkg i f).dirs = s.dirs := rfl
@[simp] theorem State.channels_modPkg (s : State) (i : Nat) (f : Package → Package) : (s.modPkg i f).channels = s.channels := rfl
@[simp] theorem State.outbox_modPkg (s : State) (i : Nat) (f : Package → Package) : (s.modPkg i f).outbox = s.outbox := rfl
@[simp] theorem State.hostAnswer_modPkg (s : State) (i : Nat) (f : Package → Package) : (s.modPkg i f).hostAnswer = s.hostAnswer := rfl
@[simp] theorem State.notices_modPkg (s : State) (i : Nat) (f : Package → Package) : (s.modPkg i f).notices = s.notices := rfl
@[simp] theorem State.eager_modPkg (s : State) (i : Nat) (f : Package → Package) : (s.modPkg i f).eager = s.eager := rfl
@[simp] theorem State.writes_modPkg (s : State) (i : Nat) (f : Package → Package) : (s.modPkg i f).writes = s.writes := rfl
@[simp] theorem State.views_modPkg (s : State) (i : Nat) (f : Package → Package) : (s.modPkg i f).views = s.views := rfl
@[simp] theorem State.arrivals_modPkg (s : State) (i : Nat) (f : Package → Package) : (s.modPkg i f).arrivals = s.arrivals := rfl
@[simp] theorem State.nextWrite_modPkg (s : State) (i : Nat) (f : Package → Package) : (s.modPkg i f).nextWrite = s.nextWrite := rfl
@[simp] theorem State.polRun_modPkg (s : State) (i : Nat) (f : Package → Package) : (s.modPkg i f).polRun = s.polRun := rfl
@[simp] theorem State.reply_modPkg (s : State) (i : Nat) (f : Package → Package) : (s.modPkg i f).reply = s.reply := rfl
@[simp] theorem State.agenda_modPkg (s : State) (i : Nat) (f : Package → Package) : (s.modPkg i f).agenda = s.agenda := rfl
@[simp] theorem State.args_modPkg (s : State) (i : Nat) (f : Package → Package) : (s.modPkg i f).args = s.args := rfl
@[simp] theorem State.cur_modPkg (s : State) (i : Nat) (f : Package → Package) : (s.modPkg i f).cur = s.cur := rfl
@[simp] theorem State.focus_modPkg (s : State) (i : Nat) (f : Package → Package) : (s.modPkg i f).focus = s.focus := rfl
@[simp] theorem State.bundle_modPkg (s : State) (i : Nat) (f : Package → Package) : (s.modPkg i f).bundle = s.bundle := rfl
@[simp] theorem State.performed_modPkg (s : State) (i : Nat) (f : Package → Package) : (s.modPkg i f).performed = s.performed := rfl
@[simp] theorem State.clock_modPkg (s : State) (i : Nat) (f : Package → Package) : (s.modPkg i f).clock = s.clock := rfl
@[simp] theorem State.podTime_modPkg (s : State) (i : Nat) (f : Package → Package) : (s.modPkg i f).podTime = s.podTime := rfl
@[simp] theorem State.free_modPkg (s : State) (i : Nat) (f : Package → Package) : (s.modPkg i f).free = s.free := rfl

/-! `modCtx` changes `ctxs` alone. -/

@[simp] theorem State.mem_modCtx (s : State) (i : Nat) (f : Ctx → Ctx) : (s.modCtx i f).mem = s.mem := rfl
@[simp] theorem State.tags_modCtx (s : State) (i : Nat) (f : Ctx → Ctx) : (s.modCtx i f).tags = s.tags := rfl
@[simp] theorem State.stamps_modCtx (s : State) (i : Nat) (f : Ctx → Ctx) : (s.modCtx i f).stamps = s.stamps := rfl
@[simp] theorem State.poison_modCtx (s : State) (i : Nat) (f : Ctx → Ctx) : (s.modCtx i f).poison = s.poison := rfl
@[simp] theorem State.cores_modCtx (s : State) (i : Nat) (f : Ctx → Ctx) : (s.modCtx i f).cores = s.cores := rfl
@[simp] theorem State.clusters_modCtx (s : State) (i : Nat) (f : Ctx → Ctx) : (s.modCtx i f).clusters = s.clusters := rfl
@[simp] theorem State.dies_modCtx (s : State) (i : Nat) (f : Ctx → Ctx) : (s.modCtx i f).dies = s.dies := rfl
@[simp] theorem State.pkgs_modCtx (s : State) (i : Nat) (f : Ctx → Ctx) : (s.modCtx i f).pkgs = s.pkgs := rfl
@[simp] theorem State.timelines_modCtx (s : State) (i : Nat) (f : Ctx → Ctx) : (s.modCtx i f).timelines = s.timelines := rfl
@[simp] theorem State.blocks_modCtx (s : State) (i : Nat) (f : Ctx → Ctx) : (s.modCtx i f).blocks = s.blocks := rfl
@[simp] theorem State.nextBlock_modCtx (s : State) (i : Nat) (f : Ctx → Ctx) : (s.modCtx i f).nextBlock = s.nextBlock := rfl
@[simp] theorem State.dirs_modCtx (s : State) (i : Nat) (f : Ctx → Ctx) : (s.modCtx i f).dirs = s.dirs := rfl
@[simp] theorem State.channels_modCtx (s : State) (i : Nat) (f : Ctx → Ctx) : (s.modCtx i f).channels = s.channels := rfl
@[simp] theorem State.outbox_modCtx (s : State) (i : Nat) (f : Ctx → Ctx) : (s.modCtx i f).outbox = s.outbox := rfl
@[simp] theorem State.hostAnswer_modCtx (s : State) (i : Nat) (f : Ctx → Ctx) : (s.modCtx i f).hostAnswer = s.hostAnswer := rfl
@[simp] theorem State.notices_modCtx (s : State) (i : Nat) (f : Ctx → Ctx) : (s.modCtx i f).notices = s.notices := rfl
@[simp] theorem State.eager_modCtx (s : State) (i : Nat) (f : Ctx → Ctx) : (s.modCtx i f).eager = s.eager := rfl
@[simp] theorem State.writes_modCtx (s : State) (i : Nat) (f : Ctx → Ctx) : (s.modCtx i f).writes = s.writes := rfl
@[simp] theorem State.views_modCtx (s : State) (i : Nat) (f : Ctx → Ctx) : (s.modCtx i f).views = s.views := rfl
@[simp] theorem State.arrivals_modCtx (s : State) (i : Nat) (f : Ctx → Ctx) : (s.modCtx i f).arrivals = s.arrivals := rfl
@[simp] theorem State.nextWrite_modCtx (s : State) (i : Nat) (f : Ctx → Ctx) : (s.modCtx i f).nextWrite = s.nextWrite := rfl
@[simp] theorem State.polRun_modCtx (s : State) (i : Nat) (f : Ctx → Ctx) : (s.modCtx i f).polRun = s.polRun := rfl
@[simp] theorem State.reply_modCtx (s : State) (i : Nat) (f : Ctx → Ctx) : (s.modCtx i f).reply = s.reply := rfl
@[simp] theorem State.agenda_modCtx (s : State) (i : Nat) (f : Ctx → Ctx) : (s.modCtx i f).agenda = s.agenda := rfl
@[simp] theorem State.args_modCtx (s : State) (i : Nat) (f : Ctx → Ctx) : (s.modCtx i f).args = s.args := rfl
@[simp] theorem State.cur_modCtx (s : State) (i : Nat) (f : Ctx → Ctx) : (s.modCtx i f).cur = s.cur := rfl
@[simp] theorem State.focus_modCtx (s : State) (i : Nat) (f : Ctx → Ctx) : (s.modCtx i f).focus = s.focus := rfl
@[simp] theorem State.bundle_modCtx (s : State) (i : Nat) (f : Ctx → Ctx) : (s.modCtx i f).bundle = s.bundle := rfl
@[simp] theorem State.performed_modCtx (s : State) (i : Nat) (f : Ctx → Ctx) : (s.modCtx i f).performed = s.performed := rfl
@[simp] theorem State.clock_modCtx (s : State) (i : Nat) (f : Ctx → Ctx) : (s.modCtx i f).clock = s.clock := rfl
@[simp] theorem State.podTime_modCtx (s : State) (i : Nat) (f : Ctx → Ctx) : (s.modCtx i f).podTime = s.podTime := rfl
@[simp] theorem State.free_modCtx (s : State) (i : Nat) (f : Ctx → Ctx) : (s.modCtx i f).free = s.free := rfl

/-! `due` changes `agenda` alone. -/

@[simp] theorem State.mem_due (s : State) (l : List Due) : (s.due l).mem = s.mem := rfl
@[simp] theorem State.tags_due (s : State) (l : List Due) : (s.due l).tags = s.tags := rfl
@[simp] theorem State.stamps_due (s : State) (l : List Due) : (s.due l).stamps = s.stamps := rfl
@[simp] theorem State.poison_due (s : State) (l : List Due) : (s.due l).poison = s.poison := rfl
@[simp] theorem State.cores_due (s : State) (l : List Due) : (s.due l).cores = s.cores := rfl
@[simp] theorem State.clusters_due (s : State) (l : List Due) : (s.due l).clusters = s.clusters := rfl
@[simp] theorem State.dies_due (s : State) (l : List Due) : (s.due l).dies = s.dies := rfl
@[simp] theorem State.pkgs_due (s : State) (l : List Due) : (s.due l).pkgs = s.pkgs := rfl
@[simp] theorem State.ctxs_due (s : State) (l : List Due) : (s.due l).ctxs = s.ctxs := rfl
@[simp] theorem State.timelines_due (s : State) (l : List Due) : (s.due l).timelines = s.timelines := rfl
@[simp] theorem State.blocks_due (s : State) (l : List Due) : (s.due l).blocks = s.blocks := rfl
@[simp] theorem State.nextBlock_due (s : State) (l : List Due) : (s.due l).nextBlock = s.nextBlock := rfl
@[simp] theorem State.dirs_due (s : State) (l : List Due) : (s.due l).dirs = s.dirs := rfl
@[simp] theorem State.channels_due (s : State) (l : List Due) : (s.due l).channels = s.channels := rfl
@[simp] theorem State.outbox_due (s : State) (l : List Due) : (s.due l).outbox = s.outbox := rfl
@[simp] theorem State.hostAnswer_due (s : State) (l : List Due) : (s.due l).hostAnswer = s.hostAnswer := rfl
@[simp] theorem State.notices_due (s : State) (l : List Due) : (s.due l).notices = s.notices := rfl
@[simp] theorem State.eager_due (s : State) (l : List Due) : (s.due l).eager = s.eager := rfl
@[simp] theorem State.writes_due (s : State) (l : List Due) : (s.due l).writes = s.writes := rfl
@[simp] theorem State.views_due (s : State) (l : List Due) : (s.due l).views = s.views := rfl
@[simp] theorem State.arrivals_due (s : State) (l : List Due) : (s.due l).arrivals = s.arrivals := rfl
@[simp] theorem State.nextWrite_due (s : State) (l : List Due) : (s.due l).nextWrite = s.nextWrite := rfl
@[simp] theorem State.polRun_due (s : State) (l : List Due) : (s.due l).polRun = s.polRun := rfl
@[simp] theorem State.reply_due (s : State) (l : List Due) : (s.due l).reply = s.reply := rfl
@[simp] theorem State.args_due (s : State) (l : List Due) : (s.due l).args = s.args := rfl
@[simp] theorem State.cur_due (s : State) (l : List Due) : (s.due l).cur = s.cur := rfl
@[simp] theorem State.focus_due (s : State) (l : List Due) : (s.due l).focus = s.focus := rfl
@[simp] theorem State.bundle_due (s : State) (l : List Due) : (s.due l).bundle = s.bundle := rfl
@[simp] theorem State.performed_due (s : State) (l : List Due) : (s.due l).performed = s.performed := rfl
@[simp] theorem State.clock_due (s : State) (l : List Due) : (s.due l).clock = s.clock := rfl
@[simp] theorem State.podTime_due (s : State) (l : List Due) : (s.due l).podTime = s.podTime := rfl
@[simp] theorem State.free_due (s : State) (l : List Due) : (s.due l).free = s.free := rfl

/-! `dueOne` changes `agenda` alone. -/

@[simp] theorem State.mem_dueOne (s : State) (d : Instr) (l : List Nat) : (s.dueOne d l).mem = s.mem := rfl
@[simp] theorem State.tags_dueOne (s : State) (d : Instr) (l : List Nat) : (s.dueOne d l).tags = s.tags := rfl
@[simp] theorem State.stamps_dueOne (s : State) (d : Instr) (l : List Nat) : (s.dueOne d l).stamps = s.stamps := rfl
@[simp] theorem State.poison_dueOne (s : State) (d : Instr) (l : List Nat) : (s.dueOne d l).poison = s.poison := rfl
@[simp] theorem State.cores_dueOne (s : State) (d : Instr) (l : List Nat) : (s.dueOne d l).cores = s.cores := rfl
@[simp] theorem State.clusters_dueOne (s : State) (d : Instr) (l : List Nat) : (s.dueOne d l).clusters = s.clusters := rfl
@[simp] theorem State.dies_dueOne (s : State) (d : Instr) (l : List Nat) : (s.dueOne d l).dies = s.dies := rfl
@[simp] theorem State.pkgs_dueOne (s : State) (d : Instr) (l : List Nat) : (s.dueOne d l).pkgs = s.pkgs := rfl
@[simp] theorem State.ctxs_dueOne (s : State) (d : Instr) (l : List Nat) : (s.dueOne d l).ctxs = s.ctxs := rfl
@[simp] theorem State.timelines_dueOne (s : State) (d : Instr) (l : List Nat) : (s.dueOne d l).timelines = s.timelines := rfl
@[simp] theorem State.blocks_dueOne (s : State) (d : Instr) (l : List Nat) : (s.dueOne d l).blocks = s.blocks := rfl
@[simp] theorem State.nextBlock_dueOne (s : State) (d : Instr) (l : List Nat) : (s.dueOne d l).nextBlock = s.nextBlock := rfl
@[simp] theorem State.dirs_dueOne (s : State) (d : Instr) (l : List Nat) : (s.dueOne d l).dirs = s.dirs := rfl
@[simp] theorem State.channels_dueOne (s : State) (d : Instr) (l : List Nat) : (s.dueOne d l).channels = s.channels := rfl
@[simp] theorem State.outbox_dueOne (s : State) (d : Instr) (l : List Nat) : (s.dueOne d l).outbox = s.outbox := rfl
@[simp] theorem State.hostAnswer_dueOne (s : State) (d : Instr) (l : List Nat) : (s.dueOne d l).hostAnswer = s.hostAnswer := rfl
@[simp] theorem State.notices_dueOne (s : State) (d : Instr) (l : List Nat) : (s.dueOne d l).notices = s.notices := rfl
@[simp] theorem State.eager_dueOne (s : State) (d : Instr) (l : List Nat) : (s.dueOne d l).eager = s.eager := rfl
@[simp] theorem State.writes_dueOne (s : State) (d : Instr) (l : List Nat) : (s.dueOne d l).writes = s.writes := rfl
@[simp] theorem State.views_dueOne (s : State) (d : Instr) (l : List Nat) : (s.dueOne d l).views = s.views := rfl
@[simp] theorem State.arrivals_dueOne (s : State) (d : Instr) (l : List Nat) : (s.dueOne d l).arrivals = s.arrivals := rfl
@[simp] theorem State.nextWrite_dueOne (s : State) (d : Instr) (l : List Nat) : (s.dueOne d l).nextWrite = s.nextWrite := rfl
@[simp] theorem State.polRun_dueOne (s : State) (d : Instr) (l : List Nat) : (s.dueOne d l).polRun = s.polRun := rfl
@[simp] theorem State.reply_dueOne (s : State) (d : Instr) (l : List Nat) : (s.dueOne d l).reply = s.reply := rfl
@[simp] theorem State.args_dueOne (s : State) (d : Instr) (l : List Nat) : (s.dueOne d l).args = s.args := rfl
@[simp] theorem State.cur_dueOne (s : State) (d : Instr) (l : List Nat) : (s.dueOne d l).cur = s.cur := rfl
@[simp] theorem State.focus_dueOne (s : State) (d : Instr) (l : List Nat) : (s.dueOne d l).focus = s.focus := rfl
@[simp] theorem State.bundle_dueOne (s : State) (d : Instr) (l : List Nat) : (s.dueOne d l).bundle = s.bundle := rfl
@[simp] theorem State.performed_dueOne (s : State) (d : Instr) (l : List Nat) : (s.dueOne d l).performed = s.performed := rfl
@[simp] theorem State.clock_dueOne (s : State) (d : Instr) (l : List Nat) : (s.dueOne d l).clock = s.clock := rfl
@[simp] theorem State.podTime_dueOne (s : State) (d : Instr) (l : List Nat) : (s.dueOne d l).podTime = s.podTime := rfl
@[simp] theorem State.free_dueOne (s : State) (d : Instr) (l : List Nat) : (s.dueOne d l).free = s.free := rfl

end Sys2Proof.Machine
end

