-- ==== Sys2Proof/Laws/Registers.lean ====
section
/-! SUPPORT. Reading cores, slots and registers after an update: what was written reads back, g0 and k0 stay constant (09
R216), and every other register, slot and core reads as before. -/

namespace Sys2Proof.Machine

/-- An entry of a vector written reads back, and every other as before. -/
theorem vector_get_set {α : Type} {n : Nat} (v : Vector α n) (i j : Fin n) (x : α) :
    (v.set i.val x i.isLt).get j = if j = i then x else v.get j := by
  show (v.set i.val x i.isLt)[j.val] = if j = i then x else v[j.val]
  rw [Vector.getElem_set]
  by_cases h : j = i
  · subst h; simp
  · rw [if_neg h, if_neg (fun e => h (Fin.ext e.symm))]

/-! Cores, clusters, contexts and packages. -/

@[simp] theorem State.core_setCore (s : State) (i j : Nat) (c : Core) : (s.setCore i c).core j = if j = i then c else s.core j := by
  simp [State.core, State.setCore]

@[simp] theorem State.cluster_modCluster (s : State) (i j : Nat) (f : Cluster → Cluster) :
    (s.modCluster i f).cluster j = if j = i then f (s.cluster i) else s.cluster j := by
  simp only [State.cluster, State.modCluster, KMap.getD_set]

@[simp] theorem State.die_modDie (s : State) (i j : Nat) (f : Die → Die) :
    (s.modDie i f).die j = if j = i then f (s.die i) else s.die j := by
  simp only [State.die, State.modDie, KMap.getD_set]

@[simp] theorem State.ctx_modCtx (s : State) (i j : Nat) (f : Ctx → Ctx) :
    (s.modCtx i f).ctx j = if j = i then f (s.ctx i) else s.ctx j := by
  simp only [State.ctx, State.modCtx, KMap.getD_set]

theorem State.pkg_modPkg_self (s : State) (i : Nat) (f : Package → Package) : (s.modPkg i f).pkg i = f (s.pkg i) := by
  simp [State.pkg, State.modPkg]

theorem State.pkg_modPkg_other (s : State) (i j : Nat) (f : Package → Package) (h : j ≠ i) : (s.modPkg i f).pkg j = s.pkg j := by
  simp [State.pkg, State.modPkg, h]

theorem State.core_modCore_self (s : State) (i : Nat) (f : Core → Core) : (s.modCore i f).core i = f (s.core i) := by
  simp [State.modCore]

theorem State.core_modCore_other (s : State) (i j : Nat) (f : Core → Core) (h : j ≠ i) : (s.modCore i f).core j = s.core j := by
  simp [State.modCore, h]

/-! Slots. -/

@[simp] theorem Core.slot_setSlot (c : Core) (i : Nat) (x : Slot) : (c.setSlot i x).slot i = x := by
  simp only [Core.slot, Core.setSlot, vector_get_set, if_true]

theorem Core.slots_setSlot_other (c : Core) (i : Nat) (x : Slot) (j : Fin 4) (h : j ≠ Fin.ofNat 4 i) :
    (c.setSlot i x).slots.get j = c.slots.get j := by
  simp only [Core.setSlot, vector_get_set, h, if_false]

theorem State.slotAt_setSlotAt_self (s : State) (c i : Nat) (x : Slot) : (s.setSlotAt c i x).slotAt c i = x := by
  simp [State.slotAt, State.setSlotAt, State.modCore]

theorem State.slotAt_modSlotAt_self (s : State) (c i : Nat) (f : Slot → Slot) :
    (s.modSlotAt c i f).slotAt c i = f (s.slotAt c i) := s.slotAt_setSlotAt_self c i _

theorem State.slotAt_setSlotAt_other (s : State) (c i d j : Nat) (x : Slot) (h : d ≠ c ∨ Fin.ofNat 4 j ≠ Fin.ofNat 4 i) :
    (s.setSlotAt c i x).slotAt d j = s.slotAt d j := by
  simp only [State.slotAt, State.setSlotAt, State.modCore, State.core_setCore]
  split
  · next e => subst e; exact Core.slots_setSlot_other _ _ _ _ (h.resolve_left (fun n => n rfl))
  · rfl

@[simp] theorem State.me_setMe (s : State) (x : Slot) : (s.setMe x).me = x := s.slotAt_setSlotAt_self _ _ x

@[simp] theorem State.me_modMe (s : State) (f : Slot → Slot) : (s.modMe f).me = f s.me := s.me_setMe _

@[simp] theorem State.myCore_setMe (s : State) (x : Slot) : (s.setMe x).myCore = s.myCore.setSlot s.cur.slot x := by
  simp [State.myCore, State.setMe, State.setSlotAt, State.modCore]

theorem State.core_setMe_other (s : State) (x : Slot) (j : Nat) (h : j ≠ s.cur.core) : (s.setMe x).core j = s.core j := by
  simp [State.setMe, State.setSlotAt, State.modCore, h]

/-! Registers (09 R216). -/

theorem ofNat_eq5 (i j : BitVec 5) : (Fin.ofNat 32 j.toNat = Fin.ofNat 32 i.toNat) ↔ j = i := by
  rw [← Fin.val_inj, ← BitVec.toNat_inj]
  show j.toNat % 32 = i.toNat % 32 ↔ _
  rw [Nat.mod_eq_of_lt j.isLt, Nat.mod_eq_of_lt i.isLt]

theorem ofNat_eq4 (i j : BitVec 4) : (Fin.ofNat 16 j.toNat = Fin.ofNat 16 i.toNat) ↔ j = i := by
  rw [← Fin.val_inj, ← BitVec.toNat_inj]
  show j.toNat % 16 = i.toNat % 16 ↔ _
  rw [Nat.mod_eq_of_lt j.isLt, Nat.mod_eq_of_lt i.isLt]

theorem ofNat_eq3 (i j : BitVec 3) : (Fin.ofNat 8 j.toNat = Fin.ofNat 8 i.toNat) ↔ j = i := by
  rw [← Fin.val_inj, ← BitVec.toNat_inj]
  show j.toNat % 8 = i.toNat % 8 ↔ _
  rw [Nat.mod_eq_of_lt j.isLt, Nat.mod_eq_of_lt i.isLt]

theorem Slot.rdG_wrG (x : Slot) (i j : BitVec 5) (y : Word) :
    (x.wrG i y).rdG j = if j = i ∧ i ≠ 0 then y else x.rdG j := by
  simp only [Slot.wrG, Slot.rdG]
  by_cases hi : i = 0
  · simp [hi]
  · simp only [hi, if_false, vector_get_set, ofNat_eq5]
    by_cases hj : j = i
    · subst hj; simp only [hi, if_false, not_false_eq_true, ne_eq, and_self, if_true]
    · simp [hj]

theorem Slot.rdK_wrK (x : Slot) (i j : BitVec 3) (y : Word) :
    (x.wrK i y).rdK j = if j = i ∧ i ≠ 0 then y else x.rdK j := by
  simp only [Slot.wrK, Slot.rdK]
  by_cases hi : i = 0
  · simp [hi]
  · simp only [hi, if_false, vector_get_set, ofNat_eq3]
    by_cases hj : j = i
    · subst hj; simp only [hi, if_false, not_false_eq_true, ne_eq, and_self, if_true]
    · simp [hj]

theorem Slot.rdV_wrV (x : Slot) (i j : BitVec 5) (y : VWord) : (x.wrV i y).rdV j = if j = i then y else x.rdV j := by
  simp only [Slot.wrV, Slot.rdV, vector_get_set, ofNat_eq5]

theorem Slot.rdC_wrC (x : Slot) (i j : BitVec 4) (y : Cap) : (x.wrC i y).rdC j = if j = i then y else x.rdC j := by
  simp only [Slot.wrC, Slot.rdC, vector_get_set, ofNat_eq4]

/-- A general register written leaves the other files alone, and the same for the other three. -/
@[simp] theorem Slot.rdK_wrG (x : Slot) (i : BitVec 5) (j : BitVec 3) (y : Word) : (x.wrG i y).rdK j = x.rdK j := by
  unfold Slot.wrG; split <;> rfl
@[simp] theorem Slot.rdV_wrG (x : Slot) (i j : BitVec 5) (y : Word) : (x.wrG i y).rdV j = x.rdV j := by
  unfold Slot.wrG; split <;> rfl
@[simp] theorem Slot.rdC_wrG (x : Slot) (i : BitVec 5) (j : BitVec 4) (y : Word) : (x.wrG i y).rdC j = x.rdC j := by
  unfold Slot.wrG; split <;> rfl
@[simp] theorem Slot.rdG_wrK (x : Slot) (i : BitVec 3) (j : BitVec 5) (y : Word) : (x.wrK i y).rdG j = x.rdG j := by
  unfold Slot.wrK; split <;> rfl
@[simp] theorem Slot.rdV_wrK (x : Slot) (i : BitVec 3) (j : BitVec 5) (y : Word) : (x.wrK i y).rdV j = x.rdV j := by
  unfold Slot.wrK; split <;> rfl
@[simp] theorem Slot.rdC_wrK (x : Slot) (i : BitVec 3) (j : BitVec 4) (y : Word) : (x.wrK i y).rdC j = x.rdC j := by
  unfold Slot.wrK; split <;> rfl
@[simp] theorem Slot.rdG_wrV (x : Slot) (i j : BitVec 5) (y : VWord) : (x.wrV i y).rdG j = x.rdG j := rfl
@[simp] theorem Slot.rdK_wrV (x : Slot) (i : BitVec 5) (j : BitVec 3) (y : VWord) : (x.wrV i y).rdK j = x.rdK j := rfl
@[simp] theorem Slot.rdC_wrV (x : Slot) (i : BitVec 5) (j : BitVec 4) (y : VWord) : (x.wrV i y).rdC j = x.rdC j := rfl
@[simp] theorem Slot.rdG_wrC (x : Slot) (i : BitVec 4) (j : BitVec 5) (y : Cap) : (x.wrC i y).rdG j = x.rdG j := rfl
@[simp] theorem Slot.rdK_wrC (x : Slot) (i : BitVec 4) (j : BitVec 3) (y : Cap) : (x.wrC i y).rdK j = x.rdK j := rfl
@[simp] theorem Slot.rdV_wrC (x : Slot) (i : BitVec 4) (j : BitVec 5) (y : Cap) : (x.wrC i y).rdV j = x.rdV j := rfl

theorem State.rdG_wrG (s : State) (i j : BitVec 5) (y : Word) :
    (s.wrG i y).rdG j = if j = i ∧ i ≠ 0 then y else s.rdG j := by
  simp only [State.rdG, State.wrG, State.me_setMe, Slot.rdG_wrG]

theorem State.rdK_wrK (s : State) (i j : BitVec 3) (y : Word) :
    (s.wrK i y).rdK j = if j = i ∧ i ≠ 0 then y else s.rdK j := by
  simp only [State.rdK, State.wrK, State.me_setMe, Slot.rdK_wrK]

theorem State.rdV_wrV (s : State) (i j : BitVec 5) (y : VWord) : (s.wrV i y).rdV j = if j = i then y else s.rdV j := by
  simp only [State.rdV, State.wrV, State.me_setMe, Slot.rdV_wrV]

theorem State.rdC_wrC (s : State) (i j : BitVec 4) (y : Cap) : (s.wrC i y).rdC j = if j = i then y else s.rdC j := by
  simp only [State.rdC, State.wrC, State.me_setMe, Slot.rdC_wrC]

/-- A register of any file written by name: it alone changes, and a constant register does not. -/
theorem Slot.rd_wrG_other (x : Slot) (i : BitVec 5) (y : Word) (r : RegName) (h : r ≠ .g i ∨ i = 0) : (x.wrG i y).rd r = x.rd r := by
  cases r with
  | g j =>
    simp only [Slot.rd, Slot.rdG_wrG]
    rw [if_neg]; rintro ⟨rfl, hj⟩; exact h.elim (fun n => n rfl) (fun e => hj e)
  | v j => simp only [Slot.rd, Slot.rdV_wrG]
  | k j => simp only [Slot.rd, Slot.rdK_wrG]
  | c4 j => simp only [Slot.rd, Slot.rdC_wrG]

theorem Slot.rd_wrK_other (x : Slot) (i : BitVec 3) (y : Word) (r : RegName) (h : r ≠ .k i ∨ i = 0) : (x.wrK i y).rd r = x.rd r := by
  cases r with
  | k j =>
    simp only [Slot.rd, Slot.rdK_wrK]
    rw [if_neg]; rintro ⟨rfl, hj⟩; exact h.elim (fun n => n rfl) (fun e => hj e)
  | v j => simp only [Slot.rd, Slot.rdV_wrK]
  | g j => simp only [Slot.rd, Slot.rdG_wrK]
  | c4 j => simp only [Slot.rd, Slot.rdC_wrK]

theorem Slot.rd_wrV_other (x : Slot) (i : BitVec 5) (y : VWord) (r : RegName) (h : r ≠ .v i) : (x.wrV i y).rd r = x.rd r := by
  cases r with
  | v j =>
    simp only [Slot.rd, Slot.rdV_wrV]
    rw [if_neg]; rintro rfl; exact h rfl
  | g j => rfl
  | k j => rfl
  | c4 j => rfl

theorem Slot.rd_wrC_other (x : Slot) (i : BitVec 4) (y : Cap) (r : RegName) (h : r ≠ .c4 i) : (x.wrC i y).rd r = x.rd r := by
  cases r with
  | c4 j =>
    simp only [Slot.rd, Slot.rdC_wrC]
    rw [if_neg]; rintro rfl; exact h rfl
  | g j => rfl
  | k j => rfl
  | v j => rfl

end Sys2Proof.Machine
end

