-- ==== Sys2Proof/Tests/Slice0.lean ====
section
/-! SUPPORT. Tests: ill-formed terms that the checks refuse, words written from the encoding tables of 09 that decode to their
instructions, single operations on small states, and states that meet the hypotheses of the statements. -/

open Sys2Proof Sys2Proof.Machine

namespace Sys2Proof.Tests

set_option Elab.async false

/-! Ill-formed terms: one for each check of `Instr.wf` and of `Bundle.wf`. -/

theorem smoke_offset_with_ext : [Instr.br 1 (some 0), .bcc 0 1 2 1 (some 0), .jal 1 1 (some 0), .loop 1 1 (some 0), .li 1 1 (some 0),
    .ldI8 1 2 3 0 1 (some 0), .ld64 1 2 3 0 1 (some 0), .st8 1 2 3 0 1 (some 0), .vld 1 2 3 0 1 (some 0), .vst 1 2 3 0 1 (some 0),
    .stdef 1 2 3 0 1 (some 0)].all (fun i => !i.wf) = true := by decide

theorem smoke_control : [Instr.bcc 6 1 2 0 none, .bcc 7 1 2 0 none, .loop 0 0 none, .jalr 1 2 3].map Instr.wf =
    [false, false, false, true] := by decide

theorem smoke_sizes : [Instr.vlds 1 2 3 0 3 none, .vldx 1 2 3 0 3 none, .vstx 1 2 3 0 3 none, .ldacq 1 2 3 0 1 none,
    .strel 1 2 3 0 0 none, .waita 1 2 3 1 none, .gang 1 3, .xchg 1 2 3, .bar 3].all (fun i => !i.wf) = true := by decide

theorem smoke_codes : [Instr.amo 1 2 3 10 0 0 none, .cspc 1 2 6, .cget 1 2 11, .send 1 31 1, .sendt 1 30 2 3, .fence 0 0, .csrr 1 7,
    .csrw 1 2 0x17, .csrs 1 2 0x21, .csrc 1 2 0x48].all (fun i => !i.wf) = true := by decide

theorem smoke_float : [Instr.fadd 1 2 3 5 0, .fsub 1 2 3 6 0, .fmul 1 2 3 5 1, .ffma 1 2 3 4 6 0, .fsgn 1 2 3 3 0, .fcmp 1 2 3 7 0,
    .fcvt 1 2 10 9 0 0, .fcvt 1 2 9 0x18 0 0, .fcvt 1 2 9 8 5 0].all (fun i => !i.wf) = true := by decide

theorem smoke_vector : [Instr.vadd 1 2 3 0 3 0 0, .vsub 1 2 3 0 10 0 0, .vmul 1 2 3 0 9 0 5, .vfma 1 2 3 0 7 0 0, .vmin 1 2 3 0 3 0,
    .vmax 1 2 3 0 0 6, .vabs 1 2 0 9 1 0, .vneg 1 2 0 8 1 0, .vshl 1 2 3 0 9, .vshr 1 2 3 0 8, .vsra 1 2 3 0 3, .vclamp 1 2 3 0 7 0,
    .vcmp 1 2 3 0 0 7, .vsel 1 2 3 0 3 0, .vcvt 1 2 3 0 9 0, .vcvtSat 1 2 9 0 7 0, .vsfu 1 2 8 0 9 0, .vsfu 1 2 0 0 2 0,
    .vred 1 2 3 0 9 0, .vred 1 2 0 0 8 0, .vdot 1 2 3 0 2 0, .vperm 1 2 3 0 11 0, .vsplat 1 2 0 3 0, .vmovg 1 2 16 2, .vmovl 1 2 32 1].all
    (fun i => !i.wf) = true := by decide

theorem smoke_bundle : [(⟨true, 0, .cnop, .add 1 2 3⟩ : Bundle), ⟨true, 0, .br 0 none, .anop⟩, ⟨false, 0, .br 0 (some 1), .anop⟩,
    ⟨false, 0, .add 1 2 3, .anop⟩, ⟨false, 0, .cnop, .cnop⟩, ⟨false, 0, .liHi 1 2, .anop⟩].all (fun b => !b.wf) = true := by decide

/-! Words written from the formats of R222 and R225 and the majors and functions of R228 to R230. -/

/-- The dword of a C word of a major with its fields, with `anop` beside it, is a bundle of an instruction. -/
def isC (maj fields : Nat) (i : Instr) : Bool :=
  match decodeBundle (maj * 2 ^ 22 + fields) with
  | .ok b => decide (b = ⟨false, 0, i, .anop⟩)
  | .error _ => false

/-- The dword of a lone C word of a major with its fields and EXT is a bundle of an instruction. -/
def isL (maj fields ext : Nat) (i : Instr) : Bool :=
  match decodeBundle (ext * 2 ^ 32 + 2 ^ 31 + maj * 2 ^ 22 + fields) with
  | .ok b => decide (b = ⟨true, 0, i, .anop⟩)
  | .error _ => false

/-- The dword of an A word of a major with its fields, beside `cnop` at stall 5, is a bundle of an instruction. -/
def isA (maj fields : Nat) (i : Instr) : Bool :=
  match decodeBundle ((maj * 2 ^ 26 + fields) * 2 ^ 32 + 5 * 2 ^ 28) with
  | .ok b => decide (b = ⟨false, 5, .cnop, i⟩)
  | .error _ => false

/-- The trap that a dword takes instead of being a bundle: whether it is ILLEGAL, and its XVAL2. -/
def trapsAs (w : Nat) (illegal : Bool) : Bool :=
  match decodeBundle w with
  | .ok _ => false
  | .error e => e.isIllegal == illegal

theorem decode_branches :
    isC 0x01 (2 ^ 22 - 2) (.br (-2) none) && isL 0x01 0 (2 ^ 32 - 9) (.br 0 (some (-9))) &&
    isC 0x02 (4 * 2 ^ 19 + 17 * 2 ^ 14 + 9 * 2 ^ 9 + 0x1FF) (.bcc 4 17 9 (-1) none) &&
    isC 0x03 (31 * 2 ^ 17 + 0x10001) (.jal 31 0x10001 none) && isC 0x04 (3 * 2 ^ 17 + 4 * 2 ^ 12 + 0x800) (.jalr 3 4 0x800) &&
    isC 0x05 (7 * 2 ^ 17 + 5) (.loop 7 5 none) && isC 0x06 (9 * 2 ^ 17 + 0xFFFD) (.li 9 (-3) none) &&
    isL 0x06 (9 * 2 ^ 17) 77 (.li 9 0 (some 77)) && isL 0x06 (9 * 2 ^ 17 + 2 ^ 16) 78 (.liHi 9 78) = true := by decide

/-- A scalar access: G 21, CAP 9, IDX 10, SH 2, DISP -4. -/
def ms : Nat := 21 * 2 ^ 17 + 9 * 2 ^ 13 + 10 * 2 ^ 8 + 2 * 2 ^ 6 + 60

theorem decode_scalar_memory :
    isC 0x08 ms (.ldI8 21 9 10 2 (-4) none) && isC 0x09 ms (.ldN8 21 9 10 2 (-4) none) && isC 0x0A ms (.ldI16 21 9 10 2 (-4) none) &&
    isC 0x0B ms (.ldN16 21 9 10 2 (-4) none) && isC 0x0C ms (.ldI32 21 9 10 2 (-4) none) && isC 0x0D ms (.ldN32 21 9 10 2 (-4) none) &&
    isC 0x0E ms (.ld64 21 9 10 2 (-4) none) && isC 0x0F ms (.st8 21 9 10 2 (-4) none) && isC 0x10 ms (.st16 21 9 10 2 (-4) none) &&
    isC 0x11 ms (.st32 21 9 10 2 (-4) none) && isC 0x12 ms (.st64 21 9 10 2 (-4) none) && isC 0x24 ms (.stdef 21 9 10 2 (-4) none) &&
    isL 0x12 (ms - 60) 0x80000000 (.st64 21 9 10 2 0 (some 0x80000000)) = true := by decide

theorem decode_vector_memory :
    isC 0x13 (30 * 2 ^ 17 + 15 * 2 ^ 13 + 5 * 2 ^ 10 + 6 * 2 ^ 5 + 31) (.vld 30 15 5 6 (-1) none) &&
    isC 0x14 (30 * 2 ^ 17 + 15 * 2 ^ 13 + 5 * 2 ^ 10 + 6 * 2 ^ 5 + 1) (.vst 30 15 5 6 1 none) &&
    isC 0x15 (1 * 2 ^ 17 + 2 * 2 ^ 13 + 3 * 2 ^ 8 + 4 * 2 ^ 5 + 2 * 2 ^ 3) (.vlds 1 2 3 4 2 none) &&
    isC 0x15 (1 * 2 ^ 17 + 2 * 2 ^ 13 + 3 * 2 ^ 8 + 4 * 2 ^ 5 + 1 * 2 ^ 3 + 1) (.vldx 1 2 3 4 1 none) &&
    isC 0x15 (1 * 2 ^ 17 + 2 * 2 ^ 13 + 3 * 2 ^ 8 + 4 * 2 ^ 5 + 2) (.vstx 1 2 3 4 0 none) &&
    isC 0x15 (1 * 2 ^ 17 + 2 * 2 ^ 13 + 3 * 2 ^ 8 + 3) (.ldc 1 2 3 none) &&
    isC 0x15 (1 * 2 ^ 17 + 2 * 2 ^ 13 + 3 * 2 ^ 8 + 4) (.stc 1 2 3 none) &&
    isC 0x15 (1 * 2 ^ 17 + 2 * 2 ^ 13 + 3 * 2 ^ 8 + 4 * 2 ^ 5 + 2 * 2 ^ 3 + 5) (.ldacq 1 2 3 4 2 none) &&
    isC 0x15 (1 * 2 ^ 17 + 2 * 2 ^ 13 + 3 * 2 ^ 8 + 7 * 2 ^ 5 + 3 * 2 ^ 3 + 6) (.strel 1 2 3 7 3 none) &&
    isC 0x15 (1 * 2 ^ 17 + 2 * 2 ^ 13 + 3 * 2 ^ 8 + 3 * 2 ^ 3 + 7) (.waita 1 2 3 3 none) &&
    isC 0x16 (1 * 2 ^ 17 + 2 * 2 ^ 13 + 3 * 2 ^ 8 + 9 * 2 ^ 4 + 2 ^ 3 + 2 * 2) (.amo 1 2 3 9 1 2 none) = true := by decide

theorem decode_capability_and_space :
    isC 0x18 (1 * 2 ^ 18 + 2 * 2 ^ 14) (.cmov 1 2) && isC 0x18 (1 * 2 ^ 18 + 2 * 2 ^ 14 + 3 * 2 ^ 9 + 127 * 2 ^ 2 + 1) (.cadd 1 2 3 (-1)) &&
    isC 0x18 (1 * 2 ^ 18 + 2 * 2 ^ 14 + 3 * 2 ^ 9 + 64 * 2 ^ 2 + 2) (.cbnd 1 2 3 64) &&
    isC 0x18 (1 * 2 ^ 18 + 2 * 2 ^ 14 + 5 * 2 ^ 2 + 3) (.cprm 1 2 5) && isC 0x19 (1 * 2 ^ 17 + 2 * 2 ^ 13 + 5 * 2 ^ 10) (.cspc 1 2 5) &&
    isC 0x19 (17 * 2 ^ 17 + 2 * 2 ^ 13 + 10 * 2 ^ 6 + 1) (.cget 17 2 10) && isC 0x19 (1 * 2 ^ 17 + 2 * 2 ^ 13 + 2) (.ctag 1 2) &&
    isC 0x1C (1 * 2 ^ 17 + 2 * 2 ^ 13 + 3 * 2 ^ 8 + 4 * 2 ^ 3 + 4) (.map 1 2 3 4 1) &&
    isC 0x1C (1 * 2 ^ 17 + 2 * 2 ^ 13 + 3 * 2 ^ 8 + 4 * 2 ^ 3 + 1) (.grant 1 2 3 4 0) &&
    isC 0x1D (1 * 2 ^ 17 + 2 * 2 ^ 13 + 3 * 2 ^ 8 + 4 * 2 ^ 3 + 1) (.dharv 1 2 3 4) = true := by decide

theorem decode_messages_and_jobs :
    isC 0x20 (1 * 2 ^ 17 + 2 * 2 ^ 12 + 3 * 2 ^ 10) (.send 1 2 3) && isC 0x21 (1 * 2 ^ 17 + 28 * 2 ^ 12 + 3 * 2 ^ 10 + 9 * 2 ^ 5) (.sendt 1 28 3 9) &&
    isC 0x22 (1 * 2 ^ 17 + 2 * 2 ^ 12 + 3 * 2 ^ 7) (.ctrarm 1 2 3) && isC 0x23 0 .done && isC 0x23 1 .yield &&
    isC 0x23 (7 * 2 ^ 17 + 2) (.qstat 7) && isC 0x23 (8 + 3) (.abort 1) && isC 0x23 (7 * 2 ^ 17 + 4) (.gvtrd 7) &&
    isC 0x23 (7 * 2 ^ 17 + 5) (.lvtrd 7) && isC 0x28 (1 * 2 ^ 17 + 2 * 2 ^ 12) (.jobwait 1 2) && isC 0x28 (1 * 2 ^ 17 + 2 * 2 ^ 12 + 1) (.jobq 1 2) &&
    isC 0x29 (1 * 2 ^ 17 + 2 * 2 ^ 13) (.copygo 1 2) && isC 0x2A (1 * 2 ^ 17 + 2 * 2 ^ 13) (.clgo 1 2) && isC 0x2B (5 * 2 ^ 17) (.skeep 5) = true := by
  decide

theorem decode_groups_and_system :
    isC 0x2C (1 * 2 ^ 17 + 2 * 2 ^ 15) (.gang 1 2) && isC 0x2D 0 .disband && isC 0x2F (2 * 2 ^ 20) (.bar 2) &&
    isC 0x30 (1 * 2 ^ 17 + 2 * 2 ^ 13) (.glaunch 1 2) && isC 0x31 0 .gtrig && isC 0x31 (5 * 2 ^ 17 + 1) (.gexit 5) &&
    isC 0x31 (5 * 2 ^ 17 + 7 * 2 ^ 2 + 2) (.gid 5 7) && isC 0x32 (5 * 2 ^ 17) (.gcancel 5) && isC 0x34 (9 * 2 ^ 10 + 2) (.brk 9) && isC 0x34 3 .idle &&
    isC 0x34 (2 * 2 ^ 6 + 5 * 2 ^ 3 + 4) (.fence 2 5) && isC 0x35 (1 * 2 ^ 17 + 0x20 * 2 ^ 2) (.csrr 1 0x20) &&
    isC 0x35 (1 * 2 ^ 17 + 2 * 2 ^ 12 + 0x47 * 2 ^ 2 + 3) (.csrc 1 2 0x47) = true := by decide

theorem decode_integers :
    isA 0x01 (31 * 2 ^ 21 + 1 * 2 ^ 16 + 2 * 2 ^ 11 + 20) (.remn 31 1 2) && isA 0x01 (31 * 2 ^ 21 + 1 * 2 ^ 16 + 23) (.popc 31 1) &&
    isA 0x02 (1 * 2 ^ 21 + 2 * 2 ^ 16 + 0x8000) (.addi 1 2 0x8000) && isA 0x08 (1 * 2 ^ 21 + 2 * 2 ^ 16 + 63) (.srai 1 2 63) &&
    isA 0x09 (1 * 2 ^ 21 + 2 * 2 ^ 16 + 0xFFFF) (.slti 1 2 0xFFFF) = true := by decide

theorem decode_floats :
    isA 0x10 (1 * 2 ^ 21 + 2 * 2 ^ 16 + 3 * 2 ^ 11 + 4 * 2 ^ 6 + 7 * 2 ^ 3 + 4 + 3) (.ffma 1 2 3 4 7 1) &&
    isA 0x11 (1 * 2 ^ 21 + 2 * 2 ^ 16 + 3 * 2 ^ 11 + 6 * 2 ^ 8 + 8 + 3) (.fcmp 1 2 3 6 1) &&
    isA 0x11 (1 * 2 ^ 21 + 2 * 2 ^ 16 + 4) (.fclass 1 2 0) &&
    isA 0x12 (1 * 2 ^ 21 + 2 * 2 ^ 16 + 0x1F * 2 ^ 11 + 3 * 2 ^ 6 + 4 * 2 ^ 3 + 4) (.fcvt 1 2 0x1F 3 4 1) = true := by decide

theorem decode_vectors :
    isA 0x1B (1 * 2 ^ 21 + 2 * 2 ^ 16 + 3 * 2 ^ 11 + 5 * 2 ^ 8 + 9 * 2 ^ 4 + 4) (.vfma 1 2 3 5 9 0 4) &&
    isA 0x1E (1 * 2 ^ 21 + 2 * 2 ^ 16 + 5 * 2 ^ 8 + 8) (.vabs 1 2 5 0 1 0) && isA 0x20 (1 * 2 ^ 21 + 2 * 2 ^ 16 + 3 * 2 ^ 11 + 5 * 2 ^ 8 + 2) (.vxor 1 2 3 5) &&
    isA 0x21 (1 * 2 ^ 21 + 2 * 2 ^ 16 + 3 * 2 ^ 11 + 5 * 2 ^ 8 + 6 * 2 ^ 4 + 1) (.vshr 1 2 3 5 6) &&
    isA 0x23 (7 * 2 ^ 21 + 2 * 2 ^ 16 + 3 * 2 ^ 11 + 5 * 2 ^ 8 + 4 * 2 ^ 4 + 6) (.vcmp 7 2 3 5 4 6) &&
    isA 0x26 (1 * 2 ^ 21 + 2 * 2 ^ 16 + 0x14 * 2 ^ 11 + 5 * 2 ^ 8 + 9 * 2 ^ 3 + 7) (.vcvtSat 1 2 0x14 5 9 7) &&
    isA 0x27 (1 * 2 ^ 21 + 2 * 2 ^ 16 + 7 * 2 ^ 11 + 5 * 2 ^ 8 + 9 * 2 ^ 4) (.vsfu 1 2 7 5 9 0) &&
    isA 0x28 (1 * 2 ^ 21 + 2 * 2 ^ 16 + 2 * 2 ^ 11 + 5 * 2 ^ 8 + 2 * 2 ^ 4) (.vred 1 2 2 5 2 0) &&
    isA 0x2B (1 * 2 ^ 21 + 2 * 2 ^ 16 + 5 * 2 ^ 8 + 1 * 2 ^ 4) (.vsplat 1 2 5 1 0) &&
    isA 0x2C (1 * 2 ^ 21 + 2 * 2 ^ 16 + 63 * 2 ^ 10) (.vmovg 1 2 63 0) && isA 0x2D (1 * 2 ^ 21 + 2 * 2 ^ 16 + 15 * 2 ^ 10 + 9 * 2 ^ 4) (.vmovl 1 2 15 9) = true := by
  decide

theorem decode_predicates :
    isA 0x30 (1 * 2 ^ 23 + 2 * 2 ^ 20 + 3) (.knot 1 2) && isA 0x30 (1 * 2 ^ 23 + 2 * 2 ^ 20 + 4) (.kmovK 1 2) &&
    isA 0x31 (17 * 2 ^ 21 + 3 * 2 ^ 18) (.kpop 17 3) && isA 0x31 (17 * 2 ^ 21 + 3 * 2 ^ 18 + 1) (.kmovKg 17 3) &&
    isA 0x31 (17 * 2 ^ 21 + 3 * 2 ^ 18 + 2) (.kmovGk 17 3) = true := by decide

theorem decode_policy : [(0, (3 * 2 ^ 20 : Nat))].map (fun e => decodePolicy (e.1 * 2 ^ 26 + e.2)) = [some (.policyRet 3)] ∧
    decodePolicy (1 * 2 ^ 26 + 2 * 2 ^ 23 + 0x1FFFF) = some (.policyLi 2 0x1FFFF) := by decide

/-! Reserved words: a major, a function and a field value that are not assigned. -/

theorem reserved_words :
    trapsAs (0x07 * 2 ^ 22) true && trapsAs (0x38 * 2 ^ 22) true && trapsAs (0x0A * 2 ^ 58) true && trapsAs (0x1D * 2 ^ 22 + 3) true &&
    trapsAs (1 * 2 ^ 58 + 24 * 2 ^ 32) true && trapsAs (0x02 * 2 ^ 22 + 6 * 2 ^ 19) true && trapsAs (0x34 * 2 ^ 22 + 4) false &&
    trapsAs (0x2F * 2 ^ 22 + 3 * 2 ^ 20) false && trapsAs (0x35 * 2 ^ 22 + 7 * 2 ^ 2) false && trapsAs 1 false && trapsAs (2 ^ 32) false &&
    trapsAs (0x18 * 2 ^ 58 + 3 * 2 ^ 36) false = true := by decide


/-! States for the witnesses. Core 0 of context 5 runs slot 0; a node of the context maps 64 pages of HBM at page 0x10. -/

/-- A capability of every permission. -/
def capTo (space base len : Nat) : Cap := Cap.make true space (lenFields len).1 (lenFields len).2 0 0x7F base

/-- A slot that runs: g(i) = i, capabilities of memory, of local memory, of the slice of a peer, of the control page and of the command
window in c1 to c5, elements in v1 and v2, and four lanes in k1. -/
def slotW : Slot := { Slot.reset with
  st := .ready, pc := 0x10000, npc := 0x10000, code := capTo 0 0x10000 0x1000,
  g := Vector.ofFn (fun i => BitVec.ofNat 64 i.val),
  c := Vector.ofFn (fun i => if i.val = 1 then capTo 0 0x10000 0x10000 else if i.val = 2 then capTo 1 0 0x8000
    else if i.val = 3 then capTo 2 0 0x10000 else if i.val = 4 then capTo 4 0 0x1000 else if i.val = 5 then capTo 5 0 0x1000 else Cap.zero),
  v := Vector.ofFn (fun i => if i.val = 1 then BitVec.ofNat 512 0x3F80000040000000BF800000 else if i.val = 2 then 0x0201 else 0),
  k := Vector.ofFn (fun i => if i.val = 1 then 0xF else 0) }

/-- The node that maps pages 0x10 to 0x4F of GLOBAL to frames 0x100 on, and its translation. -/
def nodeW : Node := ⟨0, false, false, false, 1, 5, 0x10, 0, 0, 0x7F, 0x100, 64, some 0⟩
def entryW : TlbEntry := ⟨5, 0, 0x10, 64, 0x100, 0x7F, 0, 0, 0, 2, false⟩

/-- A core of context 5 whose four slots are given. -/
def coreW (x y : Slot) : Core := { Core.reset with ctx := 5, slots := #v[x, y, Slot.reset, Slot.reset], rangeTlb := [entryW], xtvec1 := 0x20001 }

/-- Context 5, running on die 0. -/
def ctxW : Ctx := { Ctx.reset with st := .running, dies := [0], lastDies := [0], order := 1, sliceEnd := some 100, neverIn := false }

/-- The state with a core 0. -/
def withCore (c : Core) : State := { State.reset with
  cores := ⟨[(0, c), (1, coreW Slot.reset Slot.reset)]⟩, ctxs := ⟨[(5, ctxW)]⟩,
  pkgs := ⟨[(0, { Package.reset 0 with cellar := ⟨(rootNodes 0).entries ++ [(2, nodeW)]⟩ })]⟩ }

/-- Slot 0 of core 0 runs, and memory holds a few bytes of its pages. -/
def stW : State := { withCore (coreW slotW Slot.reset) with mem := [(0x100008, 0xEE), (0x100009, 0xFF)] }

/-- An outcome with a state. -/
def okEx {α β : Type} (x : Except α β) : Bool :=
  match x with
  | .ok _ => true
  | .error _ => false

/-! Witnesses: for each statement, states and operands that meet the hypotheses of its clauses. -/

theorem witness_DecodedBundleReencodes : (0x01920003 : Nat) < 2 ^ 64 ∧ decodeBundle 0x01920003 = .ok ⟨false, 0, .li 9 3 none, .anop⟩ :=
  ⟨by decide, rfl⟩

theorem witness_EveryInstructionRoundTrips : (⟨false, 3, .li 9 3 none, .add 31 1 2⟩ : Bundle).wf = true ∧
    comboBad (.li 9 3 none) (.add 31 1 2) = false ∧ (⟨true, 3, .br 0 (some 9), .anop⟩ : Bundle).wf = true ∧
    comboBad (.br 0 (some 9)) .anop = false ∧ (Instr.policyLi 7 0x1FFFF).isPolicy = true ∧
    decodePolicy 0x05FFFFFF = none ∧ decodePolicy 0x0401FFFF = some (.policyLi 0 0x1FFFF) := by decide

/-- The state in which the one bundle that can issue is slot 0's, at a dword. -/
def stB (w : Nat) : State := { stW with mem := Memory.write [] 0x100000 (leBytes 8 w), ctxs := ⟨[(5, { ctxW with sliceEnd := none })]⟩ }

/-- A state with a policy program of one word, about to run it. -/
def stP (w : BitVec 32) (event : Nat) : State := { stW.modCtx 5 (fun c => { c with policy := [w] }) with
  polRun := some ⟨5, event, [], [], Vector.replicate 8 0, 0, 0, none, false⟩ }

theorem witness_StepRunsDecodedInstruction :
    let s := stB 0x01920003
    let b : Bundle := ⟨false, 0, .li 9 3 none, .anop⟩
    (s.polRun = none ∧ s.agenda = [] ∧ s.newTimers = [] ∧ s.pick = some (⟨0, 0⟩, s) ∧ (s.core 0).dbg.stepping = false ∧
      (match (s.choosing ⟨0, 0⟩).fetch with
       | .ok (w, s2) =>
         let u : State := { s2 with bundle := BitVec.ofNat 64 w };
         w == 0x01920003 && !u.me.interlocked b u.clock && !releases b.c && (u.me.sourcesOf b).all (fun q => (u.me.short q).isNone) &&
           u.me.gang.isNone && u.me.gangRole != 2
       | .error _ => false) = true) ∧
    ({ stW with agenda := [⟨.sampleLatch, [0]⟩] } : State).polRun = none ∧ stW.eager = true ∧ stW.clock % 2 = 0 ∧
    (⟨.sampleLatch, [0]⟩ : Due).prompt = false ∧ (⟨.controlRegisterWrite, []⟩ : Due).prompt = true ∧
    -- a step whose page has missed, and the same one with the page granted
    (let d : Due := ⟨.wait, [0]⟩
     let s := stW.modHq 0 (fun h => { h with ctx := 5, state := 1, busy := .wait 0x10000 1 });
     (match exec d.step { s with args := d.args, missed := [] } with
      | .next t => (match t.missed.find? (fun m => !s.granted.contains (d, m)) with
        | some m => t.missed.all (fun x => x == m) && ({ s with granted := [(d, m)] } : State).granted.contains (d, m)
        | none => false)
      | _ => false) = true) ∧
    (match exec (.policyLi 0 0) (stP 0x04000000 2) with
     | .next t => (match t.polRun with
       | some r' => decide (r'.steps < 512) && r'.result.isNone
       | none => false)
     | _ => false) = true ∧ decodePolicy 0x04000000 = some (.policyLi 0 0) :=
  ⟨⟨rfl, rfl, by decide, rfl, rfl, by decide +kernel⟩, rfl, rfl, by decide, rfl, rfl,
    by decide +kernel, by decide +kernel, by decide⟩

/-- The dword's trap and what its state holds: the hypotheses of the statement of encoding traps. -/
theorem witness_EncodingTrapsAtTheBundle : [(0x01C00000, true), (0x00B00000, true), (0x0D000008, false)].all (fun e =>
    let s := stB e.1
    match (s.choosing ⟨0, 0⟩).fetch, decodeBundle e.1 with
    | .ok (w, s2), .error x => w == e.1 && x.isIllegal == e.2 && s2.cur == ⟨0, 0⟩ && !s2.me.spec && s2.me.gang.isNone &&
        s2.me.gangRole != 2 && s2.me.tl == 0 && s2.myCore.xtvec1.getLsbD 0
    | _, _ => false) = true := by decide +kernel

theorem witness_TrapEntrySavesAndVectors : stW.me.gang = none ∧ stW.me.gangRole ≠ 2 ∧ stW.me.tl = 0 ∧ stW.myCore.xtvec1.getLsbD 0 = true ∧
    (stW.modMe (fun x => { x with xstat := 1 })).me.tl = 1 ∧ (stW.modMyCore (fun c => { c with xtvec1 := 0 })).me.tl = 0 := by decide

theorem witness_AInstructionsWriteOnlyTheirDestinations : [Instr.add 31 31 31, .vadd 31 1 1 7 9 0 4, .vcvtSat 0 1 0x1F 1 9 4, .kmovKg 1 7,
    .fcvt 1 2 0x1F 3 4 1].all (fun i => i.isA && i.wf) = true := by decide

theorem witness_IntegerResults : stW.rdG 3 ≠ 0 ∧ stW.rdG 0 = 0 ∧
    (let s := (stW.wrG 1 (BitVec.ofInt 64 (-(2 ^ 63 : Nat)))).wrG 2 (BitVec.ofInt 64 (-1));
     s.rdG 1 = BitVec.ofInt 64 (-(2 ^ 63 : Nat)) ∧ s.rdG 2 = BitVec.ofInt 64 (-1)) := by decide

theorem witness_RoundingChoosesTheNeighbour : 2 ^ 24 ≤ 0x1000001 ∧ 0x1000001 < 2 ^ (24 + 1) ∧
    (roundMag .rne false 24 (-149) 0x1000001 0 0).2 = 1 ∧ (roundMag .rne false 24 (-149) 3 0 0).2 ≤ 0 ∧
    (roundMag .rst true 4 (-7) 0x11 (-8) 65535).2 = -7 ∧ (roundMag .rup true 4 (-7) 0x1F 0 0).2 = 1 ∧
    (2 : Int) * 0x800000 * 2 ^ 1 = 2 * 0x1000001 - 2 ^ 1 := by decide

theorem witness_ScalarFloatResults : rndOk 0 = true ∧ rndOk 4 = true ∧ rndOk 7 = true ∧ rndOk 5 = false ∧ (2 : BitVec 3).toNat < 3 ∧
    (6 : BitVec 3).toNat < 7 ∧ (1 : BitVec 5) ≠ 0 := by decide

theorem witness_ScalarConversion : rndOk 7 = true ∧ Fmt.ofCode (0x14 : BitVec 5).toNat = some (.bin8 4 false) ∧
    Fmt.ofCode (9 : BitVec 5).toNat = some .f32 ∧ Fmt.ofCode (0 : BitVec 5).toNat = some (.int 8 true) := by decide

theorem witness_VectorIntegerByElement : rndOk 4 = true ∧ vecFmt 0 = some (.int 8 true) ∧ vecFmt 6 = some (.int 32 false) ∧ vecFmt 9 = some .f32 := by
  decide

theorem witness_VectorFloatElements : rndOk 0 = true ∧ vecFmt 8 = some .bf16 ∧ Fmt.bf16.isFloat = true ∧ Fmt.f32.isFloat = true := by decide

theorem witness_VectorMovesAndCompares : (63 : BitVec 6).toNat < 512 / (Fmt.int 8 true).width ∧ vecFmt 0 = some (.int 8 true) ∧
    (6 : BitVec 3).toNat < 7 ∧ (7 : BitVec 3) ≠ 0 := by decide

theorem witness_VectorConversionByElement : rndOk 7 = true ∧ vfmtOk 0x14 = true ∧ vfmtOk 9 = true ∧
    Fmt.ofCode (0x14 : BitVec 5).toNat = some (.bin8 4 false) := by decide

theorem witness_SpecialFunctionsByElement : rndOk 0 = true ∧ (7 : BitVec 5).toNat < 8 ∧ predBit (stW.rdK 1) 3 = true ∧
    predBit (stW.rdK 1) 4 = false ∧ (sfuCode 0 (elem (stW.rdV 1) 32 1)).isSome = true ∧
    decodeNum .f32 false 0xFF8001 = .fin false 0xFF8001 (-149) ∧ decodeNum .f32 false 0xBF800000 = .fin true 0x800000 (-23) := by decide +kernel

theorem witness_SpecialFunctionsRoundOnce : decodeNum .f32 false 0x40490FDB = .fin false 0xC90FDB (-22) ∧
    |realOf (.fin false 0xC90FDB (-22))| ≤ (2 : ℝ) ^ 16 ∧ (sfuCode 4 0x40490FDB).isSome = true ∧
    decodeNum .f32 false 0x44000000 = .fin false 0x800000 (-14) ∧ (2 : ℝ) ^ 9 ≤ |realOf (.fin false 0x800000 (-14))| :=
  ⟨by decide +kernel, by norm_num [realOf], by decide +kernel, by decide +kernel, by norm_num [realOf]⟩

theorem witness_ReductionsFollowTheTree : rndOk 7 = true ∧
    RMode.ofField (7 : BitVec 3).toNat (bitsOf stW.me.xstat.toNat 6 3) ≠ .rst ∧ RMode.ofField (4 : BitVec 3).toNat 0 = .rst := by decide

/-- Both outcomes of a comparison, a loop's count above and at its end, and a core that traces. -/
theorem witness_ControlGoesToItsTarget : (5 : BitVec 3).toNat < 6 ∧ (stW.rdG 1 == stW.rdG 1) = true ∧ (stW.rdG 1 == stW.rdG 2) = false ∧
    stW.rdG 2 ≠ 1 ∧ stW.rdG 1 = 1 ∧
    (let s := stW.modMyCore (fun c => { c with dbg := { c.dbg with trace := true, buffer := 0x100000 } });
     s.mem.wf = true ∧ s.keyed (s.myCore.dbg.buffer + s.myCore.dbg.fill) 16 0 = true) := by decide

theorem witness_CapabilityDerivation : (stW.rdC 0).tag = false ∧ (stW.rdC 1).tag = true ∧ (stW.rdG 0).toNat + (0 : BitVec 7).toNat = 0 ∧
    (let c := stW.rdC 1;
     0 ≤ c.cursor ∧ c.cursor < (2 ^ 57 : Nat) ∧ c.base ≤ c.cursor ∧ c.cursor + roundedLen 127 ≤ (c.base + c.len : Nat)) ∧
    (let s := stW.wrG 1 0x10100; let c := s.rdC 1; (c.base + c.len : Nat) < c.cursor + roundedLen 0x10100) ∧
    (5 : BitVec 3).toNat < 6 ∧ (10 : BitVec 4).toNat < 11 ∧ (stW.rdC 3).space = 2 ∧ stW.cur.core * 65536 ≤ (stW.rdC 3).base ∧
    (stW.rdC 3).base + (stW.rdC 3).len ≤ (stW.cur.core + 1) * 65536 := by decide

/-- At TL0 a register is denied and another read and written; at TL2 the last is written, and in a timed slot a layout is not. -/
theorem witness_ControlRegistersByLevel : csrOk 0 = true ∧ csrOk 0x20 = true ∧ csrOk 0x48 = false ∧ stW.me.tl = 0 ∧
    (stW.modMe (fun x => { x with xstat := 2 })).me.tl = 2 ∧ (stW.modMe (fun x => { x with xstat := 1 })).me.timed = false ∧
    (stW.modMe (fun x => { x with xstat := 0x201 })).me.timed = true := by decide

/-- A scalar access comes to memory. -/
def goesToMem (s : State) (i : BitVec 4) (k : AccKind) (ea : Int) (n : Nat) : Bool :=
  match s.access (s.rdC i) i.toNat k ea n n with
  | .ok (.mem a key _) => s.keyed a n key && !(linesOf a n).any s.poison.contains
  | _ => false

/-- The checks of 01 R26 on a load of n bytes, true where one fails. -/
def failsOf (c : Cap) (ea : Int) (n : Nat) : List Bool :=
  let last := ea + n - 1
  [!c.tag, decide (5 < c.space) || !(decide (c.space < 4) || decide (4 ≤ n)), (1 : BitVec 7) &&& ~~~c.perm != 0,
    decide (ea < 0) || decide ((2 ^ 64 : Nat) ≤ last), decide (ea < c.base) || decide ((c.base + c.len : Nat) ≤ last),
    decide (ea < extent c.space) && decide ((extent c.space : Int) ≤ last), decide ((2 ^ 57 : Nat) ≤ ea), decide (ea % n ≠ 0)]

/-- Each check fails first somewhere, and an access that passes them meets a page that may not be read. -/
theorem witness_checksTrap :
    ([(Cap.zero, 0x10000, 8), (capTo 5 0 0x1000, 0, 1), (Cap.make true 0 (lenFields 0x1000).1 (lenFields 0x1000).2 0 0x7E 0x10000, 0x10000, 8),
      (capTo 0 0x10000 0x1000, -8, 8), (capTo 0 0x10000 0x1000, 0x11000, 8), (capTo 1 0 0x20000, 0xFFFF, 2),
      (capTo 0 (2 ^ 57 - 0x1000) 0x2000, (2 ^ 57 : Nat), 8), (capTo 0 0x10000 0x1000, 0x10001, 2)] : List (Cap × Int × Nat)).map
      (fun e => (failsOf e.1 e.2.1 e.2.2).findIdx? id) = (List.range 8).map some ∧
    (failsOf (capTo 0 0x10000 0x1000) 0x10000 8).any id = false ∧
    (match (stW.modCore 0 (fun c => { c with rangeTlb := [{ entryW with perm := 0x7E }] })).xlat 0 0x10000 8 .load with
     | .fault _ => true
     | _ => false) = true := by decide +kernel

/-- Accesses at the first and the last bytes of a capability, and past its end. -/
theorem witness_ScalarLoadsReadMemory : [1, 2, 4, 8].all (fun n => goesToMem stW 1 .load 0x10000 n && goesToMem stW 1 .load (0x20000 - n) n &&
    goesToMem stW 2 .load 0 n && !okEx (stW.access (stW.rdC 1) 1 .load 0x20000 n n) &&
    decide ((stW.rdC 1).cursor + (stW.rdG 0).toInt * (2 ^ 0 : Nat) + dispOf (BitVec.toInt (0 : BitVec 6)) n none = 0x10000)) = true := by decide +kernel

/-- A context whose pages are tracked. -/
def stT : State := (stW.modCtx 5 (fun c => { c with tracks := [⟨0, 0x10, 64, 0x200000⟩] })).modCore 0 (fun c =>
  { c with pageTlb := [{ entryW with pages := 1 }, { entryW with vpn := 0x1F, frame := 0x10F, pages := 1 }] })

theorem witness_ScalarStoresWriteMemory : [1, 2, 4, 8].all (fun n => goesToMem stT 1 .store 0x10000 n && goesToMem stT 1 .store (0x20000 - n) n &&
    goesToMem stT 2 .store 0 n && !okEx (stT.access (stT.rdC 1) 1 .store 0x20000 n n)) = true ∧
    stT.tracked stT.myCtxId 0 0x1F = some (0x200000, 15) ∧ stT.keyed 0x200000 8 0 = true ∧ stT.tracked stT.myCtxId 0 0x4F = some (0x200008, 31) ∧
    (stT.rdC 2).tag = true ∧ (stT.rdC 2).space = 1 ∧ (stT.rdC 5).space = 5 ∧ (stT.rdC 1).space ≠ 1 := by decide +kernel

theorem witness_plainPlaces (s : State) (n : Nat) (ps : List (Nat × Int × Place))
    (h : ps.all (fun p => match p.2.2 with
      | .mem a k _ => s.keyed a n k && !(linesOf a n).any s.poison.contains
      | _ => false) = true) : plainPlaces s n ps := by
  intro p hp
  have := List.all_eq_true.mp h p hp
  match hq : p.2.2, this with
  | .mem a k lc, h' => simp at h'; exact ⟨a, k, lc, rfl, h'.1, by simpa using h'.2⟩

/-- The elements of a vector access come to memory. -/
def goesToPlaces (s : State) (i : BitVec 4) (k : AccKind) (sh : Shape) (n align : Nat) (al : Int → Int) (es : List (Nat × Int)) : Bool :=
  match s.accessVec (s.rdC i) k sh n align al es with
  | .ok ps => ps.all (fun p => match p.2.2 with
    | .mem a key _ => s.keyed a n key && !(linesOf a n).any s.poison.contains
    | _ => false)
  | .error _ => false

theorem witness_VectorLoadsReadByElement :
    let es := ((List.range 16).filter (predBit (stW.rdK 1))).map (fun (j : Nat) => (j, (0x10000 : Int) + 4 * j));
    es.length = 4 ∧ goesToPlaces stW 1 .load .contig 4 64 (fun _ => 0x10000) es = true ∧
    goesToPlaces stW 1 .load .element 1 1 id [(0, 0x10008), (63, 0x1FFFF)] = true ∧
    okEx (stW.accessVec (stW.rdC 1) .load .element 1 1 id [(0, 0x20000)]) = false := by decide +kernel

theorem witness_VectorStoresWriteByElement : (stW.rdC 1).space ≠ 5 ∧ stW.tracked stW.myCtxId 0 0x10 = none ∧
    goesToPlaces stW 1 .store .contig 4 64 (fun _ => 0x10000) [(0, 0x10000), (1, 0x10004)] = true ∧
    goesToPlaces stW 1 .store .element 4 4 id [(0, 0x10008), (1, 0x10008), (15, 0x1FFFC)] = true ∧
    okEx (stW.accessVec (stW.rdC 1) .store .element 2 2 id [(0, 0x20000)]) = false := by decide +kernel

theorem witness_CapabilitiesMoveLoadAndStore : goesToMem stT 1 .ldc 0x10000 16 = true ∧ goesToMem stT 1 .stc 0x1FFF0 16 = true ∧
    goesToMem stT 2 .stc 0x7FF0 16 = true ∧ okEx (stT.access (stT.rdC 1) 1 .ldc 0x10008 16 16) = false ∧
    okEx (stT.access (stT.rdC 1) 1 .stc 0x20000 16 16) = false := by decide +kernel

theorem witness_AtomicsWaitsAndFences : (9 : BitVec 4).toNat < 10 ∧ goesToMem stT 1 .amo 0x10000 4 = true ∧ goesToMem stT 1 .amo 0x1FFF8 8 = true ∧
    goesToMem stW 1 .waita 0x10008 4 = true ∧ stW.me.timed = false ∧ leNat (stW.mem.read 0x100008 4) ≠ (stW.rdG 1).toNat % 2 ^ 32 ∧
    leNat (stW.mem.read 0x100000 4) = (stW.rdG 0).toNat % 2 ^ 32 ∧ stW.me.gang = none ∧
    (stW.waitLines (clusterOf stW.cur.core)).length < Config.waitLines ∧ (stW.rdC 2).space = 1 ∧ (1 : BitVec 2) ≠ 0 := by decide +kernel

/-- A message of core 1 to core 0, for a queue, in context 5. -/
def msgW (q : Nat) : Msg := ⟨100, 0x100000007, BitVec.ofNat 64 (q * 2 ^ 20 + 9 * 2 ^ 23), 5, Vector.replicate 4 0x55, [], 4⟩

/-- A timed message with the key of the running activation, and that activation. -/
def keyW : Key := ⟨50, 0, 3⟩
def msgA : Msg := { msgW 4 with vrt := 50, dw1 := 3 }
def actW : Act := ⟨keyW, 3, some 0, false, ⟨msgA, 0, none, .free, true, false⟩, [], [], [msgW 4], []⟩

/-- The operand of a send to core 1, for a queue. -/
def sendTo (q : Nat) : Word := BitVec.ofNat 64 (1 + q * 2 ^ 20 + 9 * 2 ^ 23)

/-- Slot 0 with another status word, and an operand in g2. -/
def stX (xstat g : Word) (k : Option Key) : State := (stW.modMe (fun x => { x with xstat := xstat, actKey := k })).wrG 2 g

/-- A timed activation of the timeline 3 of context 5, speculative or not. -/
def stA (xstat g : Word) : State := { (stX xstat g (some keyW)).modCore 0 (fun c => { (c.setQueue 4 [⟨msgA, 0, none, .free, true, false⟩]) with
  acts := [actW], force := ⟨4, 8, false, 0, 0x103⟩ }) with timelines := ⟨[(3, 5)]⟩ }

theorem witness_SendsPostOneMessage : (29 : BitVec 5).toNat + (2 : BitVec 2).toNat ≤ 31 ∧
    (let s := stX 0 (sendTo 3) none; bitsOf (s.rdG 2).toNat 20 3 < 4 ∧ s.me.spec = false ∧ s.myCore.port.length < Config.portDepth) ∧
    3 < bitsOf (sendTo 4).toNat 20 3 ∧
    (let s := (stX 0 (sendTo 3) none).modMyCore (fun c => { c with port := List.replicate 8 (msgW 0) });
     s.me.spec = false ∧ Config.portDepth ≤ s.myCore.port.length) ∧
    (let s := stX 0x200 (sendTo 4) none; bitsOf (s.rdG 2).toNat 20 3 = 4 ∧ bitsOf (s.rdG 2).toNat 23 10 ≠ 1023 ∧
      bitsOf (s.rdG 2).toNat 33 10 = 0 ∧ s.me.timed = true ∧ (s.rdG 1).toNat < 2 ^ 64 - 2 ∧ s.me.spec = false) ∧
    (let s := stA 0x600 (sendTo 0); bitsOf (s.rdG 2).toNat 20 3 < 4 ∧ s.me.spec = true ∧ s.me.actKey = some keyW ∧
      (s.cluster (clusterOf s.cur.core)).commitQ.length < Config.commitEntries) := by decide +kernel

/-- The counter of core 1 and queue 2 of the cluster: a count to come, and one that has come. -/
theorem witness_CountersQueuesAndTime : stW.me.timed = false ∧ bitsOf 0x2_0001 12 3 < 4 ∧ bitsOf 0x2_0001 15 10 ≠ 1023 ∧
    bitsOf 0x1_8_B005 12 3 < 4 ∧ 0 < (stW.rdG 2).toNat ∧ (stW.rdG 2).toNat < 2 ^ 31 ∧
    ((stW.cluster 0).counters.getD 5 Counter.reset).value + 2 > 0 ∧
    (let s := stW.modCluster 0 (fun c => { c with counters := c.counters.set 5 { Counter.reset with value := -2 } });
     ((s.cluster 0).counters.getD 5 Counter.reset).value + 2 = 0) ∧ (1 : BitVec 5) ≠ 0 ∧
    (stA 0x200 0).boundTimeline 0 = some 3 ∧ (stA 0x200 0).gvtAt (clusterOf 0) 3 = some ⟨0, 0, 0⟩ ∧ stW.boundTimeline 0 = none ∧
    stW.myCore.floorKeys = [] ∧ (stA 0x200 0).myCore.floorKeys = [keyW] := by decide +kernel

theorem witness_ActivationsEnd : stW.me.tl ≠ 2 ∧ stW.accessesDone = true ∧ stW.me.gang = none ∧ stW.myCore.dbg.trace = false ∧
    stW.me.actKey = none ∧ (stX 2 0 none).me.tl = 2 ∧
    (let s := stA 0x600 0; s.me.tl ≠ 2 ∧ s.accessesDone = true ∧ s.me.spec = true ∧ s.me.actKey = some keyW ∧ s.myCore.acts = [actW] ∧
      (s.myCore.queue 4).map (fun e => (e.taken, e.msg.key)) = [(true, keyW)]) ∧
    (let s := stA 0x200 0; s.me.spec = false ∧ s.me.actKey = some keyW ∧ s.accessesDone = true) := by decide +kernel

/-- Core 0 with a block of its cluster resident. -/
def blockW : Block := ⟨5, 7, 3, 1, 1, [0], none, false, 0, false, .empty, false, .empty⟩
def stG : State := { stW.modCluster 0 (fun c => { c with block := some 0 }) with blocks := ⟨[(0, blockW)]⟩, nextBlock := 1 }

/-- A message that has left, for a queue of core 0, and a queue that is full. -/
def stN (q : Nat) : State := { stG with
  channels := [⟨4, 0, q, [msgW q]⟩], args := [4, 0, q], timelines := ⟨[(3, 5)]⟩,
  cores := stG.cores.modify 0 Core.reset (fun c => { c with force := ⟨4, 8, false, 0, 0x103⟩ }) }
def stFull (q : Nat) : State := (stN q).modCore 0 (fun c => { c.setQueue q (respill (List.replicate 100 ⟨{ msgA with dw2 := 0 }, 0, none, .free, false, false⟩)) with force := { c.force with spillK := 1 } })

theorem witness_MessagesTravelInOrder :
    (let s : State := { stG.modCore 0 (fun c => { c with port := [msgW 1, msgW 4] }) with args := [0] };
     (s.core 0).port = msgW 1 :: [msgW 4] ∧ (msgW 1).ctx ≠ 0xFFFFF ∧ s.inPartition (msgW 1).ctx (msgW 1).dest = true ∧
       s.inPartition 5 0xFFFF = false ∧ bitsOf (s.ctx 5).page.derr.toNat 0 32 = 0 ∧ s.backs (msgW 1) = false ∧
       (s.modCore 0 (fun c => { c with eject := [msgW 1] })).backs (msgW 1) = true) ∧
    (let s := stN 2; s.channel 4 0 2 = [msgW 2] ∧ (msgW 2).sign = false ∧ (msgW 2).dq = 2 ∧ (msgW 2).ctx = 5 ∧ (msgW 2).ctr = 0 ∧
      (msgW 2).hidx ≠ 1023 ∧ (s.ctx 5).st = .running ∧ (s.core 0).saved = false ∧
      (s.core 0).eject.any (fun e => e.agent == (msgW 2).agent && e.dq == 2) = false ∧ (s.core 0).hasRoom 2 (msgW 2).units = true ∧
      s.blocks.values.any (fun b => b.ctx == (msgW 2).ctx && b.clusters.contains (clusterOf 0)) = true) ∧
    (let s := stN 4; (s.core 0).hasRoom 4 (msgW 4).units = true ∧ s.timelineOf 0 = some 3 ∧ s.gvtAt (clusterOf 0) 3 = some ⟨0, 0, 0⟩) ∧
    ((stFull 1).core 0).hasRoom 1 (msgW 1).units = false ∧ ((stFull 4).core 0).hasRoom 4 (msgW 4).units = false ∧
    (let s : State := { stW.modCore 0 (fun c => { c with eject := [msgW 3] }) with args := [0] };
     (s.core 0).eject = msgW 3 :: [] ∧ (s.core 0).hasRoom (msgW 3).dq (msgW 3).units = true ∧ (msgW 3).dq < 4 ∧ (msgW 3).ctr = 0 ∧ (msgW 3).hidx ≠ 1023) ∧
    (let m := { msgW 4 with dw2 := (msgW 4).dw2 ||| BitVec.ofNat 64 (2 ^ 45) };
     let s := (stN 4).modCore 0 (fun c => c.setQueue 4 [⟨msgW 4, 0, none, .free, false, false⟩]);
     m.sign = true ∧ m.ctx = 5 ∧ (s.core 0).eject.any (twinOf m) = false ∧
       (((s.core 0).queue 4).find? (fun e => twinOf m e.msg)).map (fun e => e.taken) = some false) := by decide +kernel

/-- A message waits at the head of a queue of core 0, and its handler's entry stands in memory. -/
def stH (q : Nat) : State := { (stW.modCore 0 (fun c => { (c.setSlot 0 Slot.reset).setQueue q [⟨msgW q, 0x77, none, .free, false, false⟩] with
    force := ⟨4, 8, false, 0, 0x103⟩ })).modCtx 5 (fun c => { c with page := { c.page with htbase := 0x10000, pkdef := 0x5 } }) with
  mem := Memory.write [] 0x100120 (leBytes 8 (capTo 0 0x10000 0x1000).lo.toNat ++ leBytes 8 (capTo 0 0x10000 0x1000).hi.toNat ++ leBytes 8 1),
  tags := [0x10012], args := [0, 0], timelines := ⟨[(3, 5)]⟩ }

theorem witness_ActivationSetsUpTheSlot : [0, 4].all (fun q =>
    let s := stH q
    let e : QEntry := ⟨msgW q, 0x77, none, .free, false, false⟩
    let cap : Cap := ⟨BitVec.ofNat 64 (leNat (s.mem.read 0x100120 8)), BitVec.ofNat 64 (leNat (s.mem.read 0x100128 8)), true⟩
    s.eager && (s.slotAt 0 0).st == .empty && !(s.core 0).window && (s.ctx 5).st == .running && s.best 0 == some (q, e) && e.msg.dq == q &&
      e.msg.infm == (s.slotAt 0 0).infm && (match s.xlatAgent 5 0 0x10120 .load with
        | .ok (.mem p key _) => p == 0x100120 && s.keyed p 32 key && !s.poisoned p 32 && s.tagAt p key
        | _ => false) &&
      leNat (s.mem.read 0x100130 8) == 1 && leNat (s.mem.read 0x100138 8) == 0 && cap.space == 0 && hasBits cap.perm 4) = true := by decide +kernel

/-- Core 0 with one job in its table: entry 3, generation 1, named by g3; g2 names one page. -/
def jobW (st : JobSt) (hold : Bool) : Job := ⟨st, 1, 0x103, 0x55, hold, 0, [], none⟩
def stJ (st : JobSt) (hold : Bool) : State := ((stW.modCore 0 (fun c => { c with jobs := ⟨[(3, jobW st hold)]⟩ })).wrG 3 0x103).wrG 2 1

/-- A firmware handler at TL2 with the capability of a dword of a tracked range's bitmap. -/
def stF : State := (((stT.modMe (fun x => { x with xstat := 2 })).wrC 1 (capTo 0 0x200000 0x1000)).wrG 1 5).wrG 2 0

theorem witness_RequestsTakeAJob :
    (let s := stJ .free false; s.me.spec = false ∧ s.myCore.jobSlot = some 0 ∧ s.me.timed = false ∧ bitsOf (s.rdG 2).toNat 0 32 ≠ 0 ∧
      bitsOf (s.rdG 0).toNat 0 32 = 0 ∧ okEx (s.accessSpace (s.rdC 1) 1 false 1) = true ∧ okEx (s.accessSpace (s.rdC 1) 1 false 16) = true ∧
      okEx (s.accessSpace (s.rdC 1) 1 false 17) = false ∧ okEx (s.accessSpace (s.rdC 1) 1 true 1) = true ∧ bitsOf (s.rdG 2).toNat 0 2 ≠ 3 ∧
      check26 (s.rdC 2) (fun y => y == 1) 1 (s.rdC 2).cursor 32 (s.rdC 2).cursor 32 = none ∧
      (match s.xlat 1 (s.rdC 2).cursor.toNat 32 .load with
       | .ok _ => true
       | _ => false) = true ∧ (s.cluster (clusterOf s.cur.core)).chainsFull = false ∧
      (match s.record64 1 with
       | .ok (_, u) => u.myCore.jobSlot == some 0
       | _ => false) = true) ∧
    (let s := stF; s.me.tl = 2 ∧ s.me.timed = false ∧ bitsOf (s.rdG 1).toNat 0 20 = 5 ∧ okEx (s.accessSpace (s.rdC 1) 1 false 1) = true ∧
      pkgOfAddr 0x200000 = pkgOf (s.cur.core % 2 ^ 20) ∧
      (s.pkg 0).cellar.entries.any (fun e => e.2.parent.isNone && decide (e.2.frame ≤ 0x200) && decide (0x200 < e.2.frame + e.2.npages)) = true ∧
      ((s.ctx 5).groupOf (0x200000 + 8 * bitsOf (s.rdG 2).toNat 0 9)).isSome = true) ∧ stW.me.tl ≠ 2 := by decide +kernel

theorem witness_JobAndKeyInstructions : (stJ .pending false).me.timed = false ∧
    (stJ .pending false).myCore.jobOf ((((stJ .pending false).rdG 3)).setWidth 16) = some (jobW .pending false) ∧
    (stJ .done false).myCore.jobOf 0x103 = some (jobW .done false) ∧ (stJ .faulted true).myCore.jobOf 0x103 = some (jobW .faulted true) ∧
    (stJ .done false).myCore.jobOf ((((stJ .done false).rdG 2)).setWidth 16) = none ∧ (stA 0x200 0).me.timed = true ∧
    (stW.cluster 0).engine.keeper ≠ some 0 ∧
    ((stW.modCluster 0 (fun k => { k with engine := { k.engine with keeper := some 0 } })).cluster 0).engine.keeper = some 0 := by decide +kernel

/-- Slot 0 of core 0 asks for a gang of two; core 1's slot 0 is EMPTY, or not. -/
def stQ (other : Slot) : State := { withCore (coreW { slotW with st := .parked (.gang 2 4) } Slot.reset) with
  cores := ⟨[(0, coreW { slotW with st := .parked (.gang 2 4) } Slot.reset), (1, coreW other Slot.reset)]⟩, args := [0, 0] }

/-- Cores 0 and 1 are a gang that core 0 leads. -/
def stL : State := { withCore (coreW { slotW with xstat := 0x800, gang := some ⟨0, 2⟩ } Slot.reset) with
  cores := ⟨[(0, coreW { slotW with xstat := 0x800, gang := some ⟨0, 2⟩ } Slot.reset),
             (1, coreW { slotW with st := .follower 0, xstat := 0x1000, gang := some ⟨0, 2⟩ } Slot.reset)]⟩ }

theorem witness_GangsAndBarriers : (2 : BitVec 2).toNat < 3 ∧ stW.me.timed = false ∧ stW.me.tl = 0 ∧ stW.me.gang = none ∧
    (let s := stQ Slot.reset; (s.slotAt 0 0).st = .parked (.gang 2 4) ∧ gangCores ⟨0, 2⟩ = [0, 1] ∧ (s.slotAt 1 0).st = .empty) ∧
    ((stQ slotW).slotAt 1 0).st ≠ .empty ∧
    (let s := stL; s.me.gangRole = 1 ∧ s.me.gang = some ⟨0, 2⟩ ∧ s.cur.core = 0 ∧ s.me.timed = false) ∧ stW.me.gangRole ≠ 1 ∧
    (stG.blockOf stG.cur.core).isSome = true ∧ stG.views = .empty ∧
    (let s : State := { stG.modSlotAt 1 2 (fun x => { x with st := .parked (.bar 2 1) }) with args := [1, 2] };
     1 ∈ s.barMembers 1 2 ∧ (s.slotAt 1 2).st = .parked (.bar 2 1) ∧ s.episodeDone 1 2 1 = false ∧ s.episodeDone 1 2 0 = true) := by decide +kernel

/-- A launch record: handler 9, one cluster a block, four blocks, the record at 0x10040. -/
def recW : Vector Word 8 := #v[9, 4, 0x10040, 0, 0, 0, 0, 0]
def launchW : Launch := ⟨recW, 0x10000, none, none, [], false, false⟩
def gridW : Grid := ⟨launchW, [], 4, 0, .empty, 0, 0, 0, 0, 0, 0, 0, none, false, false, false, false, [], [], []⟩

/-- The grid 7 of context 5 in a state, with arguments. -/
def stR (g : Grid) (args : List Nat) : State := { stG.modCtx 5 (fun c => { c with grids := ⟨[(7, g)]⟩, gridCount := 8 }) with args := args }

/-- Memory with the record where c1 points. -/
def stRec : State := { stG with mem := Memory.write (Memory.write [] 0x100000 (leBytes 8 9)) 0x100008 (leBytes 8 4) }

theorem witness_GridInstructions :
    (let s := stRec; s.me.spec = false ∧ s.blockOf 0 = some (0, blockW) ∧ s.me.timed = false ∧ s.me.tl ≠ 2 ∧ s.myCore.heldJob = none ∧
      s.accessesDone = true ∧ s.me.gang = none ∧ s.myCore.dbg.trace = false ∧
      (match s.record64 1 with
       | .ok (r, _) => recordFault r ((s.rdC 1).space == 1) == none
       | _ => false) = true) ∧
    (match ({ stW with mem := [] } : State).record64 1 with
     | .ok (r, _) => (recordFault r false).isSome
     | _ => false) = true ∧ stW.blockOf 0 = none ∧
    ((stG.modCore 0 (fun c => { c with jobs := ⟨[(3, jobW .faulted true)]⟩ })).myCore.heldJob) = some (jobW .faulted true) ∧
    blockW = ((stG.blockOf 0).map (fun x => x.2)).getD blockW ∧
    (stR gridW []).grid 5 (bitsOf ((((stR gridW []).wrG 3 7)).rdG 3).toNat 0 32) = some gridW := by decide +kernel

theorem witness_GridsRunToTheirRecord :
    (let s := stR gridW [5]; let t := s.modCtx 5 (fun c => { c with launches := [launchW, { launchW with refused := true }] });
     (t.ctx 5).launches = launchW :: [{ launchW with refused := true }] ∧ launchW.queue = none ∧ recIlines launchW.dw = 0 ∧
       t.fits 5 launchW.dw = true) ∧
    (let s := stR gridW [0]; s.headGrid 0 = some (5, 7, gridW) ∧ s.fits 5 gridW.launch.dw = true ∧ (gridW.ranges.getD 0 []).isEmpty = true ∧
      (s.findRect 0 (recCols recW) (recRows recW) []).isSome = true ∧ s.grid 5 7 = some gridW ∧ (s.ctx 5).dies.contains 0 = true ∧
      (s.ctx 5).dies.contains 1 = false) ∧
    (let g : Grid := { gridW with ranges := ⟨[(0, [0, 1])]⟩, next := 2 };
     let s := stR g [0]; s.headGrid 0 = some (5, 7, g) ∧ g.ranges.getD 0 [] = 0 :: [1] ∧
       (s.findRect 0 (recCols recW) (recRows recW) []).isSome = true ∧ recHidx recW ≠ 1023) ∧
    (let s := (stR gridW [0]).modCore 0 (fun c => { c with exited := true });
     let t : State := { s with cores := ⟨(List.range 8).map (fun i => (i, { coreW Slot.reset Slot.reset with exited := true }))⟩ };
     (t.cluster 0).block = some 0 ∧ t.blocks.get? 0 = some blockW ∧ t.grid blockW.ctx blockW.grid = some gridW ∧
       (∀ c ∈ blockW.cores, (t.core c).exited = true ∧ (t.core c).working 0 = false ∧ (t.core c).fatalWaits = false) ∧ blockW.fault = none) := by decide +kernel

theorem witness_GridsRunToTheirRecord_ended :
    (let b : Block := { blockW with fault := some ⟨3, 0, 0, 5, 0⟩, stopping := true };
     let s : State := { stR gridW [0] with blocks := ⟨[(0, b)]⟩ };
     (s.cluster 0).block = some 0 ∧ s.blocks.get? 0 = some b ∧ s.blockOf 1 = some (0, b) ∧ (s.core 1).exited = false ∧ (s.core 1).saved = false ∧
       ∀ x ∈ (s.core 1).slots.toList, x.st = .empty ∨ x.timed = true) ∧
    (gridW.triggered = false ∧ { gridW with trigBlk := 4 }.nblk ≤ { gridW with trigBlk := 4 }.trigBlk ∧ gridW.cancelled = false ∧ recTrig recW = 0) ∧
    (let g : Grid := { gridW with triggered := true, ended := 4 };
     let s := stR g [5, 7]; s.mem.wf = true ∧ s.grid 5 7 = some g ∧ g.complete = false ∧ g.nblk ≤ g.ended + g.nnever ∧ g.launch.unread = false ∧ s.eager = true ∧ s.gridWorks 5 7 = false ∧ recCrec recW % 64 = 0 ∧
       (match s.engPlaces (s.podEng (gridAgent 5) 5) (recCrec recW) 0 64 true with
        | .ok [(.mem _ _, 64)] => true
        | _ => false) = true) ∧
    (gridW.cancelled = false ∧ gridW.complete = false ∧ gridW.launch.refused = false ∧ gridW.arrived.contains 0 = false ∧
      { gridW with arrived := [0] }.arrived.contains 0 = true) := by decide +kernel

theorem witness_GridsRunToTheirRecord_faulted :
    let f : Block := { blockW with fault := some ⟨3, 0, 0, 5, 0⟩, reported := true }
    (stR gridW [5, 7]).performedAll gridW.view = true ∧ f.fault.isSome = true ∧ f.reported = true ∧ recCanf gridW.launch.dw = false ∧ recCanf (recW.set 0 (recW.get 0 ||| 2 ^ 18)) = true ∧
      { gridW with cancelled := true, arrived := [0] }.arrived.contains (f.clusters.headD 0 / 512) = true := by decide +kernel

/-- A space unit of context 5 for context 6: n pages from page 0x10 go to page 0x50. -/
def unitW (op n : Nat) : Vector Word 5 :=
  #v[BitVec.ofNat 64 (op + 5 * 2 ^ 32), 0x10, 0x50, BitVec.ofNat 64 (n + 6 * 2 ^ 32), 0x7F]

/-- A child of nodeW in context 6: two pages from page 0x50. -/
def childW : Node := ⟨0, false, false, false, 2, 6, 0x50, 0, 0, 0x7F, 0x102, 2, some 2⟩

/-- Context 6, saved, with a window for 64 pages from page 0x40. -/
def ctx6 : Ctx := { Ctx.reset with st := .saved, windows := Vector.replicate 16 Window.closed |>.set 0 ⟨0x40, 64, 0, 0x7F, 3, true, 0, false⟩ }

/-- Core 0 with a pending job of the mapping engine, the engine in a state, context 6 saved, and more nodes. -/
def stE (eng : MapEngine) (more : List (Nat × Node)) : State :=
  let s := stJ .pending false;
  { s with ctxs := ⟨[(5, ctxW), (6, ctx6)]⟩,
           pkgs := ⟨[(0, { Package.reset 0 with cellar := ⟨(rootNodes 0).entries ++ [(2, nodeW)] ++ more⟩, eng := eng })]⟩, args := [0] }
def engW : MapEngine := ⟨[], .idle, [], [], [], [], [], 0⟩
def orgW : Origin := .job 0 0x103
def engQ (op n : Nat) : MapEngine := { engW with queue := [.space (unitW op n) orgW] }
def engA (op n code : Nat) : MapEngine := { engW with
  queue := [.space (unitW op n) orgW], busy := .answered (unitW op n) orgW 0 code 0, resv := [⟨0, 6, 0, 0x50, n, none⟩] }
def engR (n : Nat) : MapEngine := { engW with queue := [.space (unitW 1 n) orgW, .reserve 0 (unitW 1 n)], busy := .waiting (unitW 1 n) orgW 0 }
def shootW (grant : Bool) (dies : List Nat) : Shoot := ⟨0, grant, if grant then [] else [3], [(6, 0, 0x50, 2)], dies, [], 2, orgW, unitW 3 4, []⟩

theorem witness_MappingSharesPages :
    (let s := stE (engQ 1 4) []; s.args = [0] ∧ (s.eng 0).queue = [.space (unitW 1 4) orgW] ∧ (s.eng 0).busy = .idle ∧ uf (unitW 1 4) 0 0 4 = 1 ∧
      okEx (s.sourceChecks 0 (unitW 1 4) false) = true ∧ okEx (s.sourceChecks 0 (unitW 1 65) false) = false ∧
      uf (unitW 2 64) 0 0 4 = 2 ∧ okEx (s.sourceChecks 0 (unitW 2 64) true) = true ∧
      okEx (s.sourceChecks 0 (unitW 2 65) true) = false) ∧
    (let s := stE (engR 4) []; s.turn 0 = some (EngReq.reserve 0 (unitW 1 4)) ∧ (s.eng 0).busy = .waiting (unitW 1 4) orgW 0 ∧ (s.ctx 6).frozen = false ∧
      (s.ctx 6).st = .saved ∧ uf (unitW 1 4) 3 32 20 = 6 ∧ uf (unitW 1 4) 0 32 20 = 5 ∧
      ((s.ctx 6).windows.get (Fin.ofNat 16 0)).admits (unitW 1 4) = true ∧ ((s.ctx 5).windows.get (Fin.ofNat 16 0)).admits (unitW 1 4) = false ∧
      s.firstTaken 0 6 0 0x50 4 = none ∧ (stE (engR 4) [(3, childW)]).firstTaken 0 6 0 0x50 4 = some 0) ∧
    (let s := stE (engA 1 4 0) []; let e : Nat × Node := (2, nodeW);
     (s.eng 0).busy = .answered (unitW 1 4) orgW 0 0 0 ∧ (s.eng 0).resv.any (fun r => r.isOf (unitW 1 4)) = true ∧
       (match s.sources 0 (unitW 1 4) with | .ok l => l == [e] | _ => false) = true ∧
       0 < freeNodes (s.pkg 0).cellar ∧ 0 < e.2.npages) ∧
    (let s := stE (engA 2 64 0) []; let e : Nat × Node := (2, nodeW);
     (s.eng 0).resv.any (fun r => r.isOf (unitW 2 64)) = true ∧
       (match s.sources 0 (unitW 2 64) with | .ok l => l == [e] | _ => false) = true ∧ (s.pkg 0).cellar.get? e.1 = some e.2 ∧
       grantCuts (s.pkg 0).cellar 0x10 (0x10 + 64) [e] = none ∧ e.2.vpn = 0x10 ∧ e.2.npages = uf (unitW 2 64) 3 0 32 ∧
       (∀ k ∈ kids (s.pkg 0).cellar e.1, k.1 ≠ e.1)) ∧
    (let s := stE (engA 1 4 7) []; (s.eng 0).busy = .answered (unitW 1 4) orgW 0 7 0) ∧
    (let s := stE { engW with drops := [(unitW 1 4, orgW, 9, 3)], releases := [unitW 1 4], shoots := [shootW true []] } [];
     (s.eng 0).drops = (unitW 1 4, orgW, 9, 3) :: [] ∧ (s.eng 0).releases = unitW 1 4 :: [] ∧ ((s.eng 0).ready true).isSome = true) := by decide +kernel

/-- A window unit: window 3 of context 6. -/
def winW : Vector Word 5 := #v[3 + 6 * 2 ^ 32, 0x90, 0x10, 5, 0]

theorem witness_WithdrawalCutsTheSubtree :
    (let s := stE (engQ 3 4) [(3, childW)]; (s.eng 0).queue = [.space (unitW 3 4) orgW] ∧ (s.eng 0).busy = .idle ∧ uf (unitW 3 4) 0 0 4 = 3 ∧
      orgW = .job 0 0x103 ∧ s.heldElsewhere 0 5 0 0x10 (0x10 + 4) = [] ∧ (s.ctx 5).st ≠ .saved ∧ meeting (s.pkg 0).cellar 5 0 0x10 (0x10 + 4) = [(2, nodeW)] ∧ cutBelow (s.pkg 0).cellar 17 2 = false ∧
      (3, childW) ∈ kids (s.pkg 0).cellar 2 ∧ (s.pkg 0).cellar.get? 3 = some childW ∧
      childW.frame < nodeW.frame + (min (0x10 + 4) (nodeW.vpn + nodeW.npages) - nodeW.vpn) ∧
      nodeW.frame + (max 0x10 nodeW.vpn - nodeW.vpn) < childW.frame + childW.npages ∧
      meeting (s.pkg 0).cellar 5 0 0x50 0x52 = []) ∧
    (let s : State := { stE { engW with shoots := [shootW false [0]] } [(3, { childW with revoked := true })] with args := [0, 0] };
     (s.eng 0).shoots.find? (fun y => y.dies.contains 0) = some (shootW false [0]) ∧ s.eager = true ∧ (s.die 0).walks.any (fun w => ((shootW false [0]).ranges.map (fun r => r.1)).contains w.ctx) = false) ∧
    (let s := stE { engW with shoots := [shootW false []] } [(3, childW)]; ((s.eng 0).ready false) = some (shootW false [])) ∧
    (let s := stE { engW with queue := [.window winW orgW] } []; s.turn 0 = some (EngReq.window winW orgW)) ∧
    (let s := (stE { engW with queue := [.query 0 0 0 7 0 2 5 0 0x10] } []).modMe (fun x => { x with st := .parked .query });
     s.turn 0 = some (EngReq.query 0 0 0 7 0 2 5 0 0x10) ∧ (s.slotAt 0 0).began = 0 ∧ (s.slotAt 0 0).st = .parked .query ∧
       s.queryNext 0 2 5 0 0x10 = none ∧ s.queryNext 0 0 5 0 0x10 = none ∧ s.queryNext 0 0 5 0 0x7F = none ∧
       { s with pkgs := s.pkgs.set 1 { Package.reset 1 with cellar := ⟨(rootNodes 1).entries ++ [(2, { nodeW with vpn := 0x70 })]⟩ } }.queryNext
         0 1 5 0 0x7F = some 1) ∧
    (let s : State := { (stJ .done false).modMe (fun x => { x with st := .parked (.mapResult 0x103) }) with args := [0, 0] };
     (s.slotAt 0 0).st = .parked (.mapResult 0x103) ∧ (s.core 0).jobOf 0x103 = some (jobW .done false) ∧ (jobW .done false).st ≠ .pending ∧
       (jobW .done false).res.toNat % 256 ≠ 0 ∧ { jobW .done false with res := 0x100 }.res.toNat % 256 = 0 ∧ (s.slotAt 0 0).spec = false ∧
       (s.slotAt 0 0).gang = none ∧ (s.slotAt 0 0).gangRole ≠ 2 ∧ (s.slotAt 0 0).tl = 0 ∧ (s.core 0).xtvec1.getLsbD 0 = true) ∧
    (let s := stW.modCtx 9 (fun c => { c with st := .retiring });
     (s.ctx 9).st = .retiring ∧ ∀ e ∈ s.pkgs.entries, ∀ d ∈ e.2.cellar.entries, d.2.ctx ≠ 9) ∧
    (let h : Harvest := ⟨0, 0x103, 5, 0x200000, none, []⟩; let s := stE { engW with harvests := [h] } [];
     s.mem.wf = true ∧ (s.eng 0).harvests.find? (fun y => y.swapped.isNone) = some h ∧ s.poison.contains (h.addr / 64) = false) ∧
    (let h : Harvest := ⟨0, 0x103, 5, 0x200000, some 7, []⟩; let s := stE { engW with harvests := [h] } [];
     ((s.eng 0).harvests.filter (fun y => y.swapped.isSome)).find? s.harvested = some h ∧ (s.core 0).jobOf 0x103 = some (jobW .pending false) ∧ s.eager = true) := by
  decide +kernel

/-- A chain of context 5 on core 0 whose entries stand at local offset 0x100; its pattern 0 deals 64-byte blocks to core 0 from 0x400. -/
def chainW : Chain := ⟨3, 5, 0, 0, .job 0x103, false, 0x100, 0, 0, [], #v[0x0001004004000000, 0, 0, 0], false, [], false, none⟩

/-- Dwords as bytes. -/
def dwordBytes (l : List Nat) : List Byte := l.flatMap (leBytes 8)

/-- The cells of bytes from an address up: memory is put together of them in ascending order. -/
def cells (a : Nat) (l : List Byte) : Memory := (l.zipIdx.filter (fun e => e.1 != 0)).map (fun e => (a + e.2, e.1))

/-- A layout record: four 4-byte elements from GLOBAL 0x10100 to local 0x600, the source of one element, the rest FILL. -/
def layW (size0 : Nat) : List Nat := [0x10100, 2 ^ 61 + 0x600, 0x0001000100010000 + size0, 0, 0, 0, 0, 0x0001000100010004, 0x200000000 + 0x55, 0, 0, 0]

/-- The chain at an entry of four dwords; local memory holds the entry, the record and two row numbers, GLOBAL some bytes. -/
def stC (e : List Nat) (c : Chain) : State :=
  let s := stJ .pending false
  let m : Memory := cells 0x100100 [1, 2, 3, 4, 5, 6, 7, 8] ++ cells (localAddr 0 0x100) (dwordBytes e) ++
    cells (localAddr 0 0x200) (dwordBytes (layW 1)) ++ cells (localAddr 0 0x300) [0, 0, 1, 0];
  { s.modCluster 0 (fun k => { k with chains := [c] }) with mem := m, args := [0, 3] }

/-- The state stands at the entry of the chain, whose step has an operation code, and a condition holds. -/
def atEntry (e : List Nat) (c : Chain) (op : Nat) (f : List Nat → State → Bool) : Bool :=
  let s := stC e c
  s.eager && (s.ctx c.ctx).st != .saved && s.args == [0, 3] && s.chain 0 3 == some c && !c.stopped && c.ending.isNone && (s.ctx c.ctx).sw == .none_ &&
    match s.chainEntry 0 c with
    | .ok (d, u) => d == e && d.getD 0 0 % 256 == op && f d u
    | .error _ => false

/-- The space of a descriptor is admitted. -/
def okSpace (d : Nat) : Bool := okEx (descSpace d)

/-- The read and the write that an entry makes are admitted. -/
def readThen (s : State) (d off n : Nat) (f : List Byte → State → Bool) : Bool :=
  match s.engRead (chainW.eng 0) d off n with
  | .ok (bs, u) => f bs u
  | .error _ => false

def writeOk (s : State) (d off : Nat) (bs : List Byte) (rels : List (Nat × List Nat)) : Bool := okEx (s.engWrite (chainW.eng 0) d off bs rels)

theorem witness_ChainsWalkAndMoveBytes :
    (let s : State := { stW with args := [0, 0, 0x100] }; s.args = [0, 0, 0x100] ∧ (s.core 0).jobSlot = some 0 ∧
      (s.cluster (clusterOf 0)).chainsFull = false) ∧
    (let s : State := { (stC [0, 0, 0, 0] chainW).modCluster 0 (fun k => { k with chains := [], chainQ := [chainW] }) with args := [0] };
     (s.cluster 0).chainQ = [chainW] ∧ (s.cluster 0).chains.length < Config.chainsWalked ∧ (entryStep 0).isSome = true ∧ s.eager = true ∧
       (match (s.modCluster 0 (fun x => { x with chains := (s.cluster 0).chains ++ [chainW], chainQ := [] })).chainEntry 0 chainW with | .ok (e, _) => e == [0, 0, 0, 0] | _ => false) = true) ∧
    (let s := (stC [0, 0, 0, 0] chainW).modCtx 5 (fun c => { c with sw := .window 0 false });
     let t : State := { s with podTime := 2000000 };
     t.chain 0 3 = some chainW ∧ (t.ctx 5).sw = .window 0 false ∧ 0 + 2000000 ≤ t.now) ∧
    atEntry [0, 0, 0, 0] chainW 0 (fun e _ => resClear e [0xFF, 0, 0, 0]) = true ∧
    atEntry [0, 1, 0, 0] chainW 0 (fun e _ => !resClear e [0xFF, 0, 0, 0]) = true ∧
    atEntry [6 + 2 * 65536, 0, 0, 0] chainW 6 (fun e _ => resClear e [0xFFFF00FF, 0, 0, 0]) = true ∧
    atEntry [5 + 2 * 65536, 0x10100, 0, 0] chainW 5 (fun e u => resClear e [0x7FFFF00FF, 2 ^ 64 - 1, 2 ^ 64 - 1, 0] &&
      okSpace 0x10100 && readThen u 0x10100 0 8 (fun bs _ => bs == [1, 2, 3, 4, 5, 6, 7, 8])) = true ∧
    (let e := [4 + 2 * 65536 + 3 * 2 ^ 32, 0xFFFF, 0, 0]; let r := fun e (_ : State) => resClear e [0xFFFFFFFFFFFF00FF, 0xFFFF, 2 ^ 64 - 1, 0];
     atEntry e chainW 4 r = true ∧ atEntry e { chainW with loops := [(0, 2)] } 4 r = true ∧ atEntry e { chainW with loops := [(0, 0)] } 4 r = true) ∧
    (let e := [8, 1 + 2 * 2 ^ 20, 7, 9]; atEntry e chainW 8 (fun e u => resClear e [0xFF, 2 ^ 43 - 1, 2 ^ 64 - 1, 2 ^ 64 - 1] &&
      decide ((u.core 0).port.length < Config.portDepth)) = true) ∧
    (let e := [7 + 256, 2 ^ 61 + 0x500, 0x1234, 0]; atEntry e chainW 7 (fun e u => resClear e [0x1FF, 2 ^ 64 - 1, 2 ^ 64 - 1, 0] &&
      okSpace (2 ^ 61 + 0x500) && writeOk u (2 ^ 61 + 0x500) 0 (leBytes 8 0x1234) [(6, u.view (chainAgent 0 3))]) = true) ∧
    (let e := [2, 0x10100, 8, 0]; atEntry e chainW 2 (fun e u => resClear e [0x3FF, 2 ^ 64 - 1, 2 ^ 32 - 1, 0] &&
      okEx (u.engLocal 5 0 0x400 8 true) && readThen u 0x10100 0 8 (fun bs v => writeOk v (localDesc 0 0x400) 0 bs [])) = true) ∧
    (let e := [3 + 2 * 65536 + 2 * 2 ^ 32, 0x10100, 0x10200, 0x300]; atEntry e chainW 3 (fun e u =>
      resClear e [0xFFFFFFFFFFFF00FF, 2 ^ 64 - 1, 2 ^ 64 - 1, 0x1FFFF] && okSpace 0x10100 && okSpace 0x10200 &&
      readThen u (localDesc 0 0x300) 0 2 (fun ib v => readThen v 0x10100 (leNat ib * 2) 2 (fun bs w => writeOk w 0x10200 0 bs []))) = true) ∧
    (let e := [1, 0x200, 0, 0]; let c := { chainW with cursor := 3 }; atEntry e c 1 (fun e u => resClear e [0xFF, 0xFFFF, 0, 0] &&
      match u.layoutAt 0 c 0x200 with
      | .ok (x, v) => let es := x.burst (x.dstOf (windowAt x.wsz 3) / 256) (256 / 2 ^ x.esz) 3;
          es == [(3, 0x60C, some none)] && v.elemFault c 0 x (3, 0x60C, some none) == none &&
          okEx (v.copyElem c 0 x es none (3, 0x60C, some none)) && x.span [(0, 0x600, some (some 0))] 0 == (0, 4)
      | .error _ => false) = true) ∧
    (let s := stC [1, 0x200, 0, 0] chainW;
     s.mem.wf = true ∧ s.eager = true ∧ (match s.engPlaces (chainW.eng 0) 0x10100 0 8 true with | .ok l => l == [(.mem 0x100100 0, 8)] | _ => false) = true ∧
       (match s.engPlaces (chainW.eng 0) 0x10100 0 4 false with | .ok l => l == [(.mem 0x100100 0, 4)] | _ => false) = true ∧
       (s.engTouched (chainW.eng 0) 0x10100 0 4 false).keyed 0x100100 4 0 = true ∧
       (linesOf 0x100100 4).any (s.engTouched (chainW.eng 0) 0x10100 0 4 false).poison.contains = false ∧ readThen s 0x10100 0 4 (fun bs _ => bs.length == 4) ∧
       (match s.engPlaces (chainW.eng 0) (2 ^ 61) 0x600 4 true with | .ok l => l == [(.mem (localAddr 0 0x600) 0, 4)] | _ => false) = true) := by decide +kernel

/-- A participant of a collective of two ranks on dies 0 and 1 over two F32 elements, and the state with participants of either die. -/
def descW (op rank : Nat) : Vector Word 8 := #v[BitVec.ofNat 64 (op + 9 * 256 + 7 * 2 ^ 32), 2, 0x10100, 0x10200, BitVec.ofNat 64 (2 + rank * 65536), 2 ^ 17, 0, 0]
def collW (op rank core : Nat) (started ended : Bool) : Coll := ⟨5, core, 0x103, descW op rank, [], started, 0, 0, 0, ended, [(0, 0x103), (1, 2048 * 65536 + 0x103)]⟩
def stK (args : List Nat) (a b : List Coll) : State :=
  let s := ((stJ .pending false).modCtx 5 (fun c => { c with dies := [0, 1] })).modDie 0 (fun d => { d with coll := a });
  let m : Memory := cells 0x100100 [0, 0, 0x80, 0x3F, 0, 0, 0, 0x40];
  { s.modDie 1 (fun d => { d with coll := b }) with
    mem := m, args := args, cores := ⟨[(0, (stJ .pending false).core 0), (2048, coreW Slot.reset Slot.reset)]⟩ }

/-- The bytes of a burst of a collective can be read, and then written. -/
def burstOk (s : State) (c : Coll) : Bool :=
  let group := s.collPeers c
  let n := min 256 (c.total - 0)
  let n := if c.op = 3 ∨ c.op = 5 then min n (c.block - 0 % c.block) else n
  match s.collData c group 0 n with
  | .ok (bs, u) => okEx (u.engWrite c.eng 0x10200 0 bs)
  | .error _ => false

theorem witness_CollectivesMeetAndComplete :
    (let s : State := { stW with args := [0, 0, 0x10100] }; s.args = [0, 0, 0x10100] ∧ (s.core 0).jobSlot = some 0) ∧
    (let s : State := { stJ .pending false with args := [0, 0x103, 0x10100, 2] };
     (s.core 0).jobOf 0x103 = some (jobW .pending false) ∧
       okEx (s.engRead { agent := collAgent (dieOf 0), ctx := (s.core 0).ctx, cluster := clusterOf 0, unit := 8 } 0x10100 0 64) = true) ∧
    (∀ op ∈ ([1, 2] : List Nat), let c0 := collW 1 0 0 false false; let c1 := collW op 1 2048 false false; let s := stK [5, 7] [c0] [c1];
     (s.ctx 5).st = .running ∧ (s.collGroup 5 7).filter (fun e => e.2.waits) = [(0, c0), (1, c1)] ∧ c0.npart = 2 ∧ c1.npart = 2 ∧
       c0.rank = 0 ∧ c1.rank = 1 ∧ (∀ x ∈ [c0, c1], x.dieOfRank 0 = 0 ∧ x.dieOfRank 1 = 1) ∧ (c0.values = c1.values ↔ op = 1)) ∧
    (let c := collW 1 0 0 false false; let s : State := { stK [5, 7] [c] [] with clock := 10 ^ 10 };
     (s.collGroup 5 7).filter (fun e => e.2.waits) = [(0, c)] ∧ c.since + 100000 * Config.cyclesPerMicro ≤ s.clock) ∧
    (∀ op ∈ ([1, 2, 3, 4, 5] : List Nat), let c := collW op 0 0 true false; let e := collW op 1 2048 true true; let s := stK [0, 0x103] [c] (if op < 3 then [] else [e]);
     s.coll 0 0x103 = some c ∧ c.op = op ∧ (s.ctx 5).sw = .none_ ∧
       (s.collPeers c).filter (fun e => !e.2.ended) = [(0, c)] ∧ burstOk s c = true) ∧
    (let c := collW 4 0 0 true false; let s := stK [0, 0x103] [c] []; c.op = 4 ∧ c.f 4 32 10 = 0 ∧
      (s.collPeers c).find? (fun x => x.2.rank == 0) = some (0, c)) ∧
    (∀ op ∈ ([1, 2] : List Nat), let c := collW op 0 0 true false; let s := stK [0, 0x103] [c] [];
     s.collPeers c = [(0, c)] ∧ c.fmt = some .f32 ∧ c.rank * c.block + c.cursor = 0 ∧ s.keyed 0x100100 8 0 = true ∧
       (linesOf 0x100100 8).any s.poison.contains = false ∧
       (match s.engPlaces c.eng (c.f 2 0 57) 0 8 false with
        | .ok l => l == [(.mem 0x100100 0, 8)]
        | _ => false) = true) ∧
    (let c := collW 1 0 0 true true; let s := stK [0, 0x103] [c] []; s.coll 0 0x103 = some c ∧ c.ended = true ∧ s.eager = true ∧ (s.ctx 5).st ≠ .saved ∧
      ∀ e ∈ s.collPeers c, e.2.ended = true) := by decide +kernel

/-- A matrix command of core 0, accepted, and the state whose engine has it at the head of the queue of core 0. -/
def cmdW (dw : Vector Word 8) (begun : Bool) : MCmd := ⟨dw, 0x103, 0, false, 0, [], 0, begun, false, 0, false, 1⟩
def stM (l : List MCmd) (args : List Nat) : State :=
  let m : Memory := cells 0x100100 [1, 2, 3, 4] ++ cells (localAddr 0 0x100) [0x80, 0x3F, 0, 0x40] ++ cells (localAddr 0 0x406) [0x80, 0x3F];
  { (stJ .pending false).modEngine 0 (fun e => { e.setQueue 0 l with weight := (KMap.empty.set 0 0x3F80).set 1 0x4000 }) with mem := m, args := args }

/-- One column, one row, two elements of K; the rest as each opcode has it. -/
def oneByOne (opc : Nat) : Word := BitVec.ofNat 64 (opc + 2 ^ 36)
def mmW (opc : Nat) : Vector Word 8 := #v[oneByOne opc, BitVec.ofNat 64 (0x100 + 2 * 2 ^ 32), 0, 0, 0, 0, 0, 0]
def stW' : Vector Word 8 := #v[BitVec.ofNat 64 (3 + 2 ^ 36 + 8 * 2 ^ 43), 0x10100, 0, 0, 0, 0, 0, 0]
def ldW : Vector Word 8 := #v[oneByOne 4, 0x100, 0, 0, 0, 0, 0, 0]
def wlW : Vector Word 8 := #v[5, 0x10100, 0, 0, 0, 0, 0, 0]
def fcW : Vector Word 8 := #v[6, 0x0808, 0, 0, 0, 0, 0, 0]
def sbW : Vector Word 8 := #v[BitVec.ofNat 64 (7 + 2 ^ 26), 0x100, 0, 0, 0, 0, 0, 0]
def abW (off : Nat) : Vector Word 8 := #v[8, BitVec.ofNat 64 off, 0, 0, 0, 0, 0, 0]
def syW : Vector Word 8 := #v[BitVec.ofNat 64 (9 + 2 ^ 19), 0, 0, 0, 0, 0, 0, 0]
def seW : Vector Word 8 := #v[BitVec.ofNat 64 (4 + 2 ^ 12 + 2 ^ 36), 0x100, 0, 0, 0, 0, 0, 0x1234 * 2 ^ 32 + 0x500]

/-- What HeadIs asks of a state. -/
def headIs (s : State) (c : MCmd) (ops : List Nat) : Bool :=
  s.args == [0, 0] && s.headCmd 0 == some c && c.seq != 0 && !c.held && !c.ended && !s.inWindow 0 && ops.contains c.opc &&
    (c.begun || c.refusal ((s.engine 0).ctxOf 0) == none)
theorem headIs_sound (s : State) (c : MCmd) (ops : List Nat) (h : headIs s c ops = true) : HeadIs s 0 0 c ops := by
  simp only [headIs, Bool.and_eq_true, beq_iff_eq, bne_iff_ne, Bool.not_eq_true', Bool.or_eq_true, List.contains_iff_mem] at h
  obtain ⟨⟨⟨⟨⟨⟨⟨a, b⟩, d⟩, e⟩, f⟩, g⟩, i⟩, j⟩ := h
  exact ⟨⟨a, rfl⟩, b, ⟨d, e, f, g⟩, i, j⟩

/-- The accepted commands of core 0, with the read or write each makes. -/
theorem witness_MatrixCommandsRun :
    (let s := ((stW.modMe (fun x => { x with c := x.c.set 5 (capTo 5 0 0x1000) })).wrG 1 0);
     let ea := effAddr (s.rdC 5) (s.rdG 0) 6 (dispOf (0 : BitVec 5).toInt 64 none);
     (s.rdC 5).tag = true ∧ (s.rdC 5).space = 5 ∧ ea = 0 ∧ s.me.timed = false ∧ s.me.gangRole ≠ 2 ∧ s.myCore.jobSlot = some 0 ∧
       ((s.engine (clusterOf s.cur.core)).queue (s.cur.core % 8)).length < 16 ∧
       okEx (s.accessVec (s.rdC 5) .store .contig 4 64 (fun _ => ea) (wordElems (BitVec.allOnes 64) ea)) = true) ∧
    (let s := stM [{ cmdW (mmW 1) false with seq := 0 }] [0];
     ((s.engine 0).order 0).find? (fun k => ((s.engine 0).queue (k % 8)).any (fun d => d.seq == 0)) = some 0) ∧
    (∀ p ∈ ([1, 2, 3, 4, 5, 6, 7, 8] : List Nat), let c := cmdW #v[BitVec.ofNat 64 (p + 2 ^ 63), 0, 0, 0, 0, 0, 0, 0] false; let s := stM [c] [0, 0];
     s.headCmd 0 = some c ∧ c.opc = p ∧ c.refusal ((s.engine 0).ctxOf 0) = some .resfield ∧ s.inWindow 0 = false) ∧
    (let c := cmdW (mmW 1) false; headIs (stM [c] [0, 0]) c [1] = true) ∧
    (let c := cmdW (mmW 2) false; headIs (stM [c] [0, 0]) c [2] = true ∧ c.cursor = 0) ∧
    (let c := cmdW (mmW 1) true; let s := stM [c] [0, 0]; headIs s c [1, 2] = true ∧ c.cursor < c.k ∧ okEx (s.readRows 0 2 0x100 0 4 1) = true ∧
      operandBytes (fcA ((s.engine 0).ctxOf 0)) = 2 ∧
      (match (s.modCore 0 (fun k => { k with force := { k.force with spillK := 64 } })).readRows 0 2 0x100 0 4 1 with | .error x => x == Cause.notmapped.code | _ => false) = true) ∧
    (let c := cmdW ldW false; let s := stM [c] [0, 0]; headIs s c [4] = true ∧ c.cursor < c.rows ∧ okEx (s.cmdRead 0 4 0x100 4) = true) ∧
    (let c := cmdW stW' false; let s := stM [c] [0, 0]; headIs s c [3] = true ∧ s.eager = true ∧ c.ofmt = some .bf16 ∧ c.cursor < c.rows ∧
      okEx (s.cmdVec 0 false 0 1) = true ∧ (∀ x ∈ ([0, 0x1234] : List Nat), okEx (s.engWrite (s.matrixEng 0 2) 0x10100 0 (leBytes 2 x)) = true)) ∧
    (let c := cmdW wlW false; let s := stM [c] [0, 0]; headIs s c [5] = true ∧ c.cursor < c.fld 2 16 13 + 1 ∧ okEx (s.engRead (s.matrixEng 0 2) 0x10100 0 64) = true) ∧
    (let c := cmdW fcW false; headIs (stM [c] [0, 0]) c [6] = true) ∧
    (let c := cmdW sbW false; let s := stM [c] [0, 0]; headIs s c [7] = true ∧ okEx (s.cmdRead 0 2 0x100 2) = true) ∧
    (∀ p ∈ ([(0x400, true), (0x800, false)] : List (Nat × Bool)), let c := cmdW (abW p.1) false; let s := stM [c] [0, 0]; headIs s c [8] = true ∧
      (match s.cmdRead 0 4 p.1 520 with
       | .ok (bs, _) => (let at_ (i : Nat) : Nat := leNat ((bs.drop (4 * i)).take 4);
           (finiteF32 (at_ 0) && finiteF32 (at_ 1) && exactLt (decodeNum .f32 false (at_ 0)) (decodeNum .f32 false (at_ 1))) == p.2)
       | .error _ => false) = true) ∧
    (let c := cmdW syW false; headIs (stM [c] [0, 0]) c [9] = true ∧ c.fld 0 19 1 = 1 ∧
      ((stM [c] [0, 0]).engine 0).queue 0 = [c] ∧ c.seq = 1) ∧
    (let c := { cmdW seW true with cursor := 1 }; let s := stM [c] [0, 0]; headIs s c [1, 2, 4, 5] = true ∧ c.se = true ∧ c.endCursor ≤ c.cursor ∧ s.eager = true ∧
      okEx (s.engLocal 5 0 0x500 4 true) = true ∧ okEx (s.engWrite (s.matrixEng 0 4) (localDesc 0 0x500) 0 (leBytes 4 0x1234) [(c.fld 0 13 3, s.view (matrixAgent 0))]) = true) ∧
    (let c := { cmdW (mmW 1) true with ended := true }; (stM [c] [0, 0]).headCmd 0 = some c ∧ (stM [c] [0, 0]).eager = true) ∧
    (let c := { cmdW (mmW 1) true with held := true, cause := 5 }; (stM [c] [0, 0x103]).headCmd 0 = some c ∧ c.job.toNat = 0x103 ∧
      ((stM [c] [0, 0]).core 0).exited = false ∧
      (let s : State := { (stM [c] [0, 0]).modCore 0 (fun k => { k with exited := true }) with clusters := stG.clusters, blocks := stG.blocks };
       let t := s.modEngine 0 (fun e => e.setQueue 0 [c]);
       t.headCmd 0 = some c ∧ (t.core 0).exited = true ∧ (t.blockOf 0).isSome = true ∧ (t.slotAt 0 1).st = .empty)) := by decide +kernel

theorem witness_TrapsAndReturnsByInstruction :
    (stW.me.spec = false ∧ stW.me.gang = none ∧ stW.me.gangRole ≠ 2 ∧ stW.me.tl = 0 ∧ stW.myCore.xtvec1.getLsbD 0 = true ∧
      stW.myCore.dbg.brken = false ∧ stW.me.timed = false) ∧
    (let s := stA 0x600 0 ; s.me.spec = true ∧ s.me.actKey = some keyW ∧ s.me.timed = true ∧ s.myCore.dbg.brken = false) ∧
    (let s := stW.modCore 0 (fun c => { c with dbg := { c.dbg with brken := true } }); s.myCore.dbg.brken = true) ∧
    (let s := stW.modMe (fun x => { x with xstat := 5 }); s.me.tl ≠ 0 ∧ s.me.xstat.toNat / 2 ^ 16 = 0 ∧ s.me.ptl = 1 ∧ ¬s.me.ptl < s.me.tl) ∧
    (let s := stW.modMe (fun x => { x with xstat := 6 }); s.me.tl = 2 ∧ s.me.xstat.toNat / 2 ^ 16 = 0 ∧ s.me.ptl < s.me.tl) := by decide +kernel

/-- An access of two bytes at 0x100008. -/
def opW (kind : OpKind) (bs : List Byte) (rel : Option Nat) (issued : Bool) : MemOp :=
  ⟨2, kind, [⟨0x100008, 2, bs, none, 0, 0⟩], none, 2, false, none, rel, issued, [], none⟩

/-- Slot 0 of core 0 in a state, with arguments; long ago for its watchdog. -/
def stS (x : SlotSt) (args : List Nat) : State := { stW.modMe (fun y => { y with st := x }) with args := args, clock := 10 ^ 9 }
def walkW (vpn : Nat) : Walk := ⟨5, 0, vpn, [(0, 0)], []⟩

theorem witness_SlotStepsActOnTheirSlot :
    (let s := stS (.stalled 7) [0, 0]; (s.slotAt 0 0).st = .stalled 7 ∧ 7 ≤ s.clock ∧ ({ s with clock := 6 } : State).clock < 7) ∧
    (let o : MemOp := { opW .load [] none true with units := [⟨0x100000, 4, [1, 2, 3, 4], none, 0, 0⟩], dest := some (.g 7), width := 4, signed := true };
     let s : State := { stW.modMe (fun y => { y with ops := [o] }) with args := [0, 0] };
     (s.slotAt 0 0).ops.find? (fun o => o.returned) = some o ∧ o.dest = some (.g 7) ∧ o.kind = .load) ∧
    (let s := stS .ready [0, 0]; (s.slotAt 0 0).st = .ready ∧ (s.core 0).hwLimit.toNat ≤ (s.clock - (s.slotAt 0 0).began) / Config.cyclesPerMicro ∧
      s.inWindow 0 = false ∧ (s.modCtx 5 (fun c => { c with sw := .window 0 false })).inWindow 0 = true ∧ (s.slotAt 0 0).spec = false ∧ (s.slotAt 0 0).gang = none ∧ (s.slotAt 0 0).timed = false ∧ s.cancelledBlock 0 = none ∧
      (stW.clock - (stW.slotAt 0 0).began) / Config.cyclesPerMicro < (stW.core 0).hwLimit.toNat) ∧
    (let s : State := { stA 0x600 0 with args := [0, 0], clock := 10 ^ 9 }; (s.slotAt 0 0).spec = true ∧ (s.slotAt 0 0).actKey = some keyW ∧
      (s.core 0).hwLimit.toNat ≤ (s.clock - (s.slotAt 0 0).began) / Config.cyclesPerMicro ∧ s.inWindow 0 = false) ∧
    (let s : State := { stR { gridW with cancelled := true } [0, 0] with clock := 10 ^ 9 }; s.cancelledBlock 0 = some blockW ∧
      (s.slotAt 0 0).st = .ready ∧ (s.slotAt 0 0).spec = false ∧ (s.slotAt 0 0).gang = none ∧ (s.slotAt 0 0).timed = false ∧ (s.slotAt 0 0).actKey = none ∧
      (s.core 0).hwLimit.toNat ≤ (s.clock - (s.slotAt 0 0).began) / Config.cyclesPerMicro) ∧
    ((stS (.parked .waita) [0, 0]).slotAt 0 0).st = .parked .waita ∧
    (let s := stS (.parked .answer) [0, 0, 7, 0, 9]; (s.slotAt 0 0).st = .parked .answer ∧ (1 : Nat) ≠ 0) ∧
    (let s : State := { stW.modDie 0 (fun d => { d with waiting := [walkW 0x10] }) with args := [0] };
     (s.die 0).nextWalk = some (walkW 0x10)) ∧
    (∀ vpn ∈ ([0x10, 0x900] : List Nat), let s : State := { (stS (.parked .walk) [0, 0]).modDie 0 (fun d => { d with walks := [walkW vpn] }) with args := [0, 0] };
     (s.die 0).walks[0]? = some (walkW vpn) ∧ (walkW vpn).waiters = [(0, 0)] ∧ (walkW vpn).dues = [] ∧ (s.slotAt 0 0).st = .parked .walk ∧
       ((s.die 0).walks.eraseIdx 0 ++ (s.die 0).waiting).all (fun v => !v.waiters.contains (0, 0)) = true ∧
       ((s.walkEntries 5 0 vpn false).isSome = true ↔ vpn = 0x10) ∧ (s.core 0).ctx = 5 ∧ s.tracked 5 0 vpn = none) := by decide +kernel

/-- The agent of slot 0 of core 0 with an access in its issue queue, writes and its view, with every access in its own steps. -/
def wrW (reach : Reach) (preds : List Nat) : WriteRec := ⟨0, 0x100008, [0x55, 0x66], none, 0, Stamp.zero, reach, preds, [], none⟩
def stO (o : List MemOp) (ws : List (Nat × WriteRec)) (view args : List Nat) : State :=
  { stW.modMe (fun x => { x with ops := o }) with eager := false, writes := ⟨ws⟩, views := KMap.empty.set 0 view, nextWrite := 9, args := args }

theorem witness_ReferenceMachineOrdersWrites :
    (∀ k ∈ ([.load, .store, .amo 0 1 0, .fence 0] : List OpKind), let o := opW k [0x11, 0x22] none false; let s := stO [o] [] [] [0, 0];
     s.mem.wf = true ∧ (s.slotAt 0 0).issuable 0 = some (o, 0) ∧ o.rel = none ∧ o.units = [⟨0x100008, 2, [0x11, 0x22], none, 0, 0⟩]) ∧
    (let o := opW .store [0x11, 0x22] (some 6) false; let s := stO [o] [(3, wrW .own [])] [3] [0, 0]; (s.slotAt 0 0).issuable 0 = some (o, 0) ∧
      s.released 0 6 = false ∧ (stO [o] [(3, wrW .sys [])] [3] [0, 0]).released 0 6 = true) ∧
    (let s := stO [] [(3, wrW .own [])] [] [3]; s.writes.get? 3 = some (wrW .own []) ∧ (wrW .own []).onward = some .core) ∧
    (let s := stO [] [(3, wrW .die []), (4, wrW .die [3])] [] [4]; s.writes.get? 4 = some (wrW .die [3]) ∧ (wrW .die [3]).onward = none ∧
      (wrW .die [3]).reach ≠ .sys ∧ s.performedAll (wrW .die [3]).preds = false ∧ s.performedAll (wrW .die []).preds = true ∧ s.keyed 0x100008 2 0 = true ∧ s.mem.wf = true) ∧
    (let o := opW .load [] none true; let s := stO [o] [] [] [0, 2]; (s.slotAt 0 0).opAt 2 = some (o, 0) ∧ o.issued = true ∧ o.returned = false ∧
      o.units = [⟨0x100008, 2, [], none, 0, 0⟩] ∧ (linesOf 0x100008 2).any s.poison.contains = false ∧ s.writes.entries = [] ∧
      s.keyed 0x100008 2 0 = true ∧ o.reads = true) ∧
    (let o := opW .load [] none true; let w := wrW .own []; let s := stO [o] [(3, w)] [3] [0, 2]; (s.slotAt 0 0).opAt 2 = some (o, 0) ∧
      s.writes.entries.filter (fun v => v.2.meets 0x100008 2) = [(3, w)] ∧ 3 ∈ s.view 0 ∧ s.readable w 0 = true ∧ w.addr ≤ 0x100008 ∧
      0x100008 + 2 ≤ w.addr + w.bytes.length ∧ w.stamp = s.stampOf 0x100008 0) ∧
    (let o := opW (.amo 0 1 0) [] none true; let s := stO [o] [] [] [0, 2]; (s.slotAt 0 0).opAt 2 = some (o, 0) ∧ o.returned = false ∧
      s.viewArrived 0 o = true ∧ s.writes.entries = [] ∧ s.keyed 0x100008 2 0 = true ∧ o.page = none ∧ (amoNew 0 2 (leNat (s.mem.read 0x100008 2)) 1 0).isSome = true) ∧
    (let o := opW .load [] none true; let s : State := { stO [o] [] [] [0, 2] with poison := linesOf 0x100008 2 };
     (linesOf 0x100008 2).any s.poison.contains = true ∧ (s.slotAt 0 0).opAt 2 = some (o, 0)) ∧
    (let s := stO [] [(3, wrW .core [])] [] [0, 3]; s.readable (wrW .core []) 0 = true ∧ s.readable (wrW .core []) 4 = false) := by
  refine ⟨?_, ?_, ?_, ?_, ?_, ?_, ?_, ?_, ?_⟩ <;> decide +kernel

/-- A finished activation of core 0 below GVT, with a line in the Pantry. -/
def plW : PLine := ⟨0, keyW, 0x4000, 0x55, 1, 0, 0⟩
def roundW (open_ : Bool) : Round := ⟨false, 7, open_, 7⟩
def stV (r : Round) (args : List Nat) : State :=
  let s := (stA 0x600 0).modCore 0 (fun c => { c with acts := [{ actW with finished := true }] });
  { (s.modCtx 5 (fun c => { c with round := some r })).modCluster 0 (fun k => { k with pantry := [plW], gvt := KMap.empty.set 3 (some ⟨60, 0, 0⟩) }) with
    args := args, announced := KMap.empty.set 3 (some ⟨60, 0, 0⟩) }

theorem witness_RoundsCloseAndActivationsCommit :
    (let s := stV (roundW false) [5]; (s.ctx 5).round = some (roundW false) ∧ (s.ctx 5).st = .running ∧ (s.ctx 5).sw.lastRun = false) ∧
    (let s := stV (roundW true) [5]; (s.ctx 5).round = some (roundW true) ∧ s.commitsLeft 5 = true) ∧
    (let s := (stV (roundW true) [5]).modCore 0 (fun c => { c with acts := [] }); s.balance 5 false = 0 ∧ s.commitsLeft 5 = false) ∧
    (let s := stV (roundW true) ([0, 3] ++ keyArgs (some ⟨50, 0, 0⟩)); s.args = [0, 3] ++ keyArgs (some ⟨50, 0, 0⟩) ∧
      s.gvtAt 0 3 = some ⟨60, 0, 0⟩ ∧ Key.lt ⟨50, 0, 0⟩ ⟨60, 0, 0⟩ = true) ∧
    ((stV (roundW true) [0]).modCore 0 (fun c => { c with acts := [] })).nextCommit 0 = none ∧
    (let s := stV (roundW true) [0]; let a := { actW with finished := true }; s.nextCommit 0 = some (0, a) ∧ s.mem.wf = true ∧ s.eager = true ∧ s.mayCommit 0 0 a = true ∧
      (s.cluster 0).commitQ.filter (fun d => d.core == 0 && d.key == a.key) = [] ∧
      (s.cluster 0).pantry.filter (fun q => q.core == 0 && q.key == a.key) = [plW] ∧ 64 * plW.line + 64 ≤ 2 ^ 52 ∧
      isHostFrame (64 * plW.line / 4096) = false ∧ s.keyed (64 * plW.line) 64 plW.keyid = true) ∧
    (let d : Deferred := ⟨0, 0, keyW, .store (capTo 4 0 0x200000) 4 0x100000 4 7 none⟩;
     (match stW.commitStore d 4 0x100000 4 7 none with | .error x => x.1 == Cause.notmapped.code | .ok _ => false) = true ∧
     stW.eager = true ∧ (match stW.xlatEng (clusterOf 0) (stW.core 0).ctx 0 0x10008 .store with | .ok (.mem a k _) => a == 0x100008 && k == 0 | _ => false) = true ∧
     stW.tracked (stW.core 0).ctx 0 (0x10008 / 4096) = none ∧ stW.keyed 0x100008 4 0 = true ∧ stW.mem.wf = true) := by decide +kernel

/-- Queue 3 of package 0, ACTIVE for context 5, with an entry at HEAD; memory holds a record, a word and two graphs. -/
def hqW (e : Vector Word 8) (busy : QBusy) : HostQueue := ⟨1, 1, 2, 0, 0, 5, .zero, 8, 0, 0, some e, busy, [], false⟩
def grW : List Nat := [6, 0x10240, 0x10C00, 0, 0, 0, 0, 0,  1, 0x10100, 0, 0, 0, 0, 0, 0,  2, 0x10100, 0, 0, 0, 0, 0, 0,  3, 0x10108, 7, 0, 0, 0, 0, 0,
  4, 0x10100, 0x10A00, 0, 0, 0, 0, 0,  5, 0x10100, 3, 0x10A00, 0, 0, 0, 0,  6, 0x10108, 0x10110, 1, 0, 0, 0, 0]
def memG : Memory := cells 0x100100 [9] ++ cells 0x100200 (dwordBytes grW) ++
  cells 0x100A00 (dwordBytes ([1, 0x10A40, 0x10C00, 0, 0, 0, 0, 0] ++ [3, 0x10108, 7, 0, 0, 0, 0, 0]))
def stHq (h : HostQueue) (args : List Nat) : State :=
  { stG with pkgs := ⟨[(0, { Package.reset 0 with cellar := ⟨(rootNodes 0).entries ++ [(2, nodeW)]⟩, queues := ⟨[(3, h)]⟩ })]⟩, mem := memG, args := args }
def entW (kind a b v : Nat) : Vector Word 8 := #v[BitVec.ofNat 64 kind, BitVec.ofNat 64 a, BitVec.ofNat 64 b, BitVec.ofNat 64 v, 0, 0, 0, 0]
def runW (frames : List (Nat × GFrame)) : GraphRun := ⟨⟨frames⟩, 0, none, 0x10F00, []⟩
def frameW (nodes : List (Nat × GNode)) : GFrame := ⟨none, 0x10200, ⟨nodes⟩, .empty⟩

/-- The bytes of queue 3 at a GLOBAL address stand at one place of memory, which any agent may write as it stands. -/
def lands (s : State) (a n p : Nat) : Bool :=
  s.mem.wf && (match s.engPlaces (s.podEng (queueAgent 3) 5) a 0 n true with
    | .ok [(.mem x _, m)] => x == p && m == n
    | _ => false)

theorem witness_QueueEntriesHaveTheirEffect :
    (let s := stHq (hqW (entW 0 0 0 0) .idle) [3, 5]; (s.hq 3).state = 1 ∧ 5 < (s.hq 3).size ∧ ({ s.hq 3 with state := 2 } : HostQueue).state ≠ 1) ∧
    (∀ p ∈ ([(0, .nop, 0, 0), (1, .grid, 0x10100, 0), (2, .graph, 0x10200, 0x10F00), (3, .signal, 0x10100, 0), (4, .wait, 0x10100, 0), (99, .nop, 0, 0)] :
        List (Nat × Instr × Nat × Nat)),
      (stHq (hqW (entW p.1 p.2.2.1 p.2.2.2 (if p.1 = 4 then 9 else 0)) .idle) [3]).ready 3 p.2.1 =
        some (entW p.1 p.2.2.1 p.2.2.2 (if p.1 = 4 then 9 else 0))) ∧
    (let s := stHq (hqW (entW 0 0 0 0) .idle) [3]; okEx (s.engRead (s.podEng (queueAgent 3) 5) 0x10100 0 64) = true ∧
      lands s 0x10100 8 0x100100 = true ∧ s.flying (s.hq 3) = [] ∧ s.eager = true ∧ lands s 0x10F00 64 0x100F00 = true ∧
      (match (s.modHq 3 (fun y => { y.advance s.clock with busy := .wait 0x10100 9 })).fwDword 3 5 0x10100 with | .ok (x, _) => x == 9 | .error _ => false) = true) ∧
    (let s := (stHq { hqW (entW 0 0 0 0) (.grid 7) with grids := [7] } [3]).modCtx 5 (fun c => { c with grids := ⟨[(7, gridW)]⟩ });
     (s.hq 3).busy = .grid 7 ∧ s.grid 5 7 = some gridW ∧ gridW.triggered = false ∧ s.flying (s.hq 3) ≠ []) ∧
    (let h := hqW (entW 2 0x10200 0x10F00 0) .idle; let s := stHq h [3]; let t := s.modHq 3 (fun h => h.advance s.clock);
     okEx (State.checkGraph 9 t 3 5 0x10200) = true ∧ okEx (State.checkGraph 9 t 3 5 0x10A40) = false) ∧
    (let s := stHq { hqW (entW 0 0 0 0) .idle with state := 2 } [3]; (s.hq 3).state = 2 ∧ (s.hq 3).busy = .idle ∧ s.flying (s.hq 3) = []) ∧
    (let s := stHq (hqW (entW 1 0x10100 0 0) .idle) [5]; s.gridReady 5 = [3]) ∧
    (let h := hqW (entW 1 0x10100 0 0) .idle; let s := (stHq h [5]).modHq 4 (fun _ => { h with since := 3 });
     s.gridReady 5 = [3, 4] ∧ (s.ctx 5).policy = [] ∧ (s.ctx 5).st = .running ∧
       (s.modCtx 5 (fun c => { c with policy := [0] })).gridReady 5 = [3, 4]) := by
  refine ⟨?_, ?_, ?_, ?_, ?_, ?_, ?_, ?_⟩ <;> decide +kernel

/-- A node of the graph that queue 3 runs is ready. -/
def nodeOk (s : State) (node kind : Nat) : Bool :=
  match (s.hq 3).run with
  | some r => r.ending == none && (match r.frames.get? 0 with
    | some f => (match s.readGraph 3 5 f.addr with
      | .ok (t, _) => f.isReady t node && (match t.nodes[node]? with
        | some d => nodeKind d == kind
        | none => false)
      | .error _ => false)
    | none => false)
  | none => false

theorem witness_GraphNodesAct :
    (∀ k ∈ ([1, 2, 3, 4, 5, 6] : List Nat), let s := stHq (hqW (entW 0 0 0 0) (.graph (runW [(0, frameW [])]))) [3, nodeNum 0 (k - 1)];
      s.args = [3, nodeNum 0 (k - 1)] ∧ nodeOk s (k - 1) k = true) ∧
    (let s := stHq (hqW (entW 0 0 0 0) (.graph (runW [(0, frameW [])]))) [3]; (s.ctx 5).st = .running ∧ s.workClusters 5 ≠ [] ∧
      okEx (s.engRead (s.podEng (queueAgent 3) 5) 0x10100 0 64) = true ∧ lands s 0x10108 8 0x100108 = true ∧ s.eager = true ∧
      (match s.fwDword 3 5 0x10100 with | .ok (x, _) => x == 9 | .error _ => false) = true ∧
      (match s.fwDword 3 5 0x10108 with | .ok (x, _) => x == 0 | .error _ => false) = true) ∧
    (let f := frameW ((List.range 6).map (fun i => (i, .finished))); let r := runW [(0, f)]; let s := stHq (hqW (entW 0 0 0 0) (.graph r)) [3];
     (s.hq 3).run = some r ∧ r.grids = [] ∧ f.parent = none ∧ r.result % 64 = 0 ∧ r.ending = none ∧ r.frames = ⟨[(0, f)]⟩ ∧
       (match s.readGraph 3 5 f.addr with
        | .ok (t, _) => (List.range t.nodes.length).all (fun i => f.node i == .finished)
        | .error _ => false) = true ∧
       s.eager = true ∧ lands s 0x10F00 64 0x100F00 = true) ∧
    (let r := { runW [(0, frameW [])] with ending := some 2 }; let s := stHq (hqW (entW 0 0 0 0) (.graph r)) [3];
     (s.hq 3).run = some r ∧ (frameW []).nodes.entries.all (fun e => e.2 != .running) = true ∧
       s.eager = true ∧ lands s 0x10F00 64 0x100F00 = true) ∧
    (let f := frameW []; let s := stHq (hqW (entW 0 0 0 0) (.graph (runW [(0, f)]))) [3]; f.parent = none ∧ nodeOk s 2 3 = true) := by
  refine ⟨?_, ?_, ?_, ?_, ?_⟩ <;> decide +kernel

/-- Context 5 with a change, core 0 with a change, and arguments. -/
def stU (f : Ctx → Ctx) (g : Core → Core) (args : List Nat) : State := { (stW.modCtx 5 f).modCore 0 g with args := args }
def rival : Ctx := { ctx6 with order := 2, dies := [0] }
/-- The only core of the context, in its switch window, with its slots at rest. -/
def stY (done : Bool) (args : List Nat) : State :=
  let s := stU (fun c => { c with sw := .window 7 false }) (fun c => { c.setSlot 0 Slot.reset with window := !done, saved := done }) args;
  { s with cores := ⟨s.cores.entries.take 1⟩ }

theorem witness_SwitchesSaveAndRestore :
    (let s := stW; (s.ctx 5).sliceEnd = some 100 ∧ (s.ctx 5).st = .running ∧ (s.ctx 5).sw = .none_ ∧ s.clock < 100 ∧ (s.ctx 5).order ≠ 0 ∧
      s.contended 5 = false ∧ (s.modCtx 6 (fun _ => rival)).contended 5 = true) ∧
    (let s := stU (fun c => { c with sw := .agreed 7 }) id [5]; (s.ctx 5).sw = .agreed 7 ∧ s.now < 7 ∧ (∀ d ∈ (s.ctx 5).dies, (s.pkg (d / 2)).holdsSwitch = false) ∧
      (s.ctx 5).lofts = .empty ∧ 7 ≤ ({ s with podTime := 7 } : State).now) ∧
    (let s := stU id (fun c => { c with window := true }) [0, 0]; (s.core 0).window = true ∧ (s.slotAt 0 0).st.live = true ∧
      (s.slotAt 0 0).timed = false ∧ s.eager = true ∧ (s.slotAt 0 0).gang = none ∧ (s.slotAt 0 0).awaits = false ∧
      s.hostAnswer.any (fun e => e.1 == slotAgent 0 0) = false ∧
      ((s.modMe (fun x => { x with st := .parked .query })).slotAt 0 0).awaits = true ∧
      ((s.modMe (fun x => { x with st := .parked .query })).slotAt 0 0).st.live = true) ∧
    (let s := (stA 0x600 0).modCore 0 (fun c => { c with window := true }); (s.core 0).window = true ∧ (s.slotAt 0 0).st.live = true ∧
      (s.slotAt 0 0).timed = true ∧ (s.slotAt 0 0).spec = true ∧ (s.slotAt 0 0).actKey = some keyW) ∧
    (let s := (stA 0x200 0).modCore 0 (fun c => { c with window := true }); (s.slotAt 0 0).timed = true ∧ (s.slotAt 0 0).spec = false ∧
      (s.slotAt 0 0).st = .ready ∧ (s.slotAt 0 0).awaits = false) ∧
    (let s := stY false [0]; s.canSave 0 = true ∧ (s.core 0).acts = [] ∧ (stY true [0]).canSave 0 = false) ∧
    (let s := stY true [5]; s.mem.wf = true ∧ s.canSwitchOut 5 = true ∧ s.timelinesOf 5 = [] ∧ (∀ i ∈ s.coresOf 5, (s.core i).acts = []) ∧
      (∀ k ∈ s.clustersOf 5, s.nextCommit k = none) ∧ s.coresOf 5 = [0] ∧
      (∀ w ∈ s.writes.entries, w.2.reach = .sys) ∧ (s.ctx 5).lofts = .empty ∧ (stY false [5]).canSwitchOut 5 = false) ∧
    (let c : Ctx := { ctxW with st := .saved, neverIn := true, seeds := [capTo 0 0 0x1000] }; let s : State := { stW with ctxs := ⟨[(5, c)]⟩, args := [5] };
     s.mem.wf = true ∧ (s.ctx 5).eligible = true ∧ s.diesFree 5 = true ∧ (∀ d ∈ c.dies, (s.pkgs.get? (d / 2)).isSome = true ∧
       (s.pkg (d / 2)).halted = false ∧ (s.pkg (d / 2)).fw.rung < 3) ∧ c.image.valid = true ∧ s.coresMatch 5 = true ∧ c.policy = [] ∧
       c.image = Image.empty ∧ c.seeds.length ≤ 16 ∧ c.lofts = .empty) ∧
    (let c : Ctx := { ctxW with st := .saved, neverIn := false, image := { Image.empty with valid := false } };
     let s : State := { stW with ctxs := ⟨[(5, c)]⟩, args := [5] }; (s.ctx 5).eligible = true ∧ (s.ctx 5).image.valid = false ∧ s.coresMatch 5 = false ∧ s.diesFree 5 = true ∧
       (s.modCtx 5 (fun x => { x with image := { x.image with valid := true } })).coresMatch 5 = false) ∧
    (let s := stW.modPkg 0 (fun p => { p with cfg := { p.cfg with enabled := #v[1, 1] } }); let e : SavedSlot := ⟨0, 1, slotW, 40⟩;
     bitsOf e.data.xstat.toNat 11 2 ≠ 1 ∧ e.slot < 4 ∧ e.core ∈ s.workCores 5) := by
  refine ⟨?_, ?_, ?_, ?_, ?_, ?_, ?_, ?_, ?_, ?_⟩ <;> decide +kernel

/-- An Attic of context 5, and the state in which slot 0 of core 0 has stopped and its dump waits. -/
def atticW (state : Nat) : Attic := ⟨0x200000, 0x400, state, false, false, 0, 0⟩
def stD (a : Option Attic) (cur : Option (Nat × Nat × Nat)) : State :=
  let s := stU (fun c => { c with attic := a }) (fun c => c.setSlot 0 { slotW with st := .stopped 2 }) [0];
  s.modPkg 0 (fun p => { p with dump := ⟨cur, [(0, 0, 2)]⟩ })

theorem witness_FatalSlotsAreDumped :
    (let s := stD none none; s.mem.wf = true ∧ (s.pkg 0).dump.waiting = [(0, 0, 2)] ∧ (s.slotAt 0 0).timed = false ∧ (s.slotAt 0 0).actKey = none ∧
      s.blockOf 0 = none ∧ (s.ctx (s.core 0).ctx).attic = none ∧ (stW.pkg 0).dump.waiting = []) ∧
    (∀ k ∈ ([0, 1, 2] : List Nat), let s := stD (some (atticW k)) (if k = 1 then some (0, 0, 2) else none);
     (s.ctx (s.core 0).ctx).attic = some (atticW k) ∧ (atticW k).state = k ∧ (s.pkg 0).dump.cur = (if k = 1 then some (0, 0, 2) else none) ∧
       (atticW k).addr % 64 = 0 ∧ (atticW k).addr + (atticW k).size ≤ 2 ^ 52 ∧ 64 + (atticW k).used ≤ (atticW k).size ∧
       isHostFrame ((atticW k).addr / 4096) = false ∧ isHostFrame (((atticW k).addr + 64) / 4096) = false) ∧
    (∀ f ∈ ([none, some ⟨3, 0, 0, 5, 0⟩] : List (Option FaultRec)), let b : Block := { blockW with fault := f };
     let s : State := { stD none none with clusters := stG.clusters, blocks := ⟨[(0, b)]⟩ };
     s.blockOf 0 = some (0, b) ∧ (s.slotAt 0 0).timed = false ∧ (s.slotAt 0 0).actKey = none) := by decide +kernel

/-- The mailbox of package 0 holds a command, BUSY, with its arguments; memory holds bytes at 0x200000. -/
def stMb (code : Nat) (args : List Nat) (bs : List Byte) : State :=
  let s := stW.modPkg 0 (fun k => { k with mailbox :=
    ⟨Vector.replicate 8 0, Vector.ofFn (fun i => BitVec.ofNat 64 ((code :: args).getD i.val 0)), true, false, 0⟩ })
  { s with args := [0], mem := cells 0x200000 bs }
def cmdOk (s : State) (code : Nat) (bounds : List Nat) : Bool :=
  decide (s.args = [0]) && (s.pkg 0).mailbox.busy && decide (s.cc 0 0 = code) && s.argsIn 0 bounds

theorem cmdOk_sound (s : State) (code : Nat) (bounds : List Nat) (h : cmdOk s code bounds = true) : CmdIs s 0 code bounds := by
  simp only [cmdOk, Bool.and_eq_true, decide_eq_true_eq] at h
  exact ⟨h.1.1.1, h.1.1.2, h.1.2, h.2⟩

/-- Package 0 with a change of its firmware. -/
def stFw (f : Firmware → Firmware) (args : List Nat) : State := { stW.modPkg 0 (fun k => { k with fw := f k.fw }) with args := args }

theorem witness_FirmwareResetsAndPower :
    (let s := stFw (fun f => { f with hbAddr := 8 }) [0]; (s.pkg 0).fw.beats s.clock = true ∧ (s.pkg 0).halted = false ∧ (s.pkg 0).rolesAnswer = true ∧
      (stW.pkg 0).fw.beats stW.clock = false) ∧
    (let s := stFw (fun f => { f with hbAddr := 8, update := .handed 0, stagedHand := true }) [0]; (s.pkg 0).fw.beats s.clock = true ∧
      (s.pkg 0).fw.update = .handed 0 ∧ s.clock < 5000 * Config.cyclesPerMicro) ∧
    (let s : State := { stFw (fun f => { f with rung := 3 }) [0] with ctxs := .empty }; (s.pkg 0).fw.rung = 3 ∧ s.runningOn [0, 1] = [] ∧ (stW.pkg 0).fw.rung ≠ 3) ∧
    (let s := stFw (fun f => { f with rung := 3 }) [0]; (s.pkg 0).fw.rung = 3 ∧ s.runningOn [0, 1] = [5] ∧ (s.ctx 5).sw = .none_ ∧ (s.ctx 5).sliceEnd.isSome = true) ∧
    ((stW.pkg 0).fw.staged = false ∧ (stW.pkg 0).fw.update = .none_ ∧ ((stFw (fun f => { f with staged := true }) [0]).pkg 0).fw.staged = true) ∧
    (let s := stFw (fun f => { f with update := .handed 0, stagedHand := false }) [0]; (s.pkg 0).fw.stagedHand = false ∧ (s.pkg 0).fw.update = .handed 0) ∧
    (let s : State := { stFw id [0, 0x200000, 16, 1] with clock := 5000 * Config.cyclesPerMicro }; s.args = [0, 0x200000, 16, 1] ∧
      0 + 5000 * Config.cyclesPerMicro ≤ s.clock) ∧
    -- resets and power
    (let s : State := stW.modDie 0 (fun d => { d with released := 271 }); s.mem.wf = true ∧ (s.die 0).released < 272) ∧
    (let s : State := stW.modDie 0 (fun d => { d with released := 272 }); s.mem.wf = true ∧ 272 ≤ (s.die 0).released) ∧
    (let s : State := stW.modPkg 0 (fun k => { k with halted := true }); s.mem.wf = true ∧ (s.pkg 0).halted = true ∧ (stW.pkg 0).halted = false) ∧
    ((255 : Nat) < 256 ∧ stW.mem.wf = true ∧ (∀ x ∈ ([(99, 3201), (100, 0), (94, 2999), (95, 3000)] : List (Nat × Nat)), ({ stW with args := [0, x.1, x.2] } : State).args = [0, x.1, x.2])) := by
  refine ⟨?_, ?_, ?_, ?_, ?_, ?_, ?_, ?_, ?_, ?_, ?_⟩ <;> decide +kernel

/-- Context 5 in a state. -/
def inSt (st : CtxSt) (s : State) : State := s.modCtx 5 (fun c => { c with st := st })
def word3 : List Byte := leBytes 4 0x04000000 ++ leBytes 4 0

theorem witness_MailboxCommandsOnContexts :
    (∀ k ∈ ([1, 7, 0x18] : List Nat), let s := stMb (k + 256) [5] []; s.args = [0] ∧ (s.pkg 0).mailbox.busy = true ∧ s.cc 0 0 % 256 = k ∧ 256 ≤ s.cc 0 0) ∧
    (∀ k ∈ ([2, 3, 4, 5, 6, 7, 8, 9, 10, 11, 12, 13, 14, 15, 16, 17, 18, 24] : List Nat), cmdOk (stMb k [0] []) k [ctxBound] = true ∧
      cmdOk (stMb k [0xFFFFF] []) k [ctxBound] = true ∧ ((stMb k [0] []).ctx 0xFFFFF).st = .free) ∧
    (∀ k ∈ ([2, 15, 24] : List Nat), let s := inSt .retiring (stMb k [5] []); cmdOk s k [ctxBound] = true ∧ s.cc 0 1 = 5 ∧ (s.ctx 5).st = .retiring) ∧
    (let s := stMb 3 [5] []; cmdOk s 3 [ctxBound] = true ∧ s.cc 0 1 = 5 ∧ (s.ctx 5).st = .running) ∧
    (∀ k ∈ ([0, 0x19, 0xFF] : List Nat), let s := stMb k [] []; s.args = [0] ∧ (s.pkg 0).mailbox.busy = true ∧ s.cc 0 0 % 256 = k) ∧
    (let s := stMb 1 [6, 0x200000, 16] (List.replicate 256 0x11); cmdOk s 1 [ctxBound, anyWord, 32] = true ∧ s.cc 0 1 = 6 ∧ s.cc 0 3 = 16 ∧ (s.ctx 6).st = .free ∧
      s.homed 0 < Config.contextLimit) ∧
    (let s := stMb 2 [5] []; cmdOk s 2 [ctxBound] = true ∧ s.cc 0 1 = 5 ∧ (s.ctx 5).st = .running) ∧
    (let s := inSt .reset (stMb 3 [5] []); cmdOk s 3 [ctxBound] = true ∧ s.cc 0 1 = 5 ∧ (s.ctx 5).st = .reset) ∧
    (∀ st ∈ ([.saved, .reset] : List CtxSt), let s := inSt st (stMb 4 [5] []); cmdOk s 4 [ctxBound] = true ∧ s.cc 0 1 = 5 ∧ (s.ctx 5).st = st) ∧
    (∀ k ∈ ([5, 6] : List Nat), let s := stMb k [5] []; cmdOk s k [ctxBound] = true ∧ s.cc 0 1 = 5 ∧ (s.ctx 5).st ≠ .free) ∧
    (∀ e ∈ ([(0, 0, 0), (1, 0, 0), (1, 100, 10000000), (1, 10000000, 10000000)] : List (Nat × Nat × Nat)), let s := stMb 11 [5, 0x200000, e.2.1, e.2.2] [BitVec.ofNat 8 e.1];
      let bs := (s.rootRead 0 (s.cc 0 2) 64).1;
      cmdOk s 11 [ctxBound, anyWord, 2 ^ 24, 2 ^ 24] = true ∧ s.cc 0 1 = 5 ∧ (s.ctx 5).st = .running ∧ bitmapDies bs = (if e.1 = 0 then [] else [0]) ∧
        (s.pkgs.get? 0).isSome = true ∧ (s.ctx 5).lastDies = [0] ∧ (s.ctx 5).nextSlice ≤ 10000000 ∧ (s.ctx 5).slice ≤ 10000000) ∧
    (let s := (inSt .saved (stMb 11 [5, 0x200000, 0, 0] [2])).modCtx 5 (fun c => { c with neverIn := true }); cmdOk s 11 [ctxBound, anyWord, 2 ^ 24, 2 ^ 24] = true ∧
      (s.ctx 5).st = .saved ∧ (s.ctx 5).neverIn = true ∧ bitmapDies (s.rootRead 0 0x200000 64).1 = [1]) ∧
    (let s := stMb 12 [5, 255, 0x200000, 0x1000] []; cmdOk s 12 [ctxBound, 256, anyWord, anyWord] = true ∧ s.cc 0 1 = 5 ∧ (s.ctx 5).st ≠ .free) ∧
    (let s := stMb 13 [5, 0, 0x200000, 0x1000] []; s.mem.wf = true ∧ cmdOk s 13 [ctxBound, 1, anyWord, anyWord] = true ∧ s.cc 0 1 = 5 ∧ (s.ctx 5).st ≠ .free) ∧
    (let s := (stMb 14 [5] []).modCtx 5 (fun c => { c with attic := some (atticW 2) }); cmdOk s 14 [ctxBound] = true ∧ s.cc 0 1 = 5 ∧ (s.ctx 5).attic = some (atticW 2)) ∧
    (let s := stMb 18 [5, 2 ^ 64 - 1] []; cmdOk s 18 [ctxBound, anyWord] = true ∧ s.cc 0 1 = 5 ∧ (s.ctx 5).st ≠ .free) := by
  refine ⟨?_, ?_, ?_, ?_, ?_, ?_, ?_, ?_, ?_, ?_, ?_, ?_, ?_, ?_, ?_, ?_⟩ <;> decide +kernel

/-- Arguments out of their bounds, and root addresses of a Cellar frame, which no command may reach. -/
theorem witness_MailboxCommandsOnContexts_refused :
    (∀ e ∈ ([(6, [5, 1], ctxBound, 1), (15, [5, 4096], 4096, 1), (22, [1], 1, 0), (23, [0, 2 ^ 32], 2 ^ 32, 1), (9, [5, 0, 16], 16, 2)] :
        List (Nat × List Nat × Nat × Nat)), let s := stMb e.1 e.2.1 [];
      s.args = [0] ∧ (s.pkg 0).mailbox.busy = true ∧ s.cc 0 0 % 256 = e.1 ∧
        (if e.1 = 6 then 1 ≤ s.cc 0 2 else e.2.2.1 ≤ s.cc 0 (e.2.2.2 + 1))) ∧
    (let s := stMb 20 [2 ^ 20, 0, 1] []; s.cc 0 0 % 256 = 20 ∧ s.cc 0 3 % 2 = 1 ∧ s.cc 0 3 / 16 % 2 = 0 ∧ ctxBound ≤ s.cc 0 1) ∧
    (∀ a ∈ ([Config.cellarFrame * 4096, 0x200000] : List Nat), (stMb 12 [5, 0, a, 64] []).rootOk a 64 = decide (a = 0x200000)) ∧
    (let s := stMb 1 [6, Config.cellarFrame * 4096, 4] []; cmdOk s 1 [ctxBound, anyWord, 32] = true ∧ s.rootOk (s.cc 0 2) (16 * s.cc 0 3) = false) := by decide +kernel

def keyGenW (g : Nat) (s : State) : State := s.modPkg 0 (fun k => { k with keys := ⟨[(3, ⟨true, List.replicate 64 7, 5, g⟩)]⟩ })
def trackW (b : Nat) : List Byte := leBytes 8 0 ++ leBytes 8 32 ++ leBytes 8 32 ++ leBytes 8 b

theorem witness_MailboxCommandsOnTables :
    (∀ g ∈ ([0, 0xFFFF] : List Nat), let s := keyGenW g (stMb 7 [5, 3, 0x200000] [1, 2]); s.mem.wf = true ∧ cmdOk s 7 [ctxBound, 4096, anyWord] = true ∧ s.cc 0 1 = 5 ∧
      (s.ctx 5).st ≠ .free ∧ s.cc 0 2 = 3 ∧ ((s.pkg 0).keys.getD 3 KeySlot.reset).gen = g ∧ isHostFrame (0x200000 / 4096) = false) ∧
    (let s := stMb 8 [5, 4095] []; s.mem.wf = true ∧ cmdOk s 8 [ctxBound, 4096] = true ∧ (s.ctx 5).st ≠ .free) ∧
    (let s := stMb 9 [5, 0, 0] []; s.mem.wf = true ∧ cmdOk s 9 [ctxBound, anyWord, 16] = true ∧ s.cc 0 3 = 0) ∧
    (∀ b ∈ ([0x300000, 0x300001] : List Nat), let s := stMb 9 [5, 0x200000, 1] (trackW b); s.mem.wf = true ∧ cmdOk s 9 [ctxBound, anyWord, 16] = true ∧ s.cc 0 3 = 1 ∧
      s.trackOk (trackOf (dwordsOf 4 (s.rootRead 0 0x200000 32).1)) = decide (b = 0x300000)) ∧
    (let s := { stT with args := [0] }.modPkg 0 (fun k => { k with mailbox := (stMb 9 [5, 0x200000, 1] []).pkg 0 |>.mailbox }); s.mem.wf = true ∧
      cmdOk s 9 [ctxBound, anyWord, 16] = true ∧ s.cc 0 3 ≠ 0 ∧ (s.ctx 5).tracks ≠ []) ∧
    (∀ k ∈ ([256, 511] : List Nat), let s := stMb 10 [5, k] []; s.mem.wf = true ∧ cmdOk s 10 [ctxBound, 512] = true ∧ s.timelines.get? (k % 256) = none) ∧
    (let s : State := { stMb 10 [5, 256] [] with timelines := ⟨[(0, 6)]⟩ }; s.mem.wf = true ∧ cmdOk s 10 [ctxBound, 512] = true ∧ s.timelines.get? 0 = some 6) ∧
    (let s : State := { stMb 10 [5, 255] [] with timelines := ⟨[(255, 5)]⟩ }; s.mem.wf = true ∧ cmdOk s 10 [ctxBound, 512] = true ∧ s.timelines.get? 255 = some 5) ∧
    (∀ n ∈ ([6, 16] : List Nat), let s := stMb 15 [5, 4095, 0x200000, n] [1]; s.mem.wf = true ∧ cmdOk s 15 [ctxBound, 4096, anyWord, 32] = true ∧ (s.ctx 5).st = .running ∧
      s.cc 0 4 = n ∧ (s.hq 4095).state = 0) ∧
    (∀ u ∈ ([.none_, .quiescing] : List Update), let s := (stMb 16 [5, 0] []).modPkg 0 (fun k => { k with queues := ⟨[(0, hqW (entW 0 0 0 0) .idle)]⟩, fw := { k.fw with update := u } });
      s.mem.wf = true ∧ cmdOk s 16 [ctxBound, 4096] = true ∧ (s.hq 0).state = 1 ∧ (s.hq 0).ctx = 5 ∧ s.fwBegins 0 = decide (u = .none_)) ∧
    (∀ n ∈ ([1, 2] : List Nat), let s := stMb 17 [5, 0x200000, n] word3; s.mem.wf = true ∧ cmdOk s 17 [ctxBound, anyWord, 256] = true ∧
      policyOk ((List.range n).map (fun i => BitVec.ofNat 32 (leNat (((s.rootRead 0 0x200000 (4 * n)).1.drop (4 * i)).take 4)))) = decide (n = 2)) ∧
    (let s := stMb 19 [0, 7, 0x200000, 64] []; s.mem.wf = true ∧ cmdOk s 19 [ctxBound, anyWord, anyWord, anyWord] = true ∧ s.cc 0 1 = 0) ∧
    (let s := { stMb 19 [] [] with podTime := 7 }.modPkg 0 (fun k => { k with samples := [⟨7, 0x200000, 64⟩] }); s.mem.wf = true ∧ s.args = [0] ∧
      (s.pkg 0).samples = [⟨7, 0x200000, 64⟩] ∧ 7 ≤ s.now ∧ isHostFrame (0x200000 / 4096) = false ∧ ({ s with podTime := 6 } : State).now < 7) ∧
    (∀ k ∈ ([1, 2, 4, 8, 0, 16, 24] : List Nat), let s := stMb 20 [0, 0, k, 0x200000] []; s.mem.wf = true ∧ cmdOk s 20 [ctxBound, 2 ^ 20, 32, anyWord] = true ∧ s.coreExists 0 = true ∧
      s.cc 0 3 = k) ∧
    (let s := stMb 21 [0, 0x200000] []; s.mem.wf = true ∧ cmdOk s 21 [ctxBound, anyWord] = true ∧ s.cc 0 1 = 0) ∧
    (∀ f ∈ ([1, 8] : List Nat), let s := stMb 22 [0, f, 0x10, 0x10, 0, 0] []; s.mem.wf = true ∧ cmdOk s 22 [1, anyWord, anyWord, anyWord, anyWord, anyWord, anyWord] = true ∧
      rootUnitOk (Vector.ofFn (fun i => BitVec.ofNat 64 (s.cc 0 (2 + i.val)))) = decide (f = 1)) ∧
    (let s := stMb 23 [0, 0x3FFFFFF] []; s.mem.wf = true ∧ cmdOk s 23 [1, 2 ^ 32, anyWord, anyWord, anyWord, anyWord, anyWord] = true ∧ s.cc 0 2 ≤ 0x3FFFFFF) ∧
    (let s := (stMb 24 [5, 1022, 0x200000] (List.replicate 16 9)).modCtx 5 (fun c => { c with page := { c.page with htbase := 0x10000 } }); let bs := (s.rootRead 0 0x200000 32).1;
      s.mem.wf = true ∧ cmdOk s 24 [ctxBound, 2048, anyWord] = true ∧ leNat ((bs.drop 16).take 8) ≤ 1 ∧ leNat (bs.drop 24) = 0 ∧ s.cc 0 2 = 1022 ∧
      s.xlatAgent 5 0 (0x10000 + 32 * 1022) .store = .ok (.mem 0x107FC0 0 true) ∧ 0x107FC0 % 32 = 0 ∧ s.tracked 5 0 ((0x10000 + 32 * 1022) / 4096) = none) ∧
    (∀ b ∈ ([0x8000, 0x8001] : List Nat), ∀ i ∈ ([1024, 2047] : List Nat), let s := stMb 24 [5, i, b] []; s.mem.wf = true ∧ cmdOk s 24 [ctxBound, 2048, anyWord] = true ∧ (s.ctx 5).st = .running ∧
      s.cc 0 2 = i ∧ s.cc 0 3 = b) := by
  refine ⟨?_, ?_, ?_, ?_, ?_, ?_, ?_, ?_, ?_, ?_, ?_, ?_, ?_, ?_, ?_, ?_, ?_, ?_, ?_⟩ <;> decide +kernel

/-- Arguments of a host access. -/
def stHa (args : List Nat) : State := { stW with args := args }

theorem witness_HostAccessesReachTheDevice :
    (let s := stW.modPkg 255 (fun k => { k with halted := true }); s.mem.wf = true ∧ (s.pkg 255).halted = true) ∧
    (∀ a ∈ ([0x200000, 0x100008] : List Nat), let s := stHa [0, 2, a, 8, 0x55]; s.mem.wf = true ∧ (s.pkg 0).halted = false ∧ s.localBacked 0 a = true ∧ s.localBacked 0 (a + 7) = true ∧
      isHostFrame (a / 4096) = false ∧ s.keyed a 8 0 = true ∧ (linesOf a 8).any s.poison.contains = false) ∧
    (stW.localBacked 0 (2 ^ 44 - 1) = false) ∧
    (∀ a ∈ ([0x0000, 0x0008, 0x0010, 0x0020, 0x0028, 0x1000, 0x1038, 0x1040, 0x1048, 0x100000, 0x100008, 0x100010] : List Nat), a % 8 = 0 ∧ a ≠ 0x0018 ∧ a ≤ 0x100010 ∧
      (stHa [0, 0, a, 8]).args = [0, 0, a, 8]) ∧
    ((4095 : Nat) < 4096 ∧ (2 ^ 32 - 1 : Nat) < 2 ^ 32 ∧ (stHa [0, 0, 0x100000 + 0x1000 * 4095, 4, 2 ^ 32 - 1]).args = [0, 0, 0x100000 + 0x1000 * 4095, 4, 2 ^ 32 - 1]) ∧
    (∀ v ∈ ([1, 5, 6, 0] : List Nat), v < 2 ^ 64 ∧ ((stW.pkg 0).fw.rung < v % 8 ∧ v % 8 ≤ 5 ∨ v % 8 ≤ (stW.pkg 0).fw.rung ∨ 5 < v % 8)) ∧
    ((stW.pkg 0).mailbox.busy = false ∧ ((stMb 1 [] []).pkg 0).mailbox.busy = true) := by
  refine ⟨?_, ?_, ?_, ?_, ?_, ?_, ?_⟩ <;> decide +kernel

theorem witness_ControlPageAndAttestation :
    (∀ v ∈ ([0, 7, 8, 15] : List Nat), (stHa [5, v]).args = [5, v] ∧ v < 16 ∧ (stW.ctx 5).page.pmbusy = none) ∧
    (let s := (stHa [5]).modCtx 5 (fun c => { c with page := { c.page with pmbusy := some 7 } }); (s.ctx 5).page.pmbusy = some 7 ∧ s.args = [5]) ∧
    ((3 : Nat) < 4 ∧ (stHa [0, 3, 0x55]).args = [0, 3, 0x55]) ∧
    (∀ off ∈ ([0xF00, 0xF08, 0xF20, 0xF38, 0xF40, 0xF48, 0xF50, 0xF58, 0xF60, 0xF68, 0xF70, 0xF88, 0xF98] : List Nat),
      (stHa [0, 0, off, 8, 2 ^ 64 - 1]).args = [0, 0, off, 8, 2 ^ 64 - 1] ∧ (stW.core 0).ctx = 5) ∧
    (∀ v ∈ ([0, 1, 6, 7, 0xFF] : List Nat), (stHa [0, v]).args = [0, v]) := by decide +kernel

theorem witness_PolicyWordsCompute :
    (∀ l ∈ ([[], [Vector.replicate 8 3, Vector.replicate 8 2]] : List (List (Vector Word 8))), let s : State := { stW with polRun := some ⟨5, 0, [], l, Vector.replicate 8 0, 0, 0, none, false⟩ };
      ∃ r, s.polRun = some r ∧ r.cand = l) := by
  intro l _; exact ⟨_, rfl, rfl⟩

/-- A run of a policy of one word that has used some steps, about the queues given. -/
def stPr (w : BitVec 32) (event steps : Nat) (queues : List Nat) : State :=
  { stP w event with polRun := some ⟨5, event, queues, queues.map (fun _ => Vector.replicate 8 0), Vector.replicate 8 0, 0, steps, none, false⟩ }
def polIs (s : State) (f : PolRun → Option Instr → Bool) : Bool :=
  match s.polRun with
  | some r => r.result.isNone && decide (r.steps < 512) && f r (((s.ctx r.ctx).policy[r.pc]?).bind (fun w => decodePolicy w.toNat))
  | none => false

theorem witness_PolicyRunsEnd :
    polIs (stPr 0x05FFFFFF 2 0 []) (fun _ w => w.isNone) = true ∧
    polIs (stPr 0x04000000 2 511 []) (fun r w => decide (r.steps = 511) && decide (w = some (.policyLi 0 0))) = true ∧
    (∀ e ∈ ([1, 2] : List Nat), polIs (stPr 0 e 510 [0]) (fun r w => decide (w = some (.policyRet 0)) && decide (r.event = e) && decide (r.queues = [0])) = true) ∧
    (let s := (stPr 0 0 0 [0]).modPkg 0 (fun k => { k with queues := ⟨[(0, hqW (entW 1 0 0 0) .idle)]⟩ });
      polIs s (fun r w => decide (w = some (.policyRet 0)) && decide ((r.rd 0).toNat < r.cand.length)) = true ∧ 0 ∈ s.gridReady 5) ∧
    polIs (stPr 0 0 510 []) (fun r w => decide (w = some (.policyRet 0)) && decide (r.event = 0) && decide (r.cand.length ≤ (r.rd 0).toNat)) = true := by
  decide +kernel

theorem witness_StepKeepsMemoryCanonical : (stB 0x01920003).mem.wf = true ∧ ({ stB 0x01920003 with agenda := [⟨.sampleLatch, [0]⟩] } : State).mem.wf = true ∧
    (match step { stB 0x01920003 with agenda := [⟨.sampleLatch, [0]⟩] } with
     | .next t => t.mem.wf
     | .fault _ => false
     | .refused _ => false) = true := by decide +kernel

theorem witness_PredicateResults : (∀ f ∈ ([0, 1, 2, 3, 4, 5, 7] : List Nat), bitsOf (0x30 * 2 ^ 26 + f) 26 6 = 0x30 ∧ (0x30 * 2 ^ 26 + f) % 8 = f ∧
    bitsOf (0x30 * 2 ^ 26 + f) 3 14 = 0 ∧ bitsOf (0x30 * 2 ^ 26 + f) 17 3 = 0) ∧ bitsOf (0x30 * 2 ^ 26 + 7 * 2 ^ 17 + 3) 17 3 ≠ 0 := by decide

/-- R344: the ROM refuses a table that is not there; R341: with the default layout a die has 16 work columns, the lowest ones, and
die 1 has a spare one; a Garret column between is stepped over. -/
theorem test_configuration : PkgConfig.reset.tableOk 0 = false ∧ PkgConfig.reset.workColumns 0 = List.range 16 ∧
    PkgConfig.reset.workColumns 1 = List.range 16 ∧
    { PkgConfig.reset with layout := #v[0x31, 0] }.workColumns 0 = [0, 1, 2, 4, 5, 6, 7, 8, 9, 10, 11, 12, 13, 14, 15, 16] ∧
    { PkgConfig.reset with layout := #v[0x5032, 0] }.columns 0 = 15 := by decide +kernel

/-! Worked examples of the spec. -/

/-- A general register after an instruction on `stW` with g5, g6 and g7 as given. -/
def gAfter (i : Instr) (d : BitVec 5) (x y z : Word) : Option Word :=
  match exec i (((stW.wrG 5 x).wrG 6 y).wrG 7 z) with
  | .next t => some (t.rdG d)
  | .fault _ => none
  | .refused _ => none

/-- 10 R240, R241, R242: the examples of the spec. -/
theorem test_integer_examples : gAfter (.mulhn 4 5 6) 4 0x8000000000000000 0x8000000000000000 0 = some 0x4000000000000000 ∧
    gAfter (.div 4 5 0) 4 7 0 0 = some 0xFFFFFFFFFFFFFFFF ∧ gAfter (.addi 4 0 0xFFFF) 4 0 0 0 = some 0xFFFFFFFFFFFFFFFF ∧
    gAfter (.li 5 0 (some 0x9ABCDEF0)) 5 0 0 0 = some 0xFFFFFFFF9ABCDEF0 ∧
    gAfter (.liHi 5 0x12345678) 5 0xFFFFFFFF9ABCDEF0 0 0 = some 0x123456789ABCDEF0 := by decide +kernel

/-- 10 R244, R245: a comparison with NaN fails, and 235.0 in the 8-bit format of precision 4 is 0x7F (240). -/
theorem test_float_examples : gAfter (.fcmp 4 5 6 2 1) 4 0x7FC00000 0x3F800000 0 = some 0 ∧
    gAfter (.fcvt 5 6 0x14 9 0 0) 5 0 0x436B0000 0 = some 0x7F := by decide +kernel

/-- 11 R285: the sequence that bounds a capability to 100,003 bytes, rounded down to 100,000. -/
theorem test_capability_example :
    (match exec (.cadd 3 3 6 0) ((stW.wrC 3 (capTo 0 0x010000000000 0x100000000)).wrG 6 0x12345600) with
     | .next s =>
       (s.rdC 3).cursor == 0x010012345600 &&
         (match exec (.cbnd 3 3 6 0) (s.wrG 6 100003) with
          | .next t => (t.rdC 3).len == 100000 && (t.rdC 3).off == 0 && (t.rdC 3).tag
          | .fault _ => false
          | .refused _ => false)
     | .fault _ => false
     | .refused _ => false) = true := by decide +kernel

/-- 13 R354: with three candidates of PRIO 5, 9 and 9 the tie goes to the lower index, at a cost of one and the candidates. -/
theorem test_policy_example :
    (match exec (.policyArgmax 2 1) { stW with polRun := some ⟨5, 0, [], [5, 9, 9].map (fun n => Vector.ofFn (fun i => if i.val = 1 then BitVec.ofNat 64 n else 0)),
        Vector.replicate 8 0, 0, 0, none, false⟩ } with
     | .next t => (match t.polRun with
       | some r => r.rd 2 == 1 && r.steps == 4
       | none => false)
     | .fault _ => false
     | .refused _ => false) = true := by decide +kernel

/-- FIPS 197, C.3: the AES-256 block of the standard, both ways. -/
theorem test_aes_example : Cipher.encBlock (Cipher.roundKeys (List.range 32)) ((List.range 16).map (0x11 * ·)) =
    [0x8E, 0xA2, 0xB7, 0xCA, 0x51, 0x67, 0x45, 0xBF, 0xEA, 0xFC, 0x49, 0x90, 0x4B, 0x49, 0x60, 0x89] ∧
    Cipher.decBlock (Cipher.roundKeys (List.range 32)) [0x8E, 0xA2, 0xB7, 0xCA, 0x51, 0x67, 0x45, 0xBF, 0xEA, 0xFC, 0x49, 0x90, 0x4B, 0x49, 0x60, 0x89] =
      (List.range 16).map (0x11 * ·) := by decide +kernel

end Sys2Proof.Tests
end

/-! The capability registers and what a derivation leaves in them: the fields of a capability that `Cap.make` builds, the lengths
that `cbnd` can give, the frame of a register written, and the capability instructions other than `ldc` and `stc`. -/

namespace Sys2Proof.Machine

/-! The fields of a capability are in the ranges that their widths give (01 R17). -/

theorem Cap.base_lt (c : Cap) : c.base < 2 ^ 57 := Nat.mod_lt _ (by decide)
theorem Cap.lm_lt (c : Cap) : c.lm < 4096 := Nat.mod_lt _ (by decide)
theorem Cap.le_lt (c : Cap) : c.le < 32 := Nat.mod_lt _ (by decide)
theorem Cap.space_lt (c : Cap) : c.space < 8 := Nat.mod_lt _ (by decide)

theorem Cap.off_mem (c : Cap) : -(2 ^ 43 : Nat) ≤ c.off ∧ c.off < (2 ^ 43 : Nat) := by
  unfold Cap.off sxNat
  split <;> omega

/-! A field that fits its width reads back from the capability built with it (01 R17). -/

section
variable {tag : Bool} {space le lm perm base : Nat} {off : Int}

theorem Cap.toNat_lo_make :
    (Cap.make tag space le lm off perm base).lo.toNat = perm % 128 * 2 ^ 57 + base % 2 ^ 57 := by
  simp only [Cap.make, BitVec.toNat_ofNat]
  omega

theorem Cap.toNat_hi_make : (Cap.make tag space le lm off perm base).hi.toNat =
    space % 8 * 2 ^ 61 + le % 32 * 2 ^ 56 + lm % 4096 * 2 ^ 44 + (off % (2 ^ 44 : Nat)).toNat := by
  simp only [Cap.make, BitVec.toNat_ofNat]
  omega

@[simp] theorem Cap.tag_make : (Cap.make tag space le lm off perm base).tag = tag := rfl

theorem Cap.base_make (h : base < 2 ^ 57) : (Cap.make tag space le lm off perm base).base = base := by
  simp only [Cap.base, bitsOf, Cap.toNat_lo_make]
  omega

@[simp] theorem Cap.perm_make (p : BitVec 7) : (Cap.make tag space le lm off p.toNat base).perm = p := by
  apply BitVec.eq_of_toNat_eq
  simp only [Cap.perm, bitsOf, Cap.toNat_lo_make, BitVec.toNat_ofNat]
  omega

theorem Cap.off_make (h : -(2 ^ 43 : Nat) ≤ off ∧ off < (2 ^ 43 : Nat)) :
    (Cap.make tag space le lm off perm base).off = off := by
  simp only [Cap.off, sxNat, Cap.toNat_hi_make]
  split <;> omega

theorem Cap.lm_make (h : lm < 4096) : (Cap.make tag space le lm off perm base).lm = lm := by
  simp only [Cap.lm, bitsOf, Cap.toNat_hi_make]
  omega

theorem Cap.le_make (h : le < 32) : (Cap.make tag space le lm off perm base).le = le := by
  simp only [Cap.le, bitsOf, Cap.toNat_hi_make]
  omega

theorem Cap.space_make (h : space < 8) : (Cap.make tag space le lm off perm base).space = space := by
  simp only [Cap.space, bitsOf, Cap.toNat_hi_make]
  omega

theorem Cap.len_make (hm : lm < 4096) (he : le < 32) :
    (Cap.make tag space le lm off perm base).len = (lm + 1) * 2 ^ le := by
  rw [Cap.len, Cap.lm_make hm, Cap.le_make he]

/-! A field taken over from another capability always fits. -/

@[simp] theorem Cap.base_make_base (c : Cap) : (Cap.make tag space le lm off perm c.base).base = c.base := Cap.base_make c.base_lt
@[simp] theorem Cap.off_make_off (c : Cap) : (Cap.make tag space le lm c.off perm base).off = c.off := Cap.off_make c.off_mem
@[simp] theorem Cap.space_make_space (c : Cap) : (Cap.make tag c.space le lm off perm base).space = c.space :=
  Cap.space_make c.space_lt
@[simp] theorem Cap.len_make_len (c : Cap) : (Cap.make tag space c.le c.lm off perm base).len = c.len :=
  Cap.len_make c.lm_lt c.le_lt

end

/-! The length that a request is rounded to (01 R30). -/

theorem lt_two_pow_bitLen (l : Nat) : l < 2 ^ bitLen l := by
  unfold bitLen
  split
  · next h => simp [h]
  · exact Nat.lt_log2_self

theorem two_pow_le_of_lt_bitLen {l n : Nat} (h : n < bitLen l) : 2 ^ n ≤ l := by
  unfold bitLen at h
  split at h
  · omega
  · next hl => exact (Nat.pow_le_pow_right (by decide) (by omega)).trans (Nat.log2_self_le hl)

/-- LE fits 5 bits and LM 12 bits, whatever length is asked for. -/
theorem lenFields_lt (l : Nat) : (lenFields l).1 < 32 ∧ (lenFields l).2 < 4096 := by
  unfold lenFields
  extract_lets b le
  split
  · exact ⟨by decide, by decide⟩
  · next hle =>
    have hb : l < 2 ^ le * 4096 := by
      have h := lt_two_pow_bitLen l
      rw [show 4096 = 2 ^ 12 from rfl, ← Nat.pow_add]
      exact h.trans_le (Nat.pow_le_pow_right (by decide) (by simp only [le, b]; split <;> omega))
    have hq : l / 2 ^ le < 4096 := Nat.div_lt_of_lt_mul hb
    exact ⟨by simp only; omega, by simp only; omega⟩

/-- Rounding goes down: no more than what is asked for is given. -/
theorem roundedLen_le {l : Nat} (hl : l ≠ 0) : roundedLen l ≤ l := by
  unfold roundedLen lenFields
  extract_lets b le
  split
  · next hle =>
    have hb : 43 < bitLen l := by simp only [le, b] at hle; split at hle <;> omega
    have h := two_pow_le_of_lt_bitLen hb
    simpa using h
  · have hp : 2 ^ le ≤ l := by
      by_cases hb : 12 < b
      · exact two_pow_le_of_lt_bitLen (show le < bitLen l by simp only [le, if_pos hb]; omega)
      · simp only [le, if_neg hb, Nat.pow_zero]; omega
    have hq : 0 < l / 2 ^ le := Nat.div_pos hp (Nat.two_pow_pos _)
    simp only [Nat.sub_add_cancel hq]
    exact Nat.div_mul_le_self l (2 ^ le)

@[simp] theorem Cap.len_make_lenFields {tag : Bool} {space perm base : Nat} {off : Int} (l : Nat) :
    (Cap.make tag space (lenFields l).1 (lenFields l).2 off perm base).len = roundedLen l :=
  Cap.len_make (lenFields_lt l).2 (lenFields_lt l).1

/-! The frame of an instruction that writes registers of the running slot. -/

/-- A running slot that differs in listed registers alone is a change of these registers alone. -/
theorem State.onlyRegs_setMe (s : State) {x : Slot} {l : List RegName} (hr : ∀ r, r ∉ l → x.rd r = s.me.rd r)
    (hx : x = s.me.withRegs x) : OnlyRegs s (s.setMe x) l where
  regs r h := by rw [State.me_setMe]; exact hr r h
  slot := by rw [State.me_setMe]; exact hx
  core := by rw [State.myCore_setMe]; rfl
  slots i h := by rw [State.myCore_setMe]; exact Core.slots_setSlot_other _ _ _ i h
  others i h := State.core_setMe_other s x i h
  rest := rfl

theorem State.onlyRegs_wrC (s : State) (d : BitVec 4) (y : Cap) : OnlyRegs s (s.wrC d y) [.c4 d] :=
  s.onlyRegs_setMe (fun r h => Slot.rd_wrC_other _ d y r (by simpa using h)) rfl

@[simp] theorem State.rdC_wrC_self (s : State) (d : BitVec 4) (y : Cap) : (s.wrC d y).rdC d = y := by
  rw [State.rdC_wrC, if_pos rfl]

/-- A capability register written: the frame is that register, which reads as what was written. -/
theorem answers_wrC {o : Out} {s : State} {d : BitVec 4} {y : Cap} {p : State → Prop} (ho : o = .next (s.wrC d y))
    (hp : ∀ t, t.rdC d = y → p t) : Answers o (fun t => OnlyRegs s t [.c4 d] ∧ p t) :=
  ⟨_, ho, s.onlyRegs_wrC d y, hp _ (s.rdC_wrC_self d y)⟩

/-! `cbnd` and `cprm` (01 R30; 11 R284). -/

section
variable {s : State} {d cs : BitVec 4} {g : BitVec 5} {imm : BitVec 7}

theorem exec_cbnd_untagged (ht : (s.rdC cs).tag = false) :
    exec (.cbnd d cs g imm) s = .next (s.raise .tag (BitVec.ofNat 64 cs.toNat) 0) := by
  show execCbnd d cs g imm s = _
  simp [execCbnd, ht, State.trapOut]

theorem exec_cprm_untagged (ht : (s.rdC cs).tag = false) :
    exec (.cprm d cs imm) s = .next (s.raise .tag (BitVec.ofNat 64 cs.toNat) 0) := by
  show execCprm d cs imm s = _
  simp [execCprm, ht, State.trapOut]

theorem exec_cprm (ht : (s.rdC cs).tag = true) :
    exec (.cprm d cs imm) s = .next (s.wrC d (Cap.make true (s.rdC cs).space (s.rdC cs).le (s.rdC cs).lm (s.rdC cs).off
      ((s.rdC cs).perm &&& imm).toNat (s.rdC cs).base)) := by
  show execCprm d cs imm s = _
  simp [execCprm, ht]

theorem exec_cbnd_zero (ht : (s.rdC cs).tag = true) (hl : (s.rdG g).toNat + imm.toNat = 0) :
    exec (.cbnd d cs g imm) s = .next (s.raise .bounds (wordOfInt (s.rdC cs).cursor) 0) := by
  show execCbnd d cs g imm s = _
  simp only [execCbnd, ht, hl, State.trapOut, Bool.not_true, Bool.false_eq_true, if_false, if_true]

theorem Cap.boundsBad_iff {c : Cap} {l : Nat} : c.boundsBad l = true ↔
    c.cursor < 0 ∨ (2 ^ 57 : Nat) ≤ c.cursor ∨ c.cursor < c.base ∨ (c.base + c.len : Nat) < c.cursor + roundedLen l := by
  simp only [Cap.boundsBad, Bool.or_eq_true, decide_eq_true_eq, or_assoc]

theorem exec_cbnd_bad (ht : (s.rdC cs).tag = true) (hl : (s.rdG g).toNat + imm.toNat ≠ 0)
    (hb : (s.rdC cs).boundsBad ((s.rdG g).toNat + imm.toNat) = true) :
    exec (.cbnd d cs g imm) s = .next (s.raise .bounds (wordOfInt (s.rdC cs).cursor)
      (BitVec.ofNat 64 (roundedLen ((s.rdG g).toNat + imm.toNat)))) := by
  show execCbnd d cs g imm s = _
  simp only [execCbnd, ht, hl, hb, State.trapOut, Bool.not_true, Bool.false_eq_true, if_false, if_true]

theorem exec_cbnd (ht : (s.rdC cs).tag = true) (hl : (s.rdG g).toNat + imm.toNat ≠ 0)
    (hb : ¬ (s.rdC cs).boundsBad ((s.rdG g).toNat + imm.toNat) = true) :
    exec (.cbnd d cs g imm) s = .next (s.wrC d (Cap.make true (s.rdC cs).space (lenFields ((s.rdG g).toNat + imm.toNat)).1
      (lenFields ((s.rdG g).toNat + imm.toNat)).2 0 (s.rdC cs).perm.toNat (s.rdC cs).cursor.toNat)) := by
  show execCbnd d cs g imm s = _
  simp only [execCbnd, ht, hl, hb, Bool.not_true, Bool.false_eq_true, if_false]

end

/-! `cspc` (01 R31; 11 R285). -/

theorem exec_cspc_untagged {s : State} {d cs : BitVec 4} {spc : BitVec 3} (hs : spc.toNat < 6) (ht : (s.rdC cs).tag = false) :
    exec (.cspc d cs spc) s = .next (s.raise .tag (BitVec.ofNat 64 cs.toNat) 0) := by
  show execCspc d cs spc s = _
  simp [execCspc, ht, State.trapOut, Nat.not_lt.mpr (Nat.le_of_lt_succ hs)]

theorem exec_cspc {s : State} {d cs : BitVec 4} {spc : BitVec 3} (hs : spc.toNat < 6) (ht : (s.rdC cs).tag = true) :
    exec (.cspc d cs spc) s = .next (s.wrC d ((s.rdC cs).setSpace spc.toNat s.cur.core)) := by
  show execCspc d cs spc s = _
  simp [execCspc, ht, Nat.not_lt.mpr (Nat.le_of_lt_succ hs)]

theorem Cap.setSpace_same (c : Cap) (core : Nat) : c.setSpace c.space core = c := if_pos rfl

/-- The bounds of a PEER capability lie wholly within a core's own slice (01 R14, R31). -/
def Cap.inOwnSlice (c : Cap) (core : Nat) : Prop :=
  core % 2 ^ 20 * 65536 ≤ c.base ∧ c.base + c.len ≤ (core % 2 ^ 20 + 1) * 65536

theorem Cap.setSpace_own {c : Cap} {core : Nat} (hp : c.space = 2) (hc : c.inOwnSlice core) :
    c.setSpace 1 core = Cap.make c.tag 1 c.le c.lm c.off c.perm.toNat (c.base % 65536) := by
  rw [Cap.setSpace, if_neg (by omega), if_pos ⟨hp, rfl, hc⟩]

theorem Cap.setSpace_other {c : Cap} {spc core : Nat} (hs : spc ≠ c.space) (hn : ¬ (c.space = 2 ∧ spc = 1 ∧ c.inOwnSlice core)) :
    c.setSpace spc core = Cap.make false spc c.le c.lm c.off c.perm.toNat c.base := by
  rw [Cap.setSpace, if_neg hs]
  exact if_neg hn

/-- A field that `cget` names (11 R285). -/
theorem exec_cget {s : State} {d : BitVec 5} {cs fld : BitVec 4} {y : Word} (hy : (s.rdC cs).field fld.toNat = some y) :
    exec (.cget d cs fld) s = .next (s.wrG d y) := by
  show execCget d cs fld s = _
  simp only [execCget, hy]

/-- Settles O21: each instruction's equation gives the capability written, whose fields read back as they were built; the frame
is that of one capability register written. -/
theorem capabilityDerivation : Obligations.CapabilityDerivation := by
  unfold Obligations.CapabilityDerivation
  intro s d cs g imm spc fld c l keeps
  refine ⟨rfl, fun ht => ⟨exec_cbnd_untagged ht, exec_cprm_untagged ht⟩, exec_cbnd_zero, ?cbnd, ?cbndBad, ?cprm, ?cspc,
    exec_cspc_untagged, ?ctag, ?cget⟩
  case cbnd =>
    intro ht hl h0 h57 hbase htop
    have hb : ¬ c.boundsBad l = true := by rw [Cap.boundsBad_iff]; omega
    refine answers_wrC (exec_cbnd ht hl hb) fun t h => ?_
    have hcur : c.cursor.toNat < 2 ^ 57 := by omega
    rw [h, Cap.base_make hcur]
    exact ⟨Cap.tag_make, Int.toNat_of_nonneg h0, Cap.off_make (by decide), Cap.len_make_lenFields l,
      (Cap.len_make_lenFields l).trans_le (roundedLen_le hl), Cap.perm_make _, Cap.space_make_space c⟩
  case cbndBad => exact fun ht hl hb => exec_cbnd_bad ht hl (Cap.boundsBad_iff.mpr hb)
  case cprm =>
    refine fun ht => answers_wrC (exec_cprm ht) fun t h => ?_
    rw [h]
    exact ⟨Cap.perm_make _, Cap.tag_make, Cap.base_make_base c, Cap.off_make_off c, Cap.len_make_len c, Cap.space_make_space c⟩
  case cspc =>
    refine fun hs ht => answers_wrC (exec_cspc hs ht) fun t h => ⟨fun e => ?_, fun hne => ?_⟩
    · rw [h, e, Cap.setSpace_same]
    · split
      · next hown =>
        obtain ⟨hp, rfl, hc⟩ := hown
        have hbase : c.base % 65536 < 2 ^ 57 := by omega
        rw [h, show (1 : BitVec 3).toNat = 1 from rfl, Cap.setSpace_own hp hc]
        exact ⟨Cap.space_make (by decide), Cap.off_make_off c, Cap.len_make_len c, Cap.perm_make _, Cap.tag_make.trans ht,
          Cap.base_make hbase⟩
      · next hown =>
        have hnot : ¬ (c.space = 2 ∧ spc.toNat = 1 ∧ c.inOwnSlice s.cur.core) :=
          fun ⟨hp, e, hc⟩ => hown ⟨hp, BitVec.eq_of_toNat_eq e, hc⟩
        rw [h, Cap.setSpace_other hne hnot]
        exact ⟨Cap.space_make spc.isLt, Cap.off_make_off c, Cap.len_make_len c, Cap.perm_make _, Cap.tag_make,
          Cap.base_make_base c⟩
  case ctag =>
    refine answers_wrC (y := c.untag) rfl fun t h => ?_
    rw [h]
    exact ⟨rfl, rfl, rfl⟩
  case cget =>
    intro hf
    refine exec_cget ?_
    generalize fld.toNat = n at hf
    interval_cases n <;> rfl

end Sys2Proof.Machine

/-! The scalar float instructions and the predicate instructions: what a register written reads as, an exact result rounded once
into a general register, the selects and comparisons as the spec words them, and the words of KO. -/

namespace Sys2Proof.Machine

/-! A register written reads as what was written, and the constant registers as their constants (09 R216). -/

theorem State.rdG_zero (s : State) : s.rdG 0 = 0 := rfl

theorem State.rdK_zero (s : State) : s.rdK 0 = BitVec.ofNat 64 (2 ^ 64 - 1) := rfl

theorem State.rdG_wrG_self (s : State) (d : BitVec 5) (y : Word) : (s.wrG d y).rdG d = if d = 0 then 0 else y := by
  rw [State.rdG_wrG]
  by_cases hd : d = 0
  · rw [if_neg (fun h => h.2 hd), if_pos hd, hd, State.rdG_zero]
  · rw [if_pos ⟨rfl, hd⟩, if_neg hd]

theorem State.rdK_wrK_self (s : State) (d : BitVec 3) (y : Word) :
    (s.wrK d y).rdK d = if d = 0 then BitVec.ofNat 64 (2 ^ 64 - 1) else y := by
  rw [State.rdK_wrK]
  by_cases hd : d = 0
  · rw [if_neg (fun h => h.2 hd), if_pos hd, hd, State.rdK_zero]
  · rw [if_pos ⟨rfl, hd⟩, if_neg hd]

/-- A general register other than g0 written. -/
theorem answers_wrG {o : Out} {s : State} {d : BitVec 5} {y z : Word} (hd : d ≠ 0) (ho : o = .next (s.wrG d y)) (hz : y = z) :
    Answers o (fun t => t.rdG d = z) :=
  ⟨_, ho, (s.rdG_wrG_self d y).trans ((if_neg hd).trans hz)⟩

/-- A code that fits a general register other than g0 is written zero-extended (10 R239). -/
theorem answers_wrG_code {o : Out} {s : State} {d : BitVec 5} {c n : Nat} (hd : d ≠ 0)
    (ho : o = .next (s.wrG d (BitVec.ofNat 64 c))) (hc : c < 2 ^ 64) (hn : c = n) : Answers o (fun t => (t.rdG d).toNat = n) := by
  refine ⟨_, ho, ?_⟩
  show ((s.wrG d _).rdG d).toNat = n
  rw [State.rdG_wrG_self, if_neg hd, BitVec.toNat_ofNat, Nat.mod_eq_of_lt hc, hn]

/-- A predicate register written. -/
theorem answers_wrK {o : Out} {s : State} {d : BitVec 3} {y : Word} (ho : o = .next (s.wrK d y)) :
    Answers o (fun t => t.rdK d = if d = 0 then BitVec.ofNat 64 (2 ^ 64 - 1) else y) :=
  ⟨_, ho, s.rdK_wrK_self d y⟩

/-! The rounding generator (08 R203). -/

@[simp] theorem State.srng_wrG (s : State) (d : BitVec 5) (y : Word) : (s.wrG d y).srng = s.srng := by
  rw [State.srng, State.wrG, State.myCore_setMe]; rfl

@[simp] theorem State.srng_setSrng (s : State) (x : BitVec 32) : (s.setSrng x).srng = x :=
  congrArg Core.srng (State.core_modCore_self s _ _)

/-! One rounding (10 R243). -/

/-- A float result put in a register is the exact result rounded once, with one draw under `rst` and none elsewhere. -/
theorem State.putFloat_result (s : State) (d : BitVec 5) (fm : Fmt) (rnd : BitVec 3) (x : RMode → Exact) :
    floatResult s d fm (s.mode rnd) (x (s.mode rnd)) (s.putFloat d fm rnd x) := by
  unfold State.putFloat
  by_cases hm : s.mode rnd = .rst <;> simp [floatResult, hm, drawIf, drawNo, srngAfter, State.rdG_wrG_self]

/-- A float instruction whose rounding code is not reserved answers with its result rounded once. -/
theorem answers_putFloat {o : Out} {s : State} {d : BitVec 5} {fm : Fmt} {rnd : BitVec 3} {x : RMode → Exact} {name : String}
    (hr : rndOk rnd = true) (ho : o = withRnd rnd name (.next (s.putFloat d fm rnd x))) :
    Answers o (floatResult s d fm (s.mode rnd) (x (s.mode rnd))) :=
  ⟨_, ho.trans (if_pos hr), s.putFloat_result d fm rnd x⟩

/-- `fadd`, `fsub`, `fmul` and `ffma` are each one exact function of the operands, put in g(D). -/
theorem scalarFloat_roundsOnce : scalarFloatRoundsOnce := by
  intro s d a b c rnd ty hr fm m x y z
  exact ⟨answers_putFloat (x := fun m => addExact m x y) hr rfl, answers_putFloat (x := fun m => addExact m x y.negate) hr rfl,
    answers_putFloat (x := fun _ => mulExact x y) hr rfl, answers_putFloat (x := fun m => addExact m (mulExact x y) z) hr rfl⟩

/-! Scalar codes fit the width of their format, and so a register (10 R239). -/

theorem width_scalarFmt (ty : BitVec 1) : 0 < (scalarFmt ty).width ∧ (scalarFmt ty).width ≤ 32 := by
  unfold scalarFmt
  split <;> decide

theorem nanCode_scalarFmt_lt (ty : BitVec 1) : nanCode (scalarFmt ty) < 2 ^ (scalarFmt ty).width := by
  unfold scalarFmt
  split <;> decide

theorem scalarCode_lt (fm : Fmt) (x : Word) : scalarCode fm x < 2 ^ fm.width := Nat.mod_lt _ (Nat.two_pow_pos _)

theorem lt_word_of_lt_width {ty : BitVec 1} {c : Nat} (h : c < 2 ^ (scalarFmt ty).width) : c < 2 ^ 64 :=
  h.trans_le (Nat.pow_le_pow_right (by decide) ((width_scalarFmt ty).2.trans (by decide)))

/-! `fmin` and `fmax` (08 R206). -/

/-- A value is ordered below another by value, or as −0 below +0. -/
theorem exactBelow_iff {x y : Exact} : exactBelow x y = true ↔
    exactLt x y = true ∨ (x.isZero = true ∧ y.isZero = true ∧ x.neg = true ∧ y.neg = false) := by
  simp only [exactBelow, Bool.or_eq_true, Bool.and_eq_true, Bool.not_eq_true', and_assoc]

section
variable {fm : Fmt} {a b : Nat} {x y : Exact} (hx : decodeNum fm false a = x) (hy : decodeNum fm false b = y)
include hx hy

/-- The lesser or greater of two codes by the NaNs among them; of two numbers the second, where it is ordered past the first. -/
theorem minMaxCode_eq (greater : Bool) : minMaxCode fm greater a b =
    if x = .nan ∧ y = .nan then nanCode fm else if x = .nan then b else if y = .nan then a
    else if (if greater then exactBelow x y else exactBelow y x) = true then b else a := by
  rw [minMaxCode, hx, hy]
  split
  · rw [if_pos ⟨rfl, rfl⟩]
  · next hb => rw [if_neg (fun h => hb h.2), if_pos rfl]
  · next ha => rw [if_neg (fun h => ha h.1), if_neg ha, if_pos rfl]
  · next ha hb _ =>
    rw [if_neg (fun h : x = .nan ∧ y = .nan => ha h.1), if_neg ha, if_neg hb]
    cases greater <;> rfl

theorem minCode_eq : minMaxCode fm false a b =
    if x = .nan ∧ y = .nan then nanCode fm else if x = .nan then b else if y = .nan then a
    else if exactLt y x = true ∨ (x.isZero = true ∧ y.isZero = true ∧ y.neg = true ∧ x.neg = false) then b else a := by
  simp only [minMaxCode_eq hx hy, Bool.false_eq_true, if_false, exactBelow_iff, and_left_comm (a := y.isZero = true)]

theorem maxCode_eq : minMaxCode fm true a b =
    if x = .nan ∧ y = .nan then nanCode fm else if x = .nan then b else if y = .nan then a
    else if exactLt x y = true ∨ (x.isZero = true ∧ y.isZero = true ∧ x.neg = true ∧ y.neg = false) then b else a := by
  simp only [minMaxCode_eq hx hy, if_true, exactBelow_iff]

end

/-- The result of `min` and `max` is one of the operands or the canonical NaN, so it fits where these fit. -/
theorem minMaxCode_lt {fm : Fmt} {a b n : Nat} (greater : Bool) (ha : a < n) (hb : b < n) (hn : nanCode fm < n) :
    minMaxCode fm greater a b < n := by
  rw [minMaxCode_eq rfl rfl]
  split_ifs <;> assumption

/-! `fsgn` (10 R244). -/

/-- The top bit of a code of a format is all that stands above the magnitude. -/
theorem scalarCode_div_top_lt {fm : Fmt} (hw : 0 < fm.width) (x : Word) : scalarCode fm x / 2 ^ (fm.width - 1) < 2 := by
  rw [Nat.div_lt_iff_lt_mul (Nat.two_pow_pos _), Nat.mul_comm, Nat.two_pow_pred_mul_two hw]
  exact scalarCode_lt fm x

/-- `fsgn` joins the magnitude of a with the sign that SUB names, a NaN a apart. -/
theorem signCode_eq {fm : Fmt} {a b : Nat} {sk : BitVec 3} (hk : sk.toNat < 3) (ha : a / 2 ^ (fm.width - 1) < 2)
    (hb : b / 2 ^ (fm.width - 1) < 2) : signCode fm sk.toNat a b =
    if decodeNum fm false a = .nan then nanCode fm
    else a % 2 ^ (fm.width - 1) + (if sk = 0 then b / 2 ^ (fm.width - 1) else if sk = 1 then 1 - b / 2 ^ (fm.width - 1)
      else (a / 2 ^ (fm.width - 1) + b / 2 ^ (fm.width - 1)) % 2) * 2 ^ (fm.width - 1) := by
  have hs : sk = 0 ∨ sk = 1 ∨ sk = 2 := by
    revert sk
    decide
  simp only [signCode, Nat.mod_eq_of_lt ha, Nat.mod_eq_of_lt hb]
  obtain rfl | rfl | rfl := hs <;> rfl

/-- A magnitude below the top bit with a sign in it fits the format. -/
theorem signCode_lt {fm : Fmt} (hw : 0 < fm.width) (hn : nanCode fm < 2 ^ fm.width) (sub a b : Nat) :
    signCode fm sub a b < 2 ^ fm.width := by
  unfold signCode
  extract_lets top sa sb
  split
  · exact hn
  · have hm : a % top < top := Nat.mod_lt _ (Nat.two_pow_pos _)
    have htop : 2 ^ fm.width = top * 2 := (Nat.two_pow_pred_mul_two hw).symm
    rw [htop]
    have hs : ∀ g, g ≤ 1 → a % top + g * top < top * 2 := fun g hg => by
      have := Nat.mul_le_mul_right top hg
      omega
    exact hs _ (by split <;> omega)

/-! `fcmp` (08 R206; 09 R227). -/

/-- A comparison with a NaN is unordered, which satisfies `ne` and `un` alone. -/
theorem relHolds_nan {x y : Exact} (sk : BitVec 3) (h : x = .nan ∨ y = .nan) :
    relHolds sk.toNat (cmpExact x y) = decide (sk = 1 ∨ sk = 6) := by
  have hc : cmpExact x y = .un := by rw [cmpExact, if_pos (by simpa using h)]
  rw [hc]
  revert sk
  decide

theorem cmpExact_of_not_nan {x y : Exact} (h : ¬ (x = .nan ∨ y = .nan)) :
    cmpExact x y = if exactLt x y then .lt else if exactLt y x then .gt else .eq := by
  rw [cmpExact, if_neg (by simpa using h)]

theorem exec_fcmp {s : State} {d a b : BitVec 5} {sk : BitVec 3} {ty : BitVec 1} (hk : sk.toNat < 7) :
    exec (.fcmp d a b sk ty) s = .next (s.wrG d (if relHolds sk.toNat
      (cmpExact (scalarOperand s (scalarFmt ty) a) (scalarOperand s (scalarFmt ty) b)) then 1 else 0)) := by
  show execFcmp d a b sk ty s = _
  exact if_pos hk

theorem exec_fsgn {s : State} {d a b : BitVec 5} {sk : BitVec 3} {ty : BitVec 1} (hk : sk.toNat < 3) :
    exec (.fsgn d a b sk ty) s = .next (s.wrG d (BitVec.ofNat 64
      (signCode (scalarFmt ty) sk.toNat (scalarCode (scalarFmt ty) (s.rdG a)) (scalarCode (scalarFmt ty) (s.rdG b))))) := by
  show execFsgn d a b sk ty s = _
  exact if_pos hk

/-- Each instruction answers with the number of its own equation, which is the one that the spec's words give. -/
theorem scalarFloat_selectsAndCompares : scalarFloatSelectsAndCompares := by
  intro s d a b sk ty hd fm x y ca cb top
  have hw : 0 < fm.width := (width_scalarFmt ty).1
  have hn : nanCode fm < 2 ^ fm.width := nanCode_scalarFmt_lt ty
  have ha : ca < 2 ^ fm.width := scalarCode_lt fm _
  have hb : cb < 2 ^ fm.width := scalarCode_lt fm _
  refine ⟨?fmin, ?fmax, ?fsgn, ?fcmp, ?fclass⟩
  case fmin => exact answers_wrG_code hd rfl (lt_word_of_lt_width (minMaxCode_lt false ha hb hn)) (minCode_eq rfl rfl)
  case fmax => exact answers_wrG_code hd rfl (lt_word_of_lt_width (minMaxCode_lt true ha hb hn)) (maxCode_eq rfl rfl)
  case fsgn =>
    exact fun hk => answers_wrG_code hd (exec_fsgn hk) (lt_word_of_lt_width (signCode_lt hw hn _ _ _))
      (signCode_eq hk (scalarCode_div_top_lt hw _) (scalarCode_div_top_lt hw _))
  case fcmp =>
    refine fun hk => answers_wrG hd (exec_fcmp hk) ?_
    change (if relHolds sk.toNat (cmpExact x y) then 1 else 0) = _
    by_cases h : x = .nan ∨ y = .nan
    · simp only [if_pos h, relHolds_nan sk h, decide_eq_true_eq]
    · -- A relation of two numbers is settled by which of them, if either, is the lesser.
      rw [if_neg h, cmpExact_of_not_nan h]
      generalize sk.toNat = n at hk
      interval_cases n <;> cases exactLt x y <;> cases exactLt y x <;> rfl
  case fclass => exact answers_wrG hd rfl rfl

/-- Settles O10: the sums and products are one exact value rounded once, and the rest are selections and numbers that fit g(D). -/
theorem scalarFloatResults : Obligations.ScalarFloatResults := by
  unfold Obligations.ScalarFloatResults
  exact ⟨scalarFloat_roundsOnce, scalarFloat_selectsAndCompares⟩

/-! The words of KO (10 R259; 09 R225, R230): the function field chooses the instruction. -/

/-- The function field of a KO word is its low three bits. -/
theorem bitsOf_ko_function (w : Nat) : bitsOf w 0 3 = w % 8 := by
  simp only [bitsOf]
  omega

section
variable {w : Nat} (hop : bitsOf w 26 6 = 0x30)
include hop

theorem decodeA_ko_illegal (hf : 5 ≤ w % 8) : decodeA w = .error .illegalA := by
  have hlt : w % 8 < 8 := Nat.mod_lt _ (by decide)
  rw [decodeA, hop, bitsOf_ko_function]
  generalize w % 8 = f at hf hlt
  interval_cases f <;> rfl

theorem decodeA_kand (hf : w % 8 = 0) :
    decodeA w = takeA (bitsOf w 3 14 == 0) (.kand (fld w 23 3) (fld w 20 3) (fld w 17 3)) := by
  rw [decodeA, hop, bitsOf_ko_function, hf]; rfl

theorem decodeA_kor (hf : w % 8 = 1) :
    decodeA w = takeA (bitsOf w 3 14 == 0) (.kor (fld w 23 3) (fld w 20 3) (fld w 17 3)) := by
  rw [decodeA, hop, bitsOf_ko_function, hf]; rfl

theorem decodeA_kxor (hf : w % 8 = 2) :
    decodeA w = takeA (bitsOf w 3 14 == 0) (.kxor (fld w 23 3) (fld w 20 3) (fld w 17 3)) := by
  rw [decodeA, hop, bitsOf_ko_function, hf]; rfl

theorem decodeA_knot (hf : w % 8 = 3) : decodeA w = takeA (bitsOf w 3 17 == 0) (.knot (fld w 23 3) (fld w 20 3)) := by
  rw [decodeA, hop, bitsOf_ko_function, hf]; rfl

theorem decodeA_kmovK (hf : w % 8 = 4) : decodeA w = takeA (bitsOf w 3 17 == 0) (.kmovK (fld w 23 3) (fld w 20 3)) := by
  rw [decodeA, hop, bitsOf_ko_function, hf]; rfl

end

/-- A word with a reserved field set is refused. -/
theorem takeA_res {r : Bool} (i : Instr) (hr : r = false) : takeA r i = .error .resA := by simp [takeA, hr]

/-- The reserved field of `knot` and `kmov` is the one of the binary forms with KB above it. -/
theorem bitsOf_ko_reserved {w : Nat} : bitsOf w 3 17 = 0 ↔ bitsOf w 3 14 = 0 ∧ bitsOf w 17 3 = 0 := by
  simp only [bitsOf]
  omega

/-- Settles O12: each instruction writes one register, and the words of KO decode by their function field. -/
theorem predicateResults : Obligations.PredicateResults := by
  unfold Obligations.PredicateResults
  intro s d a b g put
  refine ⟨answers_wrK rfl, answers_wrK rfl, answers_wrK rfl, answers_wrK rfl, answers_wrK rfl, answers_wrK rfl,
    ⟨_, rfl, s.rdG_wrG_self g _⟩, s.rdK_zero, s.rdG_zero, ?words⟩
  case words =>
    intro w hop ka kb kd
    refine ⟨decodeA_ko_illegal hop, fun hf hkb => ?reserved, fun hres => ?legal⟩
    case reserved =>
      have hr : (bitsOf w 3 17 == 0) = false := beq_eq_false_iff_ne.mpr fun h => hkb (bitsOf_ko_reserved.mp h).2
      obtain hf | hf := hf
      · exact (decodeA_knot hop hf).trans (takeA_res _ hr)
      · exact (decodeA_kmovK hop hf).trans (takeA_res _ hr)
    case legal =>
      have h14 : (bitsOf w 3 14 == 0) = true := beq_iff_eq.mpr hres
      have h17 (hkb : bitsOf w 17 3 = 0) : (bitsOf w 3 17 == 0) = true := beq_iff_eq.mpr (bitsOf_ko_reserved.mpr ⟨hres, hkb⟩)
      exact ⟨fun hf => (decodeA_kand hop hf).trans (Laws.RoundTrip.takeA_ok h14 rfl),
        fun hf => (decodeA_kor hop hf).trans (Laws.RoundTrip.takeA_ok h14 rfl),
        fun hf => (decodeA_kxor hop hf).trans (Laws.RoundTrip.takeA_ok h14 rfl),
        fun hkb hf => (decodeA_knot hop hf).trans (Laws.RoundTrip.takeA_ok (h17 hkb) rfl),
        fun hkb hf => (decodeA_kmovK hop hf).trans (Laws.RoundTrip.takeA_ok (h17 hkb) rfl)⟩

end Sys2Proof.Machine
